-- ==== Sys2Proof/Word.lean ====
section
/-! DEFINITION. Word.lean: the plain bit-vector types of the block (R3, R8, R133). -/

namespace Sys2Proof

/-- A byte of memory or of a frame. -/
abbrev Byte := BitVec 8

/-- A register of BAR0, a signal, an engine data word (R3, R8). -/
abbrev Word := BitVec 32

/-- A 64-bit quantity: a position, an angle, a cycle number (R8). -/
abbrev DWord := BitVec 64

/-- An engine accumulator (R133). -/
abbrev AccWord := BitVec 80

end Sys2Proof
end

