-- ==== Sys2Proof/Machine/Bits.lean ====
section
/-! DEFINITION. Machine/Bits.lean: bit fields, byte order, signed readings, saturation and the checks (CRC) that
every block uses (R3, R8, R10, R256). -/

namespace Sys2Proof.Machine

/-- Bits `hi` to `lo` of a word, as a number. -/
def fld (w : Word) (hi lo : Nat) : Nat := w.toNat / 2 ^ lo % 2 ^ (hi + 1 - lo)

/-- Bit `i` of a word. -/
def bit (w : Word) (i : Nat) : Bool := w.toNat.testBit i

/-- The word with bits `hi` to `lo` replaced by the low bits of `v`. -/
def setFld (w : Word) (hi lo v : Nat) : Word :=
  let m : Word := BitVec.ofNat 32 ((2 ^ (hi + 1 - lo) - 1) * 2 ^ lo)
  (w &&& ~~~m) ||| (BitVec.ofNat 32 (v * 2 ^ lo) &&& m)

/-- The word with bit `i` set to `b`. -/
def setBit (w : Word) (i : Nat) (b : Bool) : Word := setFld w i i (if b then 1 else 0)

/-- A boolean as a number. -/
def b2n (b : Bool) : Nat := if b then 1 else 0

/-- A word from a number, reduced to 32 bits. -/
def w32 (n : Nat) : Word := BitVec.ofNat 32 n

/-- A word from an integer, in two's complement. -/
def wInt (i : Int) : Word := BitVec.ofInt 32 i

/-- A 64-bit value from an integer, in two's complement. -/
def dInt (i : Int) : DWord := BitVec.ofInt 64 i

/-- The low and high words of a 64-bit value. -/
def loW (d : DWord) : Word := d.setWidth 32
/-- The high word of a 64-bit value. -/
def hiW (d : DWord) : Word := (d >>> 32).setWidth 32
/-- A 64-bit value from its high and low words. -/
def mk64 (hi lo : Word) : DWord := hi ++ lo

/-- The number `n`, `k` bits wide, read as two's complement. -/
def sgn (k n : Nat) : Int := if n % 2 ^ k < 2 ^ (k - 1) then (n % 2 ^ k : Nat) else (n % 2 ^ k : Nat) - (2 ^ k : Nat)

/-- An integer limited to a range. -/
def clampI (lo hi x : Int) : Int := if x < lo then lo else if hi < x then hi else x

/-- An integer saturated to a signed `k`-bit range. -/
def satS (k : Nat) (x : Int) : Int := clampI (-(2 ^ (k - 1) : Nat)) ((2 ^ (k - 1) : Nat) - 1) x

/-- An integer saturated to an unsigned `k`-bit range, as a number. -/
def satU (k : Nat) (x : Int) : Nat := (clampI 0 ((2 ^ k : Nat) - 1) x).toNat

/-- A counter that saturates at its largest value. -/
def satAdd (w : Word) (n : Nat) : Word := w32 (min 0xFFFFFFFF (w.toNat + n))

/-- Division rounded to the nearest, ties away from zero. -/
def divRound (a b : Int) : Int :=
  if b = 0 then 0
  else if 0 ≤ a * b then (2 * |a| + |b|) / (2 * |b|) else -((2 * |a| + |b|) / (2 * |b|))

/-- The signed modular difference `a - b` of two 64-bit values (R9). -/
def modDiff (a b : DWord) : Int := (a - b).toInt

/-- The signed modular difference of two positions or angles held as integers (R9). -/
def posDiff (a b : Int) : Int := modDiff (dInt a) (dInt b)

/-- `n` bytes of a number, least significant first (R3). -/
def leBytes : Nat → Nat → List Byte
  | 0, _ => []
  | k + 1, v => BitVec.ofNat 8 v :: leBytes k (v / 256)

/-- The number that bytes spell, least significant first (R3). -/
def leNat : List Byte → Nat
  | [] => 0
  | b :: t => b.toNat + 256 * leNat t

/-- The number in `len` bytes of a list from `off`. -/
def leAt (bs : List Byte) (off len : Nat) : Nat := leNat ((bs.drop off).take len)

/-- The bytes of a list of words. -/
def wordBytes (ws : List Word) : List Byte := ws.flatMap (fun w => leBytes 4 w.toNat)

/-- The words of a list of bytes, `n` of them. -/
def bytesWords : Nat → List Byte → List Word
  | 0, _ => []
  | n + 1, bs => w32 (leAt bs 0 4) :: bytesWords n (bs.drop 4)

/-- Pads or cuts a byte list to a length. -/
def padTo (n : Nat) (bs : List Byte) : List Byte := (bs ++ List.replicate n 0).take n

/-- A TIME value (R10): seconds, nanoseconds and the fraction, 96 bits. -/
def mkTime (sec nsec frac : Nat) : BitVec 96 :=
  BitVec.ofNat 96 (sec % 2 ^ 48 * 2 ^ 48 + nsec % 2 ^ 32 * 2 ^ 16 + frac % 2 ^ 16)

/-- The NSEC field of a TIME value. -/
def timeNsec (t : BitVec 96) : Nat := t.toNat / 2 ^ 16 % 2 ^ 32

/-- One reflected CRC step over a bit. -/
def crcStepR (poly c : Nat) : Nat := if c % 2 = 1 then (c / 2) ^^^ poly else c / 2

/-- Eight reflected CRC steps. -/
def crcByteR (poly c : Nat) (b : Byte) : Nat :=
  let c0 := c ^^^ b.toNat
  crcStepR poly (crcStepR poly (crcStepR poly (crcStepR poly
    (crcStepR poly (crcStepR poly (crcStepR poly (crcStepR poly c0)))))))

/-- CRC-32C (R256): reflected polynomial 0x82F63B78, start and final XOR all ones. -/
def crc32c (bs : List Byte) : Word :=
  w32 ((bs.foldl (crcByteR 0x82F63B78) 0xFFFFFFFF) ^^^ 0xFFFFFFFF)

/-- CRC-32 of IEEE 802.3, the frame check sequence (R255): reflected polynomial 0xEDB88320, start and final XOR all ones. -/
def crc32 (bs : List Byte) : Word :=
  w32 ((bs.foldl (crcByteR 0xEDB88320) 0xFFFFFFFF) ^^^ 0xFFFFFFFF)

/-- One step of HCHK over a bit, most significant first. -/
def crcStepM (c : Nat) : Nat := if 32768 ≤ c then (c * 2 % 65536) ^^^ 0x1021 else c * 2

/-- HCHK over a byte. -/
def crcByteM (c : Nat) (b : Byte) : Nat :=
  let c0 := c ^^^ (b.toNat * 256)
  crcStepM (crcStepM (crcStepM (crcStepM (crcStepM (crcStepM (crcStepM (crcStepM c0)))))))

/-- HCHK (R256): CRC-16, polynomial 0x1021, initial value 0xFFFF, no reflection, no final inversion. -/
def crc16 (bs : List Byte) : Nat := bs.foldl crcByteM 0xFFFF

/-- `n` bytes of a number, most significant first. -/
def beList (n v : Nat) : List Byte := (leBytes n v).reverse

/-- The number that bytes spell, most significant first. -/
def beAt (bs : List Byte) (off len : Nat) : Nat := leNat ((bs.drop off).take len).reverse

/-- An argument of an event: a 16-bit or a 32-bit one (R488). -/
inductive EvArg where
  | h (v : Nat)
  | w (v : Nat)
deriving DecidableEq, Repr

end Sys2Proof.Machine
end

