-- ==== Sys2Proof/Machine/CommuteCore.lean ====
section
/-! DEFINITION. Machine/CommuteCore.lean: the commutation of THIN stages and steppers (R161 to R184): the comparators and
the switching table of CMU, the start sequencer of the library THIN kernel, and the phase currents of a stepper.
The estimator outputs reach these functions as arguments: the spec states no bit-exact estimator (R166), so the caller
supplies free values. -/

namespace Sys2Proof.Machine

/-- The sequencer states of R169. -/
inductive CState where
  | idle | probe | check | brake | align | mag | ramp | wait | run | lost | recatch
deriving DecidableEq, Repr

/-- The code of CSTATE (R183). -/
def CState.code : CState → Nat
  | .idle => 0
  | .probe => 1
  | .check => 2
  | .brake => 3
  | .align => 4
  | .mag => 5
  | .ramp => 6
  | .wait => 7
  | .run => 8
  | .lost => 9
  | .recatch => 10

/-- The state of CMU for a THIN axis (R163, R165, R183): comparators, the code last sent, the last sector and index. -/
structure CmuState where
  cT     : Int := 0
  cPsiUp : Bool := true
  code   : Nat := 0
  sector : Nat := 0
  q      : Nat := 0
deriving DecidableEq, Repr

/-- The kernel's part of a THIN axis (R169 to R178, R183). Estimates are raw words as the window publishes them; `left`
counts the computations left in the present step, two to a base cycle for class C2 (R168). -/
structure Thin where
  cs      : CState := .idle
  att     : Nat := 0                -- consecutive failed starts
  rec_    : Nat := 0                -- re-catch attempts made
  resid   : Nat := 0                -- consecutive computations with r above R_LOSS
  left    : Nat := 0
  step    : Nat := 0                -- alignment step, 1 or 2
  vec     : Nat := 0                -- vector held in alignment
  good    : Nat := 0                -- consecutive good computations of a RAMP
  olAng   : Int := 0                -- open-loop angle of a RAMP, raw counts of 2^-16 electrical turn
  olVel   : Int := 0                -- its speed, raw VEL
  curOk   : Bool := false           -- I_ALIGN reached in this alignment step
  psiA    : Word := 0
  psiB    : Word := 0
  psiMag  : Word := 0
  psiRef  : Word := 0
  tq      : Word := 0
  ang     : Word := 0
  om      : Word := 0
  r       : Word := 0
  omGood  : Word := 0               -- omega at the last computation with r at or below R_LOSS
  omProbe : Word := 0
  keMean  : Word := 0
  keSum   : Nat := 0
  keN     : Nat := 0
  ofs     : List Word := [0, 0, 0]
  ofsSum  : List Int := [0, 0, 0]
  ofsN    : Nat := 0
  ofsDue  : Option (List Word) := none  -- offsets to apply at the next boundary (R178)
  zRun    : Nat := 0                -- consecutive intervals whose applied code was V0, V7 or OFF
  zLate   : Bool := false           -- the last command was late: the node applies a zero vector (R43)
  newRun  : Bool := false           -- RUN has been entered: CMU's comparators start again with its first job (R163)
  encOfs  : Word := 0
  encKnown : Bool := false
  holdOff : Bool := false           -- LOST holds OFF rather than ASC
  lostAt  : Option Nat := none      -- cycle of a ROTOR_LOST not yet taken at a boundary
  recRes  : Option Bool := none     -- result of a re-catch attempt not yet taken at a boundary
  flying  : Bool := false           -- FLYING_START to be logged, observer seeded
  cmu     : CmuState := {}
deriving DecidableEq, Repr

/-- The state of a STEPPER axis (R179, R180, R184). -/
structure Stepper where
  theta : Nat := 0
  zeroV : Nat := 0                  -- base cycles with zero setpoint velocity, saturating
  amp   : Word := 0
  hold  : Bool := false
deriving DecidableEq, Repr

/-! ### The kind-specific parameters, read from the Y words of the description (R183, R184). `y` is indexed from window
offset 0x1C00 in words. -/

/-- A parameter word. -/
def kw (y : Tab Word) (off : Nat) : Word := Tab.get 0 y (off / 4)
/-- A parameter read as Q1.31. -/
def kq (y : Tab Word) (off : Nat) : Int := (kw y off).toInt
/-- TYPE is induction. -/
def thinInduction (y : Tab Word) : Bool := bit (kw y 0) 0
/-- SENSORLESS. -/
def thinSensorless (y : Tab Word) : Bool := bit (kw y 0) 1
/-- Sectors of the axis's table. -/
def thinSectors (y : Tab Word) : Nat := if bit (kw y 0) 3 then 12 else 6
/-- TABLE. -/
def thinTable (y : Tab Word) : Nat := fld (kw y 0) 5 4

/-- Base cycles in a number of milliseconds, rounded up; `per` is T in 2^-6 ns. -/
def msCycles (per ms : Nat) : Nat := if per = 0 then 0 else (ms * 64000000 + per - 1) / per

/-! ### CMU -/

/-- Upper switches on in a code of R161. -/
def upperOn (code : Nat) : Nat := b2n (code.testBit 0) + b2n (code.testBit 1) + b2n (code.testBit 2)

/-- The zero vector that follows a code (R165). -/
def zeroVector (last : Nat) : Nat := if last = 0 ∨ upperOn last ≤ 1 then 0x8 else 0xF

/-- The comparators of R163. -/
def comparators (eT ePsi ht hf : Int) (c : CmuState) : CmuState :=
  let cT := if ht ≤ eT then 1 else if eT ≤ -ht then -1
    else if (c.cT = 1 ∧ eT ≤ 0) ∨ (c.cT = -1 ∧ 0 ≤ eT) then 0 else c.cT
  let up := if hf ≤ ePsi then true else if ePsi ≤ -hf then false else c.cPsiUp
  { c with cT := cT, cPsiUp := up }

/-- The sector of an angle (R164). -/
def sectorOf (sn : Nat) (angle : Word) : Nat :=
  ((angle.toNat * (2 * sn) + 2 ^ 32) % (2 ^ 32 * (2 * sn))) / 2 ^ 33

/-- The state index q of R164. -/
def stateIndex (c : CmuState) : Nat :=
  (if c.cPsiUp then 0 else 3) + (if c.cT = 1 then 0 else if c.cT = 0 then 1 else 2)

/-- The eight command words of a THIN axis, as numbers `w 0` to `w 7` (R162). CMU's answer is the code, or none where the
command is not applied. `entry` reads the axis's switching table. -/
def cmuDecide (entry : Nat → Nat) (sn : Nat) (ht hf : Int) (w : Nat → Word) (c : CmuState) : Option Nat × CmuState :=
  let mode := fld (w 0) 3 0
  let vc := fld (w 0) 11 8
  if mode = 0 then
    let c1 := comparators ((w 1).toInt - (w 2).toInt) ((w 3).toInt - (w 4).toInt) ht hf c
    let s := sectorOf sn (w 5)
    let q := stateIndex c1
    let e := entry (s * 6 + q)
    let code := if e = 1 then zeroVector c.code else e
    (some code, { c1 with code := code, sector := s, q := q })
  else if mode = 1 then
    if 1 ≤ vc ∧ vc ≤ 7 then (none, c) else (some vc, { c with code := vc })
  else if mode = 2 then (some 0, { c with code := 0 })
  else if mode = 3 then (some 8, { c with code := 8 })
  else (none, c)

/-- The default switching table of R164, row by row. -/
def defaultSwitch : List Nat :=
  [0xB, 1, 0xD, 0xA, 1, 0xC,  0xA, 1, 0x9, 0xE, 1, 0xD,  0xE, 1, 0xB, 0xC, 1, 0x9,
   0xC, 1, 0xA, 0xD, 1, 0xB,  0xD, 1, 0xE, 0x9, 1, 0xA,  0x9, 1, 0xC, 0xB, 1, 0xE]

/-- The code of active vector V_k, k from 1 to 6 taken round (R161). -/
def vecCode (k : Nat) : Nat := [0x9, 0xB, 0xA, 0xE, 0xC, 0xD].getD (k % 6) 0x9

/-! ### The sequencer -/

/-- The estimates of one computation for which the spec gives no bit-exact rule (R166): free values. `om` is that of a sensorless
axis. -/
structure Est where
  psiA : Word
  psiB : Word
  ang  : Word
  om   : Word
  r    : Word
  emf  : Word
deriving DecidableEq, Repr

/-- What the sequencer is told: the axis is in an enabled state, PGN requests motion and its direction, the torque demand, the
measured phase currents, the encoder's electrical speed where there is one, class C2, the acceleration of the profile below and
above its V_BRK, the time of a computation, and the scale of the torque estimate. -/
structure ThinIn where
  enabled : Bool
  motion  : Bool
  dirUp   : Bool
  demand  : Int
  cur     : List Word
  incr    : Bool               -- incremental feedback
  om      : Option Word
  c2      : Bool
  a1      : Nat
  a2      : Nat
  vbrk    : Nat
  dt      : Nat                -- 2^-16 ns
  tqNum   : Nat
  tqDen   : Nat
  cycle   : Nat
  per     : Nat
deriving DecidableEq, Repr

/-- What one computation sends: MODE, VECTOR code, torque reference. -/
structure ThinOut where
  mode  : Nat
  vec   : Nat
  tref  : Int
  th    : Thin
  held  : Bool := false        -- REVERSAL_HELD to set
  unheld : Bool := false       -- REVERSAL_HELD to clear
  runNow : Bool := false       -- the sequencer reaches RUN for a start

/-- |omega| below a parameter of R183. -/
def omBelow (y : Tab Word) (off : Nat) (om : Word) : Bool := decide (om.toInt.natAbs < (kq y off).toNat)

/-- omega has the commanded direction's sign. -/
def sameDir (up : Bool) (om : Word) : Bool := if up then decide (0 < om.toInt) else decide (om.toInt < 0)

/-- The flux reference of R167. -/
def fluxRef (y : Tab Word) (om : Word) : Int :=
  let a := om.toInt.natAbs
  let k := (kq y 0x14).toNat
  if a ≤ k then kq y 0x0C else (kq y 0x0C) * k / a

/-- Computations in a base cycle (R168). -/
def halves (c2 : Bool) : Nat := if c2 then 2 else 1

/-- The axis probes: a PM axis without feedback (R173). -/
def thinProbes (y : Tab Word) : Bool := thinSensorless y && !thinInduction y

/-- A phase current, less its offset in use (R178). The third is the sum of the others reversed: i_c need not be fitted (R160). -/
def phaseI (i : ThinIn) (t : Thin) (k : Nat) : Int :=
  let at_ := fun (j : Nat) => (i.cur.getD j 0).toInt - (t.ofs.getD j 0).toInt
  if k = 2 then -(at_ 0) - at_ 1 else at_ k

/-- The current along active vector V_(k+1): plus or minus a phase current, as the vectors lie on the phase axes (R161). -/
def vecCurrent (i : ThinIn) (t : Thin) (k : Nat) : Int :=
  match k % 6 with
  | 0 => phaseI i t 0
  | 1 => -(phaseI i t 2)
  | 2 => phaseI i t 1
  | 3 => -(phaseI i t 0)
  | 4 => phaseI i t 2
  | _ => -(phaseI i t 1)

/-- T of R166: 1.5 POLE_PAIRS (psi_a i_b - psi_b i_a), scaled to DMD_FS. 1239850262 / 2^31 stands for 1 / sqrt 3. -/
def estTorque (y : Tab Word) (i : ThinIn) (t : Thin) (e : Est) : Word :=
  let ia := phaseI i t 0
  let ib := divRound ((ia + 2 * phaseI i t 1) * 1239850262) (2 ^ 31)
  wInt (satS 32 (divRound (3 * (fld (kw y 0) 15 8 : Nat) * (e.psiA.toInt * ib - e.psiB.toInt * ia) * i.tqNum)
    (2 * 2 ^ 31 * max i.tqDen 1 : Nat)))

/-- The flux magnitude of its two components (R166). -/
def estFlux (e : Est) : Word :=
  w32 (min 0x7FFFFFFF (Nat.sqrt (e.psiA.toInt * e.psiA.toInt + e.psiB.toInt * e.psiB.toInt).toNat))

/-- A start fails now (R172), MAG apart. `per` is T for one computation in a base cycle, T / 2 for two. -/
def startFails (y : Tab Word) (per : Nat) (t : Thin) : Bool :=
  let tal := msCycles per (fld (kw y 0x3C) 15 0)
  match t.cs with
  | .align => !t.curOk && decide (t.left + tal / 4 ≤ tal / 2)
  | .ramp => decide (t.left = 0)
  | _ => false

/-- The flux is too low at the end of MAG (R172). -/
def magFails (t : Thin) : Bool := decide (t.psiMag.toInt * 10 < t.psiRef.toInt * 8)

/-- Loss action of R175: OFF unless |omega| exceeds W_KNEE. -/
def lossOff (y : Tab Word) (om : Word) : Bool := decide (om.toInt.natAbs ≤ (kq y 0x14).toNat)

/-- Computations to the start of the next re-catch attempt (R176). -/
def recatchWait (y : Tab Word) (per : Nat) : Nat := msCycles per (fld (kw y 0x40) 31 16) - 1

/-- The state that follows CHECK (R169, R170). -/
def checkNext (y : Tab Word) (i : ThinIn) (t : Thin) (om : Word) : Thin × Bool :=
  let tal := msCycles (i.per / halves i.c2) (fld (kw y 0x3C) 15 0)
  if omBelow y 0x20 om then
    if thinInduction y then ({ t with cs := .mag, left := tal }, false)
    else if thinSensorless y ∨ (i.incr ∧ !t.encKnown) then
      ({ t with cs := .align, left := tal / 2, step := 1, curOk := false,
                vec := (t.ang.toNat * 6 + 2 ^ 31) / 2 ^ 32 % 6 }, false)
    else ({ t with cs := .run }, false)
  else if sameDir i.dirUp om then ({ t with cs := .run, flying := true }, false)
  else if omBelow y 0x18 om then ({ t with cs := .run }, false)
  else ({ t with cs := .brake }, true)

/-- Enters RUN: the first job there starts from reset comparators (R163). -/
def enterRun (old : Thin) (t : Thin) : Thin :=
  if t.cs = .run ∧ old.cs ≠ .run then { t with newRun := true, resid := 0 } else t

/-- The open-loop angle and speed of a RAMP one computation on, at the acceleration of the profile (R172). -/
def rampOn (i : ThinIn) (t : Thin) : Thin :=
  let d : Int := secTick
  let a : Int := (if t.olVel.natAbs < i.vbrk then i.a1 else i.a2 : Nat) * (if i.dirUp then 1 else -1)
  { t with olAng := t.olAng + divRound (t.olVel * i.dt * (2 ^ 9 * d) + a * i.dt * i.dt * 2 ^ 16) (2 * d * d)
           olVel := t.olVel + divRound (a * i.dt * 2 ^ 8) d }
where
  /-- One second in units of 2^-16 ns. -/
  secTick : Nat := 1000000000 * 65536

/-- The vector nearest to the open-loop angle, as k - 1. -/
def Thin.olVec (t : Thin) : Nat := (((t.olAng * 6 + 2 ^ 47) / 2 ^ 48) % 6).toNat

/-- V_(k+1), or the zero vector where the current along it has reached I_ALIGN (R171). -/
def alignCode (y : Tab Word) (i : ThinIn) (t : Thin) (k : Nat) : Nat × Bool :=
  let reach := decide (kq y 0x34 ≤ vecCurrent i t k)
  (if reach then zeroVector t.cmu.code else vecCode k, reach)

/-- The sequencer of one computation: what it sends and where it goes (R169, R171 to R177). `t0` is the state before, `t` the
same with the estimates of this computation. A transition takes effect from the next job, save where R169 says at once. -/
def thinStep (y : Tab Word) (i : ThinIn) (e : Est) (t0 t : Thin) : ThinOut :=
  let hf := halves i.c2
  let per := i.per / hf
  let om := t.om
  let rOk := decide (e.r.toInt ≤ kq y 0x30)
  match t0.cs with
  | .idle =>
    let nx : Thin :=
      if i.motion = false then t
      else if thinSensorless y then { t with cs := .probe, left := if thinProbes y then 2 * hf else 0 }
      else { t with cs := .check }
    { mode := 2, vec := 0, tref := 0, th := nx }
  | .probe =>
    if t0.left = 0 then
      -- |e| below E_MIN counts as standing still (R173)
      let w := if e.emf.toInt < kq y 0x38 then (0 : Word) else om
      { mode := 2, vec := 0, tref := 0, th := { t with cs := .check, omProbe := w } }
    else { mode := 1, vec := 8, tref := 0, th := t }
  | .check =>
    let w := if thinProbes y then t0.omProbe else if thinSensorless y then (0 : Word) else om
    let (nx, hold) := checkNext y i t w
    { mode := 2, vec := 0, tref := 0, th := nx, held := hold, runNow := decide (nx.cs = .run) }
  | .brake =>
    if omBelow y 0x18 om then
      { mode := 0, vec := 0, tref := i.demand, th := { t with cs := .run }, unheld := true, runNow := true }
    else { mode := 0, vec := 0, tref := i.demand, th := t }
  | .align =>
    let c := alignCode y i t t0.vec
    let t1 : Thin := { t with curOk := t.curOk || c.2 }
    if startFails y per t1 then { mode := 2, vec := 0, tref := 0, th := t1 }
    else { mode := 1, vec := c.1, tref := 0, th := t1 }
  | .mag =>
    if t.left = 0 ∧ magFails t then { mode := 2, vec := 0, tref := 0, th := t }
    else { mode := 0, vec := 0, tref := 0, th := t }
  | .ramp =>
    let good := if e.r.toInt < kq y 0x30 ∧ !omBelow y 0x1C om then t0.good + 1 else 0
    let t1 : Thin := rampOn i { t with good := good }
    let v := (alignCode y i t1 t1.olVec).1
    if 16 * hf ≤ good then { mode := 1, vec := v, tref := 0, th := { t1 with cs := .run }, runNow := true }
    else if startFails y per t1 then { mode := 2, vec := 0, tref := 0, th := t1 }
    else { mode := 1, vec := v, tref := 0, th := t1 }
  | .wait => { mode := 2, vec := 0, tref := 0, th := t }
  | .run =>
    let resid := if rOk then 0 else t0.resid + 1
    if 3 * hf ≤ resid then
      let off := lossOff y t0.omGood
      { mode := if off then 2 else 3, vec := 0, tref := 0
        th := { t with cs := .lost, resid := resid, holdOff := off, rec_ := 0, left := recatchWait y per
                       lostAt := some i.cycle, keSum := 0, keN := 0 } }
    else
      let count := !thinInduction y && !omBelow y 0x24 om && decide (i.demand.natAbs ≤ 2 ^ 30) &&
        decide (om.toInt ≠ 0) && decide (t0.keN < fld (kw y 0x44) 31 16)
      let t1 : Thin := if count then
          { t with keSum := t0.keSum + (e.emf.toInt.natAbs * 2 ^ 30) / om.toInt.natAbs, keN := t0.keN + 1 } else t
      { mode := 0, vec := 0, tref := i.demand, th := { t1 with resid := resid } }
  | .lost => { mode := if t0.holdOff then 2 else 3, vec := 0, tref := 0, th := t }
  | .recatch =>
    if 16 * hf < t0.left then
      let w := if thinProbes y ∧ e.emf.toInt < kq y 0x38 then (0 : Word) else om
      { mode := if thinProbes y then 1 else if t0.holdOff then 2 else 3, vec := 8, tref := 0, th := { t with omProbe := w } }
    else if rOk = false then
      { mode := 0, vec := 0, tref := 0
        th := { t with cs := .lost, holdOff := lossOff y t0.omProbe, left := recatchWait y per, recRes := some false } }
    else if t.left = 0 then
      { mode := 0, vec := 0, tref := 0, th := { t with cs := .run, recRes := some true } }
    else { mode := 0, vec := 0, tref := 0, th := t }

/-- The run of zero vectors that the node has applied, one interval on: the code of the last command, or the zero vector of a late
one (R43, R178). -/
def Thin.zeroOn (t : Thin) : Nat :=
  if t.zLate ∨ t.cmu.code = 0 ∨ t.cmu.code = 8 ∨ t.cmu.code = 0xF then t.zRun + 1 else 0

/-- CSTATE in which an offset fit's samples are discarded (R178, R182). -/
def CState.noFit : CState → Bool
  | .probe => true
  | .align => true
  | .mag => true
  | .ramp => true
  | _ => false

/-- The live refit of the current-sensor offsets (R178): a sample contributes, or those gathered are discarded. -/
def offsetSample (y : Tab Word) (i : ThinIn) (old t : Thin) : Thin :=
  let z := old.zeroOn
  let fit := decide (msCycles (i.per / halves i.c2) (fld (kw y 0x48) 31 16) ≤ z) && decide (t.om.toInt.natAbs * 200 < 2 ^ 31) &&
    decide (old.cs = .idle ∨ old.cs = .run)
  if old.cs.noFit then { t with ofsSum := [0, 0, 0], ofsN := 0, zRun := z }
  else if fit ∧ old.ofsN < 64 then
    { t with ofsSum := (List.range 3).map (fun k => old.ofsSum.getD k 0 + (i.cur.getD k 0).toInt), ofsN := old.ofsN + 1, zRun := z }
  else { t with zRun := z }

/-- One computation of the THIN kernel: estimates, sequencer and running checks (R166 to R178). An axis outside the enabled states goes
to IDLE. -/
def thinKernel (y : Tab Word) (i : ThinIn) (e : Est) (old : Thin) : ThinOut :=
  let t0 : Thin := if old.newRun then { old with newRun := false, cmu := { old.cmu with cT := 0, cPsiUp := true } } else old
  let om := i.om.getD e.om
  let t : Thin := { t0 with
    psiA := e.psiA, psiB := e.psiB, psiMag := estFlux e, tq := estTorque y i t0 e, ang := e.ang, om := om, r := e.r
    psiRef := wInt (fluxRef y om), omGood := if e.r.toInt ≤ kq y 0x30 then om else t0.omGood, left := t0.left - 1 }
  let o := thinStep y i e t0 t
  let o1 : ThinOut := if i.enabled then o
    else { o with mode := 2, th := { t with cs := .idle, att := 0, rec_ := 0, left := 0, lostAt := none, recRes := none } }
  { o1 with th := offsetSample y i t0 (enterRun t0 o1.th) }

/-- The command words 0x20 to 0x27 of a THIN computation (R162). -/
def thinCommand (o : ThinOut) : List Word :=
  [w32 (o.mode + (if o.mode = 1 then o.vec * 256 else 0)), wInt o.tref, o.th.tq, o.th.psiRef, o.th.psiMag, o.th.ang, 0, 0]

/-- A start failure takes effect (R172): the retry wait, or IDLE after N_START failures. The flag says START_FAIL. `per` is the time of
one computation. -/
def startFailed (y : Tab Word) (per : Nat) (t : Thin) : Thin × Bool :=
  let n := t.att + 1
  if fld (kw y 0x40) 7 0 ≤ n then ({ t with cs := .idle, att := 0, left := 0 }, true)
  else ({ t with cs := .wait, att := n, left := msCycles per (fld (kw y 0x48) 15 0) }, false)

/-- An alignment step ends (R171): step 2, or the rotor angle is known. -/
def alignStepEnd (y : Tab Word) (per : Nat) (dirUp : Bool) (t : Thin) : Thin :=
  if t.step = 1 then
    { t with step := 2, curOk := false, left := msCycles per (fld (kw y 0x3C) 15 0) / 2
             vec := if dirUp then (t.vec + 1) % 6 else (t.vec + 5) % 6 }
  else
    let a := w32 (t.vec * 2 ^ 32 / 6)
    if thinSensorless y then
      { t with cs := .ramp, ang := a, good := 0, olAng := divRound ((t.vec : Int) * 2 ^ 48) 6, olVel := 0
               left := msCycles per (fld (kw y 0x3C) 31 16) }
    else enterRun t { t with cs := .run, ang := a, encOfs := a, encKnown := true }

/-- The mean of a filled Ke window (R177): the mean, and whether it is too low or too high. -/
def keVerdict (y : Tab Word) (t : Thin) : Nat × Bool × Bool :=
  let m := t.keSum / max t.keN 1
  let nom := (kw y 0x10).toNat
  let tol := fld (kw y 0x44) 7 0
  (m, decide (m * 100 < nom * (100 - tol)), decide (nom * (100 + tol) < m * 100))

/-- The outcome of 64 offset samples (R178): the means, and whether they are applied. -/
def offsetVerdict (t : Thin) : List Int × Bool :=
  let ms := t.ofsSum.map (fun s => divRound s 64)
  let lim : Int := 2 ^ 31
  (ms, (List.range 3).all (fun k =>
    let m := ms.getD k 0
    decide (((m - (t.ofs.getD k 0).toInt).natAbs : Int) * 200 ≤ lim) && decide ((m.natAbs : Int) * 20 ≤ lim)))

/-! ### Steppers -/

/-- The microstep index of R179: `pos` is a raw Q32.32 setpoint position. -/
def stepTheta (kEl theta0 : Nat) (pos : Int) : Nat :=
  (((pos * kEl + 2 ^ 47) / 2 ^ 48 + theta0) % 1024).toNat

/-- The two table values of R179, signed, for phases A and B. `tab` reads entry i, i below 256. -/
def stepPhases (tab : Nat → Int) (theta : Nat) : Int × Int :=
  let q := theta / 256
  let i := theta % 256
  let t := fun k => if k = 256 then (0x7FFFFFFF : Int) else tab k
  match q with
  | 0 => (t i, t (256 - i))
  | 1 => (t (256 - i), -(t i))
  | 2 => (-(t i), -(t (256 - i)))
  | _ => (-(t (256 - i)), t i)

/-- The product of a table value with the amplitude, Q1.31. -/
def ampMul (a x : Int) : Int := (a * x + 2 ^ 30) / 2 ^ 31

/-- One job of a stepper kernel (R179, R180): the state and the command words. `d` is the base cycles from job to job (R34). -/
def stepperKernel (d : Nat) (y : Tab Word) (tab : Nat → Int) (pos vel : Int) (s : Stepper) : Stepper × List Word :=
  let theta := stepTheta (kw y 4).toNat (fld (kw y 8) 9 0) pos
  let moving := decide (vel ≠ 0)
  let amp := if moving then kw y 0x0C else if s.hold then kw y 0x10 else kw y 0x0C
  let (a, b) := stepPhases tab theta
  ({ theta := theta, zeroV := if moving then 0 else min 0xFFFFFFFF (s.zeroV + d), amp := amp, hold := s.hold && !moving },
    [wInt (ampMul amp.toInt a), wInt (ampMul amp.toInt b), w32 theta, 0])

end Sys2Proof.Machine
end

