-- ==== Sys2Proof/Machine/IoState.lean ====
section
/-! DEFINITION. Machine/IoState.lean: the state of the encoder interface EIU (R69 to R93) and of the local fast inputs
and outputs DIO (R94 to R109). Positions are raw Q32.32 counts, speeds raw Q40.24, times units of 2^-16 ns of
fabric time. Configuration lies in the register file; what the registers do not carry is here. -/

namespace Sys2Proof.Machine

/-- The speed estimator of R88. `edges` holds the times of the run's last edges, newest first. -/
structure SpeedEst where
  edges      : List Nat := []
  run        : Nat := 0
  dir        : Int := 1
  refPos     : Int := 0             -- position of the last edge
  since      : Nat := 0             -- edges since the previous S
  sPos       : Int := 0             -- position and time of the previous S with a valid sample
  sTime      : Option Nat := none
  v          : Int := 0
  bound      : Bool := false
  standstill : Bool := true
deriving DecidableEq, Repr

/-- Settings of the estimator (EIU_SPEED_CFG). -/
structure SpeedCfg where
  nE    : Nat := 4
  estep : Nat := 0
  eHi   : Nat := 16
  tSs   : Nat := 10000
deriving DecidableEq, Repr

/-- A probe (R85); its results lie in the register file. -/
structure Probe where
  armed  : Bool := false
  full   : Bool := false
  extrap : Bool := false
  lau    : Bool := false            -- armed by LAU for a capture window
  armAt  : Nat := 0                 -- time from which it is armed, where LAU arms it for a window still to open
  pend   : Option Nat := none       -- time of an edge that waits for the count edges or the conversion that bound it (R86)
  late   : Option Nat := none       -- time of an edge that met FULL in the present clock: an ACK in it still saves it (R85)
  ackClk : Option Nat := none       -- clock in which ACK cleared FULL (R85)
deriving DecidableEq, Repr

/-- A refit of the sin/cos correction (R78). -/
structure ScFit where
  osSin : Int
  osCos : Int
  gain  : Int
  phi   : Int
deriving DecidableEq, Repr

/-- A count edge of QUAD, kept for probes (R86): its time, the position after it, its direction, and the last edge interval
within its run. -/
structure CountEdge where
  t   : Nat
  pos : Int
  dir : Int
  gap : Nat
deriving DecidableEq, Repr

/-- An encoder channel. -/
structure EncCh where
  a        : Bool := false
  b        : Bool := false
  z        : Bool := false
  count    : Int := 0
  pos      : Int := 0
  lnA      : Nat := 0               -- sample clock of the last accepted change of A, of B and of Z (R71)
  lnB      : Nat := 0
  lnZ      : Nat := 0
  edgeClk  : Nat := 0               -- sample clock of the last count (R72)
  edges    : List CountEdge := []   -- QUAD: the count edges of the last probe span, newest first (R86)
  counted  : Bool := false          -- some count has been taken
  gate     : Bool := false          -- the last count entered the index gate and was not overrate
  posValid : Bool := false
  everSet  : Bool := false
  idxSeen  : Bool := false
  idxLast  : Int := 0
  badRun   : Nat := 0
  signal   : Bool := false          -- the run of bad radii has been reported
  convK    : Nat := 0               -- conversions since S
  convPos  : Int := 0               -- counter and angle merged at the last conversion, before any shift of reference
  scSeen   : Bool := false          -- a conversion has placed the counter in the quadrant of the comparators
  convs    : List (Nat × Int) := [] -- times and positions of the conversions of the last probe span, newest first (R86)
  scS      : Int := 0               -- the pair of the last conversion
  scC      : Int := 0
  fitFrom  : Option Int := none     -- position at which the present fit began
  fitDir   : Int := 0
  fit      : Option ScFit := none   -- a fit accepted, applied at the next boundary
  reading  : Bool := false
  readFor  : Option Nat := none     -- the S of the last serial read started (R79)
  readAt   : Nat := 0               -- start of its clock
  readOk   : Bool := false          -- it has ended valid
  serEnd   : Nat := 0               -- end of the last clock burst (R80)
  serPos   : Int := 0               -- the unwrapped value of the last valid read, as a position (R82)
  again    : Bool := false          -- REREAD was set while the present read was in progress (R90)
  raw      : Nat := 0               -- value of the last valid serial read
  rawSeen  : Bool := false
  abs      : Bool := false          -- the read in progress is an absolute read of a combined mode
  ref_     : Bool := false          -- a combined mode has taken its first absolute read
  biss     : Bool := false          -- a register transaction runs
  bissFrames : Nat := 0
  est      : SpeedEst := {}
  sPos     : Int := 0               -- position at the last S
  sValid   : Bool := false          -- a sample of the last S is held
  posted   : List Nat := []         -- halves of this cycle already posted
  estPre   : SpeedEst := {}         -- QUAD: the estimator before the sample of S, for edges still in the filter at S
  sHalf    : Bool := false          -- QUAD: the sample of the second half has been taken
  probes   : List Probe := [{}, {}]
deriving DecidableEq, Repr

/-- A fast input (R95 to R101). -/
structure FastIn where
  filt     : Bool := false
  since    : Nat := 0               -- time of the last filtered transition: first sample of its level
  acc      : Nat := 0               -- time at which it was accepted
  trans    : List Nat := []         -- accepted transitions in the window, newest first
  withheld : Bool := false          -- OVERRATE withholds edges
  forced   : Bool := false          -- CHATTER forces the level active
  masked   : Bool := false
  maskedAt : Nat := 0
  actSince : Nat := 0               -- time from which the effective level is active
  stuck    : Bool := false
  latched  : Bool := false
  trip     : Int := 0
  effS     : Bool := false          -- the effective level at the last S
  tripDue  : Bool := false          -- latched at the last S
  tripLog  : Bool := false          -- P_t and LIMIT_TRIP wait for the feedback of that S
  clearDue : Bool := false          -- the conditions of R101 held at the last S
  offAt    : Nat := 0               -- time at which the effective level last became inactive
  tripT    : Nat := 0               -- edge time of the level that tripped the latch
deriving DecidableEq, Repr

/-- A scheduled edge: its time and level (R103). -/
structure OutEdge where
  t     : Nat
  level : Bool
  axis  : Option Nat := none
deriving DecidableEq, Repr

/-- A fast output (R102 to R105). `level` is the level its mode gives, `last` the time of the last applied edge. -/
structure FastOut where
  level : Bool := false
  drv   : Bool := false             -- the last level driven before FAULT_LEVEL took over
  queue : List OutEdge := []
  last  : Option Nat := none
  sigAt : Bool := false             -- the SIGNAL level taken at DL_END
  undo  : Option (Nat × Bool × Bool) := none  -- clock of the last applied edge, with the level and the driven level before it (R106)
deriving DecidableEq, Repr

/-- DIO. -/
structure Dio where
  ins  : Tab FastIn := []
  outs : Tab FastOut := []
deriving DecidableEq, Repr

end Sys2Proof.Machine
end

