-- ==== Sys2Proof/Machine/IoCore.lean ====
section
/-! DEFINITION. Machine/IoCore.lean: quadrature counting, the sin/cos angle, serial frame checks, the speed estimator
and the queue of a fast output (R72 to R89, R103, R104). -/

namespace Sys2Proof.Machine

/-- A nanosecond, a SYS clock and a microsecond in units of 2^-16 ns. -/
abbrev nsU : Nat := 65536
/-- One SYS clock, 1.25 ns. -/
abbrev clkU : Nat := 81920
/-- One microsecond. -/
abbrev usU : Nat := 65536000
/-- One millisecond. -/
abbrev msU : Nat := 65536000000

/-! ### Quadrature (R72) -/

/-- Place of (A, B) in the counting sequence 00, 01, 11, 10. -/
def quadState (a b : Bool) : Nat :=
  match a, b with
  | false, false => 0
  | false, true => 1
  | true, true => 2
  | true, false => 3

/-- Counts by which a change of (A, B) moves the count; none where both lines change. -/
def quadStep (a b a' b' : Bool) : Option Int :=
  match (quadState a' b' + 4 - quadState a b) % 4 with
  | 0 => some 0
  | 1 => some 1
  | 3 => some (-1)
  | _ => none

/-- The index check of R74. -/
def indexOk (lines tol : Nat) (d : Int) : Bool :=
  decide (d.natAbs ≤ tol) || decide (((d.natAbs : Int) - 4 * lines).natAbs ≤ tol)

/-! ### Sin/cos (R76) -/

/-- atan(2^-i) in units of 2^-48 turn. -/
def atanTab : List Int :=
  [35184372088832, 20770547670515, 10974586953444, 5570871696862, 2796246208089, 1399486241028, 699913886760,
   349978300884, 174991820497, 87496244017, 43748163730, 21874087080, 10937044192, 5468522177,
   2734261099, 1367130551, 683565276, 341782638, 170891319, 85445659]

/-- One vectoring step. -/
def cordicStep (acc : Int × Int × Int) (i : Nat × Int) : Int × Int × Int :=
  let (x, y, z) := acc
  let d := (2 : Int) ^ i.1
  if 0 ≤ y then (x + y / d, y - x / d, z + i.2) else (x - y / d, y + x / d, z - i.2)

/-- The angle of (s, c) as a line fraction in units of 2^-14 line, to the nearest. -/
def atanLine (s c : Int) : Nat :=
  let k : Int := 2 ^ 24
  let (x0, y0, z0) : Int × Int × Int :=
    if c < 0 then (-c * k, -s * k, (2 : Int) ^ 47) else (c * k, s * k, 0)
  let (_, _, z) := ((List.range 20).zip atanTab).foldl cordicStep (x0, y0, z0)
  (((z + 2 ^ 33) / 2 ^ 34) % 2 ^ 14).toNat

/-- The corrected pair of R76 in units of 2^-31: s1 and c2. -/
def scCorrect (s c osSin osCos gain sinPhi : Int) : Int × Int :=
  let s1 := s - osSin
  let c1 := (c - osCos) * gain / 2 ^ 30
  let cosPhi : Int := (Nat.sqrt ((2 : Nat) ^ 62 - sinPhi.natAbs * sinPhi.natAbs) : Nat)
  let n := c1 - s1 * sinPhi / 2 ^ 31
  (s1, if cosPhi = 0 then 0 else n * 2 ^ 31 / cosPhi)

/-- The radius of R77 is out of range: below 0.4 or above 1.5. -/
def scBad (s1 c2 : Int) : Bool :=
  let q := (s1 * s1 + c2 * c2) * 100
  let one : Int := 2 ^ 62
  decide (q < 16 * one) || decide (225 * one < q)

/-- The radius lies between 0.6 and 1.4 (R78). -/
def scFitRadius (s1 c2 : Int) : Bool :=
  let q := (s1 * s1 + c2 * c2) * 100
  let one : Int := 2 ^ 62
  decide (36 * one ≤ q) && decide (q ≤ 196 * one)

/-- The signed distance in quadrants from the counter's quadrant to that of the angle: 0, 1, -1 or 2. -/
def quadDiff (count : Int) (theta : Nat) : Int :=
  let d := ((theta / 2 ^ 12 : Nat) - count) % 4
  if d = 3 then -1 else d

/-- A fit is applied (R78): within 0.02 in either offset, 2 % in gain and 1 degree in phase of the present one, and within
the absolute bounds. sin 1 degree and sin 10 degrees are taken in units of 2^-31; the phases, given by their sines, are compared by the
sine of their difference. -/
def fitOk (cur new : ScFit) : Bool :=
  let l : Int := 2 ^ 31
  let cosOf := fun (p : Int) => ((Nat.sqrt ((2 : Nat) ^ 62 - p.natAbs * p.natAbs) : Nat) : Int)
  let dSin := new.phi * cosOf cur.phi - cur.phi * cosOf new.phi
  let dCos := cosOf new.phi * cosOf cur.phi + new.phi * cur.phi
  decide (((new.osSin - cur.osSin).natAbs : Int) * 50 ≤ l) && decide (((new.osCos - cur.osCos).natAbs : Int) * 50 ≤ l) &&
  decide (((new.gain - cur.gain).natAbs : Int) * 50 ≤ cur.gain) && decide (dSin.natAbs ≤ 37478757 * 2 ^ 31) && decide (0 < dCos) &&
  decide ((new.osSin.natAbs : Int) * 5 ≤ l) && decide ((new.osCos.natAbs : Int) * 5 ≤ l) &&
  decide (4 * 2 ^ 30 ≤ 5 * new.gain) && decide (4 * new.gain ≤ 5 * 2 ^ 30) && decide (new.phi.natAbs ≤ 372906622)

/-! ### Serial frames (R80 to R82) -/

/-- Parity of the bits of a number. -/
def oddParity : Nat → Nat → Bool
  | 0, _ => false
  | k + 1, n => (n % 2 = 1) != oddParity k (n / 2)

/-- Gray code to binary, `k` bits: each bit is the parity of the bits at and above it. -/
def grayDecode (k n : Nat) : Nat :=
  (List.range k).foldl (fun acc i => acc ^^^ (n / 2 ^ i)) 0

/-- CRC of the low `k` bits of `n`, most significant first, polynomial `poly` of degree `w` (R81). -/
def serialCrc (w poly : Nat) : Nat → Nat → Nat
  | 0, _ => 0
  | k + 1, n =>
    let c := serialCrc w poly k (n / 2)
    let top := ((c / 2 ^ (w - 1)) % 2 + n) % 2
    let sh := (c * 2) % 2 ^ w
    if top = 1 then sh ^^^ (poly % 2 ^ w) else sh

/-- How a serial read ends (R82). -/
inductive SerVerdict where
  | good (warn : Bool)
  | bad (kind : Nat)
deriving DecidableEq, Repr

/-! ### The speed estimator (R88, R89) -/

/-- Counts over a time as VEL. `num` is in units of 2^-32 count. -/
def velOf (num : Int) (dt : Nat) : Int :=
  if dt = 0 then 0 else divRound (num * (1000000000 * 256)) dt

/-- Takes one edge in a direction at a time. STANDSTILL follows at the next S (R89). -/
def SpeedEst.edge (e : SpeedEst) (d : Int) (t : Nat) : SpeedEst :=
  if e.run = 0 ∨ e.dir ≠ d then { e with edges := [t], run := 1, dir := d, since := e.since + 1 }
  else { e with edges := (t :: e.edges).take 16, run := e.run + 1, since := e.since + 1 }

/-- Takes the edges between the last edge's position and a new position, all at one time (sin/cos and serial). All edges get
that time, and v_edge is 0 where the first and last edge share one (DESIGN CHOICE, log entry 30). -/
def SpeedEst.moveTo (c : SpeedCfg) (p : Int) (t : Nat) (e : SpeedEst) : SpeedEst :=
  let step : Int := 2 ^ (32 - c.estep)
  let d := p - e.refPos
  let k := d.natAbs / step.natAbs
  if k = 0 then e
  else
    let sg : Int := if d < 0 then -1 else 1
    let e1 := (List.replicate (min k 16) ()).foldl (fun (x : SpeedEst) _ => x.edge sg t) e
    { e1 with refPos := e.refPos + sg * k * step, run := e1.run + (k - min k 16), since := e1.since + (k - min k 16) }

/-- The last edge interval within the run (R88). -/
def SpeedEst.gap (c : SpeedCfg) (e : SpeedEst) : Nat :=
  if e.run ≤ 1 then c.tSs * usU else e.edges.headD 0 - e.edges.getD 1 (e.edges.headD 0)

/-- The position references of the estimator move (R78, R210). -/
def SpeedEst.shift (d : Int) (e : SpeedEst) : SpeedEst := { e with refPos := e.refPos + d, sPos := e.sPos + d }

/-- The reported speed at S = `t` (R89); `p` the position at S, none where no valid sample was taken at it: the speed is then
the one of the edges, of which that S has none. With ESTEP the counts of R89 are edge steps, and v_count is v_edge where no
earlier S had a valid sample (DEDUCED, log entry 31). -/
def SpeedEst.atS (c : SpeedCfg) (t : Nat) (p : Option Int) (e : SpeedEst) : SpeedEst :=
  let one : Int := 2 ^ (32 - c.estep)
  let tss := c.tSs * usU
  let last := e.edges.headD 0
  let tau := t - last
  let keep := fun (x : SpeedEst) => { x with since := 0, sPos := p.getD x.sPos, sTime := if p.isSome then some t else x.sTime }
  if e.run = 0 ∨ tss ≤ tau then
    keep { e with v := 0, bound := false, standstill := true, run := 0, edges := [] }
  else
    let m := min c.nE e.run
    let vEdge : Int := e.dir * velOf ((m - 1 : Nat) * one) (last - (e.edges.getD (m - 1) last))
    let vCount : Int := match e.sTime, p with
      | some t0, some q => velOf (q - e.sPos) (t - t0)
      | _, _ => vEdge
    let v0 : Int :=
      if e.run = 1 then e.dir * velOf one tss
      else if e.run ≤ 3 then vEdge
      else
        let d : Int := (c.eHi : Int) - 2
        let w := clampI 0 d ((c.eHi : Int) - e.since)
        if d ≤ 0 then vEdge else divRound (w * vEdge + (d - w) * vCount) d
    let lim := velOf one tau
    let acts := decide (e.gap c < tau) && decide (lim < v0.natAbs)
    keep { e with v := if acts then (if v0 < 0 then -lim else lim) else v0, bound := acts || decide (e.run = 1), standstill := false }

/-- The edges formed from a node record (R87): whole-count boundaries crossed from the previous position, the last one
`age` before S. -/
def SpeedEst.node (p : Int) (s age sPrev : Nat) (e : SpeedEst) : SpeedEst :=
  let one : Int := 2 ^ 32
  let k := (p / one - e.sPos / one).natAbs
  if p = e.sPos ∨ k = 0 then e
  else
    let sg : Int := if p < e.sPos then -1 else 1
    let tPrev := if e.run = 0 then sPrev else e.edges.headD sPrev
    let tl := s - age
    let n := min k 16
    let e1 := (List.range n).foldl (fun (x : SpeedEst) i =>
      let j := k - n + i + 1
      x.edge sg (tPrev + (tl - tPrev) * j / k)) e
    { e1 with run := e1.run + (k - n), since := e1.since + (k - n), refPos := p }

/-! ### What probes look back on (R86) -/

/-- How far back a probe can look: the longest filter of a fast input, 1,023 µs (R95), and the one of the encoder lines (R71). -/
def probeSpan : Nat := 1024 * usU

/-- The entries of a history, newest first, back to a time, and the one before it. -/
def keepSince {α : Type} (time : α → Nat) (t0 : Nat) : List α → List α
  | [] => []
  | x :: l => if time x < t0 then [x] else x :: keepSince time t0 l

/-- The position of a channel moves without motion: what has been measured moves with it (R78, R210). -/
def EncCh.shift (d : Int) (c : EncCh) : EncCh :=
  { c with
    pos := c.pos + d, sPos := c.sPos + d, edges := c.edges.map (fun (e : CountEdge) => { e with pos := e.pos + d })
    convs := c.convs.map (fun q => (q.1, q.2 + d)), est := c.est.shift d, estPre := c.estPre.shift d }

/-- The position of a QUAD channel at a time (R86). -/
def EncCh.quadAt (c : EncCh) (t : Nat) : Int :=
  match c.edges.find? (fun e => decide (e.t ≤ t)) with
  | some e =>
    let frac : Int := if c.est.standstill ∨ e.gap = 0 then 0 else min (((t - e.t : Nat) : Int) * 2 ^ 32 / e.gap) (2 ^ 32 - 1)
    e.pos + e.dir * frac
  | none => match c.edges.getLast? with
    | some e => e.pos - e.dir * 2 ^ 32
    | none => c.pos

/-- Linear in time between two positions. -/
def lerpPos (p0 : Int) (t0 : Nat) (p1 : Int) (t1 t : Nat) : Int :=
  if t1 ≤ t0 then p1 else p0 + divRound ((p1 - p0) * ((t : Int) - t0)) ((t1 : Int) - t0)

/-- Linear in time between the two positions of a history, newest first, that bracket a time; none where no newer one is held. -/
def lerpIn (t : Nat) : List (Nat × Int) → Option Int
  | [] => none
  | [q] => if t ≤ q.1 then some q.2 else none
  | q :: r :: l => if q.1 < t then none else if r.1 ≤ t then some (lerpPos r.2 r.1 q.2 q.1 t) else lerpIn t (r :: l)

/-! ### The queue of a fast output (R103, R104) -/

/-- An edge applied in the clock of a change to FAULT is discarded after all (R106). -/
def FastOut.unapply (clk : Nat) (x : FastOut) : FastOut :=
  match x.undo with
  | some (c, l, d) => if c = clk then { x with level := l, drv := d, undo := none } else x
  | none => x

/-- A time rounded to 0.25 ns. To the nearest, ties later (DESIGN CHOICE, log entry 32). -/
def quarterNs (t : Nat) : Nat := (t + 8192) / 16384 * 16384

/-- Inserts after edges of equal or earlier time. -/
def insertEdge (e : OutEdge) : List OutEdge → List OutEdge
  | [] => [e]
  | q :: qs => if q.t ≤ e.t then q :: insertEdge e qs else e :: q :: qs

/-- Moves edges that lie less than 10 ns after their previous edge; answers the queue and how many were moved. -/
def spaceEdges : Option Nat → List OutEdge → List OutEdge × Nat
  | _, [] => ([], 0)
  | prev, q :: qs =>
    let t := match prev with
      | some p => max q.t (p + 10 * nsU)
      | none => q.t
    let (rest, n) := spaceEdges (some t) qs
    ({ q with t := t } :: rest, n + b2n (decide (t ≠ q.t)))

/-- What became of a new edge (R104): refused as the queue is full, or queued, with how many edges were moved and by how
many nanoseconds it was late. -/
structure EdgeResult where
  out   : FastOut
  full  : Bool := false
  moved : Nat := 0
  late  : Option Nat := none
deriving DecidableEq, Repr

/-- An edge arrives at an output at time `now`. -/
def queueEdge (now : Nat) (e : OutEdge) (o : FastOut) : EdgeResult :=
  if 8 ≤ o.queue.length then { out := o, full := true }
  else
    let t := quarterNs e.t
    let late := decide (t < now + 40 * nsU)
    let t1 := if late then now + 40 * nsU else t
    let (q, n) := spaceEdges o.last (insertEdge { e with t := t1 } o.queue)
    { out := { o with queue := q }, moved := n
      late := if late then some (max 1 ((now + 40 * nsU - t + nsU - 1) / nsU)) else none }

/-! ### Serial frames (R80, R81, R84) -/

/-- Clock period of a serial channel by its EIU_SER_CFG, in 2^-16 ns. -/
def serPeriod (cfg : Word) : Nat := fld cfg 31 24 * 50 * nsU

/-- When a channel's sample is posted after its S, by its mode and its registers EIU_SER_CFG, EIU_SER_TIMING and EIU_SER_CRC, in
2^-16 ns (R84); `tld` is the largest line delay declared. -/
def postTime (mode : Nat) (cfg tim crc : Word) (tld : Nat) : Nat :=
  let bits := fld cfg 23 18
  match mode with
  | 1 => 40 * nsU
  | 3 => fld tim 10 0 * clkU + bits * serPeriod cfg + 100 * nsU
  | 4 => tld * clkU + (fld cfg 11 8 + 2 + bits + fld crc 20 16) * serPeriod cfg + 100 * nsU
  | _ => 600 * nsU

end Sys2Proof.Machine
end

