-- ==== Sys2Proof/Machine/LoopCore.lean ====
section
/-! DEFINITION. Machine/LoopCore.lean: compensators, competing loops, selection, tracking and the demand chain of a loop
set (R110 to R128). Q1.31 and Q1.63 values are held as their raw integers. -/

namespace Sys2Proof.Machine

/-- The states of one compensator (R111, R127). -/
structure Comp where
  x1 : Int := 0
  x2 : Int := 0
  x3 : Int := 0
  y1 : Int := 0
  y2 : Int := 0
  y3 : Int := 0
  xin  : Int := 0
  yout : Int := 0
deriving DecidableEq, Repr

/-- The loop states of an axis (R127). `comps` holds C0 to C9. -/
structure LoopState where
  comps   : List Comp := List.replicate 10 {}
  dc      : Int := 0
  final   : Int := 0
  dmdSat  : Bool := false
  slewAct : Bool := false
  crossed : Bool := false
  rescSkip : Bool := false
  feCount : Nat := 0
  cands   : List Int := [0, 0, 0, 0, 0]
  winner  : Nat := 0xF
deriving DecidableEq, Repr

/-- Where a competing loop takes a measurement or a reference (R113). -/
inductive LoopSrc where
  | aux (k : Nat)
  | sig (k : Nat)
  | const
deriving DecidableEq, Repr

/-- One competing loop's fixed settings (R116). -/
structure LoopDef where
  upper : Bool := true
  track : Bool := true
  meas  : LoopSrc := .aux 0
  ref   : LoopSrc := .const
deriving DecidableEq, Repr

/-- The control-law part of an axis description (R113, R114). -/
structure LoopDesc where
  peExp   : Int := 0
  vExp    : Nat := 0
  aExp    : Nat := 0
  dmdKind : Nat := 3
  loops   : List LoopDef := [{}, {}, {}, {}]
  sigMap  : List (Option Nat) := []   -- global signal addresses (R323)
deriving DecidableEq, Repr

/-- A coefficient bank: words by their bank offset divided by 4 (R128). -/
abbrev Bank128 := Tab Word

/-- A bank word. -/
def bankW (b : Bank128) (off : Nat) : Word := Tab.get 0 b (off / 4)

/-- A compensator's settings in a bank (R110, R128). -/
structure CompCfg where
  en      : Bool
  rescale : Bool
  round   : Nat
  order   : Nat
  sh      : Nat
  num     : List Int
  den     : List Int
deriving DecidableEq, Repr

/-- Reads compensator `k` of a bank. -/
def compCfg (b : Bank128) (k : Nat) : CompCfg :=
  let o := 0x20 * k
  let c := bankW b o
  let co := fun i => (bankW b (o + 4 + 4 * i)).toInt
  { en := bit c 31, rescale := bit c 30, round := fld c 29 28, order := fld c 25 24, sh := fld c 4 0
    num := [co 0, co 1, co 2, co 3], den := [co 4, co 5, co 6] }

/-- Saturation to Q1.31 and Q1.63. -/
def sat31 (x : Int) : Int := satS 32 x
/-- Saturation to Q1.63. -/
def sat63 (x : Int) : Int := satS 64 x

/-- Rounding of a Q1.63 value to a Q1.31 word by a ROUND field (R111). -/
def roundQ31 (mode : Nat) (y : Int) : Int :=
  let fl := y / 2 ^ 32
  let r := y % 2 ^ 32
  sat31 (if mode = 1 then (if 2 ^ 31 ≤ r then fl + 1 else fl)
    else if mode = 2 then (if 2 ^ 31 < r ∨ (r = 2 ^ 31 ∧ fl % 2 = 1) then fl + 1 else fl)
    else fl)

/-- The product of a coefficient with a 64-bit state word: the lowest 32 bits are dropped toward minus infinity (R111,
R136). -/
def stProd (c s : Int) : Int := c * s / 2 ^ 32

/-- The Q1.63 output of a compensator on a Q1.31 input (R110, R111). -/
def compOut (c : CompCfg) (st : Comp) (x : Int) : Int :=
  let n := fun i => c.num.getD i 0
  let d := fun i => c.den.getD (i - 1) 0
  let t := fun (i : Nat) (v : Int) => if i ≤ c.order then v else 0
  let acc := n 0 * x + t 1 (stProd (n 1) st.x1) + t 2 (stProd (n 2) st.x2) + t 3 (stProd (n 3) st.x3)
    - t 1 (stProd (d 1) st.y1) - t 2 (stProd (d 2) st.y2) - t 3 (stProd (d 3) st.y3)
  sat63 (acc * 2 ^ (c.sh + 2))

/-- One computation of a compensator: its Q1.31 output and its states. A disabled one passes its input (R112). -/
def compStep (c : CompCfg) (st : Comp) (x : Int) : Int × Comp :=
  if c.en = false then (x, { st with xin := x, yout := x })
  else
    let y := compOut c st x
    let o := roundQ31 c.round y
    (o, { x1 := x * 2 ^ 32, x2 := st.x1, x3 := st.x2, y1 := y, y2 := st.y1, y3 := st.y2, xin := x, yout := o })

/-- The states after a rescaled swap (R124); none where the denominator sum is too small. -/
def rescaleComp (old new : CompCfg) (st : Comp) (x : Int) : Option Comp :=
  let s := ((List.range 3).foldl (fun a i => if i + 1 ≤ new.order then a + new.den.getD i 0 else a) 0) * 2 ^ new.sh
  if s.natAbs * 16 < 2 ^ 30 then none
  else
    let dlt := divRound ((compOut new st x - compOut old st x) * 2 ^ 30) s
    some { st with y1 := sat63 (st.y1 + dlt), y2 := sat63 (st.y2 + dlt), y3 := sat63 (st.y3 + dlt) }

/-- What a job's loop set reads (R37, R113, R115). -/
structure LoopIn where
  spP   : Int
  spV   : Int
  spA   : Int
  fbP   : Int
  fbV   : Int
  aux   : List Word
  sigs  : List Word
deriving DecidableEq, Repr

/-- A conversion into Q1.31: value times 2^31 over 2^k, rounded half-up and saturated (R113). -/
def toQ31 (v : Int) (k : Int) : Int :=
  let n := 2 ^ 31 * v
  sat31 (if 0 ≤ k then (2 * n + 2 ^ k.toNat) / (2 * 2 ^ k.toNat) else n * 2 ^ (-k).toNat)

/-- A Q2.30 gain on a Q1.31 value as Q1.31. DEDUCED (log entry 45): truncated toward minus infinity, as an engine stores it with RND at its
value of job entry (R135, R152); the spec states no rounding for it. -/
def gainQ31 (g x : Int) : Int := g * x / 2 ^ 30

/-- The position error of R9 between setpoint and feedback. -/
def posError (a b : Int) : Int := sgn 64 ((a - b) % 2 ^ 64).toNat

/-- A measurement or reference of a competing loop. -/
def loopVal (b : Bank128) (i : LoopIn) (k : Nat) : LoopSrc → Int
  | .aux j => (i.aux.getD j 0).toInt
  | .sig j => (i.sigs.getD j 0).toInt
  | .const => (bankW b (0x158 + 4 * k)).toInt

/-- What one job's loop set answers: the new states, and what it logs. -/
structure LoopOut where
  st       : LoopState
  skips    : List Nat := []          -- compensators whose rescale was skipped (R124)
  crossNow : Option (Nat × Nat) := none  -- first cycle of a crossed run: winning LOWER loop, smallest UPPER loop
  satNow   : Option Nat := none      -- onset of clamping: side
deriving DecidableEq, Repr

/-- Computes compensator `k` in the job: rescale at a swap, then the step (R115 step 1, R124). -/
def runComp (bank : Bank128) (old : Option Bank128) (k : Nat) (x : Int) (comps : List Comp) :
    Int × List Comp × Bool :=
  let c := compCfg bank k
  let st := comps.getD k {}
  let (st1, skip) :=
    match old with
    | none => (st, false)
    | some ob =>
      let oc := compCfg ob k
      if c.en && oc.en && c.rescale then
        match rescaleComp oc c st x with
        | some s => (s, false)
        | none => (st, true)
      else (st, false)
  let (y, st2) := compStep c st1 x
  (y, comps.set k st2, skip)

/-- Clamps a compensator's last Q1.63 output between two Q1.31 values (R118). -/
def clampY (lo hi : Int) (c : Comp) : Comp := { c with y1 := clampI (lo * 2 ^ 32) (hi * 2 ^ 32) c.y1 }

/-- Sets a compensator's output histories (R118): y1, and y2 and y3 too where `all`. -/
def trackTo (all : Bool) (v : Int) (c : Comp) : Comp :=
  if all then { c with y1 := v * 2 ^ 32, y2 := v * 2 ^ 32, y3 := v * 2 ^ 32 } else { c with y1 := v * 2 ^ 32 }

/-- A candidate of the selection: loop number (0 the primary), whether it belongs to the LOWER stage, its value. -/
structure Cand where
  k     : Nat
  lower : Bool
  v     : Int
deriving DecidableEq, Repr

/-- The smallest of a list, starting from a value. -/
def minOf (a : Int) (l : List Int) : Int := l.foldl (fun m x => if x < m then x else m) a
/-- The largest of a list, starting from a value. -/
def maxOf (a : Int) (l : List Int) : Int := l.foldl (fun m x => if m < x then x else m) a

/-- The selection of R117: the demand, the winner, and the crossing. -/
def selectDemand (primary : Int) (cs : List Cand) : Int × Nat × Option (Nat × Nat) :=
  let ups := cs.filter (fun c => !c.lower)
  let los := cs.filter (fun c => c.lower)
  let d1 := minOf primary (ups.map (·.v))
  let d := maxOf d1 (los.map (·.v))
  let upWin := if d = d1 then ((Cand.mk 0 false primary :: ups).filter (fun c => decide (c.v = d))).map (·.k) else []
  let loWin := (los.filter (fun c => decide (c.v = d))).map (·.k)
  let all := upWin ++ loWin
  let win := all.foldl (fun m k => min m k) (all.headD 0)
  let cross :=
    match ups, los with
    | u :: us, l :: ls =>
      let mn := minOf u.v (us.map (·.v))
      let mx := maxOf l.v (ls.map (·.v))
      if mn < mx then
        let lw := (los.filter (fun c => decide (c.v = mx))).headD l
        let uw := (ups.filter (fun c => decide (c.v = mn))).headD u
        some (lw.k, uw.k)
      else none
    | _, _ => none
  (d, win, cross)

/-- One job's loop set, in the order of R115. `old` is the bank in force before a swap or epoch that takes effect at this
job start. -/
def loopSet (ld : LoopDesc) (bank : Bank128) (old : Option Bank128) (i : LoopIn) (s : LoopState) : LoopOut :=
  if ld.dmdKind = 3 then { st := { s with winner := 0xF } }
  else
    let ep := toQ31 (posError i.spP i.fbP) (32 + ld.peExp)
    let vs := toQ31 i.spV (24 + ld.vExp)
    let vf := toQ31 i.fbV (24 + ld.vExp)
    let as := toQ31 i.spA (16 + ld.aExp)
    let (up, c0, sk0) := runComp bank old 0 ep s.comps
    let vff := gainQ31 (bankW bank 0x140).toInt vs
    let aff := gainQ31 (bankW bank 0x144).toInt as
    let vd := sat31 (up + vff)
    let torque := decide (ld.dmdKind = 0 ∨ ld.dmdKind = 2)
    let (cout, c1, sk1) := if torque then runComp bank old 1 (sat31 (vd - vf)) c0 else (0, c0, false)
    let primary := if torque then sat31 (cout + aff) else vd
    let ff := if torque then aff else vff
    -- competing loops L1 to L4 are C2 to C5
    let step := fun (acc : List Cand × List Comp × List Nat) (k : Nat) =>
      let (cs, comps, sk) := acc
      let def_ := ld.loops.getD (k - 1) {}
      if (compCfg bank (k + 1)).en = false then acc
      else
        let m := loopVal bank i (k - 1) def_.meas
        let r := loopVal bank i (k - 1) def_.ref
        let (y, comps1, skip) := runComp bank old (k + 1) (sat31 (if def_.upper then r - m else m - r)) comps
        (cs ++ [{ k := k, lower := !def_.upper, v := if def_.upper then y else sat31 (-y) }], comps1,
          if skip then sk ++ [k + 1] else sk)
    let (cands, comps2, sk2) := [1, 2, 3, 4].foldl step ([], c1, [])
    let (d, win, cross) := selectDemand primary cands
    let dmax := (bankW bank 0x148).toInt
    let dmin := (bankW bank 0x14C).toInt
    let dc := clampI dmin dmax d
    let sat := decide (dc ≠ d)
    -- tracking (R118)
    let prim := if torque then 1 else 0
    let trackPrim := fun (comps : List Comp) =>
      if (compCfg bank prim).en = false then comps
      else comps.set prim (trackTo (decide (win ≠ 0)) (sat31 (dc - ff)) (comps.getD prim {}))
    let trackLoop := fun (comps : List Comp) (k : Nat) =>
      let def_ := ld.loops.getD (k - 1) {}
      let en := (compCfg bank (k + 1)).en
      let tgt := if def_.upper then dc else sat31 (-dc)
      let c := comps.getD (k + 1) {}
      if en && decide (win = k) then comps.set (k + 1) (trackTo false tgt c)
      else if def_.track then comps.set (k + 1) (trackTo true tgt c)
      else if en then
        let lo := if def_.upper then dmin else sat31 (-dmax)
        let hi := if def_.upper then dmax else sat31 (-dmin)
        comps.set (k + 1) (clampY lo hi c)
      else comps
    let comps3 := [1, 2, 3, 4].foldl trackLoop (trackPrim comps2)
    -- filters F1 to F4 are C6 to C9 (R119)
    let filt := fun (acc : Int × List Comp × List Nat) (k : Nat) =>
      let (x, comps, sk) := acc
      let (y, comps1, skip) := runComp bank old k x comps
      (y, comps1, if skip then sk ++ [k] else sk)
    let (fx, comps4, sk3) := [6, 7, 8, 9].foldl filt (dc, comps3, [])
    let slew : Int := (bankW bank 0x150).toNat
    let sl := if slew = 0 then fx else clampI (s.final - slew) (s.final + slew) fx
    let fin := clampI dmin dmax sl
    let cv := fun k => ((cands.filter (fun c => decide (c.k = k))).head?.map (·.v)).getD 0
    let skips := (if sk0 then [0] else []) ++ (if sk1 then [1] else []) ++ sk2 ++ sk3
    { st := { s with
        comps := comps4, dc := dc, final := fin, dmdSat := sat, slewAct := decide (sl ≠ fx),
        crossed := cross.isSome, winner := win, cands := [primary, cv 1, cv 2, cv 3, cv 4],
        rescSkip := if old.isSome then decide (skips ≠ []) else s.rescSkip }
      skips := skips
      crossNow := if s.crossed then none else cross
      satNow := if sat ∧ s.dmdSat = false then some (if dc < d then 0 else 1) else none }

/-- The library kernel's COMMAND words 0x20 to 0x23 for a SMART axis (R114). -/
def smartCommand (ld : LoopDesc) (i : LoopIn) (fin : Int) : List Word :=
  if ld.dmdKind = 3 then
    [loW (dInt i.spP), hiW (dInt i.spP), loW (dInt i.spV), hiW (dInt i.spV)]
  else [wInt fin, 0, 0, 0]

/-- The following-error check of R120: FE_MAX in whole counts; answers the new count and whether the limit is met. -/
def feCheck (feMax feN : Nat) (spP fbP : Int) (count : Nat) : Nat × Bool :=
  if feMax ≠ 0 ∧ feMax * 2 ^ 32 < (posError spP fbP).natAbs then (count + 1, decide (feN = count + 1)) else (0, false)

/-- The checks of a bank at COEF_SWAP (R123). -/
def bankOk (b : Bank128) : Bool :=
  (List.range 10).all (fun k =>
    let c := compCfg b k
    decide (c.round ≠ 3) && !(c.en && decide (c.order = 0))) &&
  decide ((bankW b 0x14C).toInt < (bankW b 0x148).toInt)

end Sys2Proof.Machine
end

