-- ==== Sys2Proof/Machine/ProfileState.lean ====
section
/-! DEFINITION. Machine/ProfileState.lean: motion profiles as data (R188 to R213). Positions are raw Q32.32 counts held
as integers, speeds raw Q40.24, accelerations raw Q48.16, times in units of 2^-16 ns (R8, R10). -/

namespace Sys2Proof.Machine

/-- A ramp set (R188). -/
structure Ramp where
  vmax   : Nat := 0
  vbrk   : Nat := 0
  vstart : Nat := 0
  vstop  : Nat := 0
  a1     : Nat := 1
  a2     : Nat := 1
  d2     : Nat := 1
  d1     : Nat := 1
deriving DecidableEq, Repr

/-- A phase of a plan (R194): start time, position, velocity and acceleration. `rev` marks a phase that begins at a
reversal, where a THIN axis waits (R197). -/
structure Phase where
  t   : Nat
  p   : Int
  v   : Int
  a   : Int
  rev : Bool := false
deriving DecidableEq, Repr

/-- A queued or running segment (R192 to R196). `cruise`, `vstart` and `vstop` hold after V_OVR; `ve` is the end joint
speed; `vel` marks a velocity segment without an end, `soft` one that a soft limit ends. -/
structure Seg where
  target : Int
  start  : Int := 0
  cruise : Nat
  vstart : Nat
  vstop  : Nat
  ve     : Nat := 0
  tag    : Nat
  rset   : Nat
  vel    : Option Int := none
  soft   : Bool := false
  vovr   : Nat := 0                 -- V_OVR as asked for; 0 none
  phases : List Phase := []
  tEnd   : Option Nat := none
deriving DecidableEq, Repr

/-- A setpoint: position, velocity, acceleration. -/
structure Setpt where
  p : Int := 0
  v : Int := 0
  a : Int := 0
deriving DecidableEq, Repr

/-- Plan state (R213). -/
inductive PlanState where
  | idle | running | held | stopRamp | stopHard | homing | safeStop
deriving DecidableEq, Repr

/-- The code of the plan state. -/
def PlanState.code : PlanState → Nat
  | .idle => 0
  | .running => 1
  | .held => 2
  | .stopRamp => 3
  | .stopHard => 4
  | .homing => 5
  | .safeStop => 6

/-- What PGN keeps for an axis or a virtual master. `sp` is the setpoint committed for the actuation instant `t0`, the latest that
has been produced; `stopSet` and `stopRate` the ramp set of the stop in force and its constant rate, 0 where it is the ramp. -/
structure Pgn where
  st       : PlanState := .idle
  segs     : List Seg := []
  stop     : List Phase := []       -- the phases of a stop in force, in place of the queue's
  stopCause : Nat := 0              -- PGN_LAST_STOP.CAUSE of the stop in force
  sp       : Setpt := {}
  t0       : Nat := 0
  sp0      : Setpt := {}            -- of class C2: the setpoint for the first instant of the cycle (R35)
  lastTag  : Nat := 0
  hStep    : Nat := 0
  hMethod  : Nat := 0
  hRev     : Bool := false
  hReversing : Nat := 0             -- 0 none; 1 stopping on the limit; 2 running back to the mark; 3 past it; 4 stopping
  hLimits  : Nat := 0               -- limits tripped since HOME was served
  hFound   : Bool := false          -- the mark has been found
  hPath    : Int := 0               -- path length travelled since HOME was served
  hMark    : Bool := false
  hRelease : Option Int := none     -- position of the release edge (methods 3, 4)
  hStepT   : Nat := 0               -- time at which step 3 began
  lastRef  : Int := 0
  lastShift : Int := 0
  fbHist   : List (Nat × Int) := [] -- times and feedback positions of its samples, newest first (R209)
  limStop  : Bool := false
  complete : Bool := false          -- profile complete, for AXM at the next boundary
  lost     : Bool := false          -- the plan is held for ROTOR_LOST
  flySeed  : Bool := false
  ended    : List (Nat × Int) := [] -- segments ended and not yet logged: TAG and end position
  softDue  : Option Nat := none     -- side of a soft limit reached and not yet logged
  hardPend : Bool := false          -- a hard limit stop waits for the feedback position of its S
  hIdx     : Option Int := none     -- position of an index event met in this homing
  hTravel  : Int := 0               -- path length since the release edge (methods 3, 4)
  safeDec  : Nat := 0               -- deceleration of the safe stop in force, ACC
  stopSet  : Nat := 0
  stopRate : Nat := 0
  waitStop : Nat := 0               -- PGN_LAST_STOP.CAUSE of a stop that arrived while a higher one acted; 0 none (R200)
  vmStops  : List Nat := []         -- STOP items of a virtual master held until it is at rest (R211)
deriving DecidableEq, Repr

/-- The profile part of an axis description (R188, R205 to R213) or, for a virtual master, of its line-angle
declaration (R211, R222). -/
structure PgnDesc where
  ramps    : List Ramp := []
  vlim     : Nat := 0
  qd       : Nat := 1
  posMin   : Int := 0
  posMax   : Int := 0
  vSearch  : Nat := 0
  vCreep   : Nat := 0
  homeDist : Int := 0
  homeOfs  : Int := 0
  vFly     : Nat := 0
  blend    : Bool := false
  softEn   : Bool := false
  posHard  : Bool := false
  negHard  : Bool := false
  reqHomed : Bool := false
  absHomed : Bool := false
  homeMethod : Nat := 1
  unitNum  : Nat := 1
  unitDen  : Nat := 1
deriving DecidableEq, Repr

/-- A ramp set of the description. -/
def PgnDesc.ramp (d : PgnDesc) (r : Nat) : Ramp := d.ramps.getD r {}

end Sys2Proof.Machine
end

