-- ==== Sys2Proof/Machine/AxisState.lean ====
section
/-! DEFINITION. Machine/AxisState.lean: axis descriptions (R52, R57, R188 to R213), axis contexts (R58 to R65) and the
state of the control cycle CYC (R29 to R51) and of GLB (R26, R28). -/

namespace Sys2Proof.Machine

/-- Kind of an axis (R57). -/
inductive AxKind where
  | smart | thin | stepper
deriving DecidableEq, Repr

/-- The code of the kind (R64). -/
def AxKind.code : AxKind → Nat
  | .smart => 0
  | .thin => 1
  | .stepper => 2

/-- State of an axis (R59). -/
inductive AxSt where
  | unused | created | admitWait | enabling | ready | motion | homing | stopping | fault | sto
deriving DecidableEq, Repr

/-- The code of the state (AXM_STATE_COUNT). -/
def AxSt.code : AxSt → Nat
  | .unused => 0
  | .created => 1
  | .admitWait => 2
  | .enabling => 3
  | .ready => 4
  | .motion => 5
  | .homing => 6
  | .stopping => 7
  | .fault => 8
  | .sto => 9

/-- ENABLING, READY, MOTION, HOMING, STOPPING and FAULT (R59). -/
def AxSt.enabled : AxSt → Bool
  | .enabling => true
  | .ready => true
  | .motion => true
  | .homing => true
  | .stopping => true
  | .fault => true
  | _ => false

/-- An axis description: what the image fixes for an axis index. `cls` is the class code of R64 (0 for 1, 1 to 4 for 2 to
16, 5 for C2); `chan` the EIU channel of local feedback; `ky` the kind-specific Y words by window offset from 0x1C00. -/
structure AxisDesc where
  kind    : AxKind := .smart
  cls     : Nat := 0
  phase   : Nat := 0
  node    : Nat := 0
  sub     : Nat := 0
  chan    : Option Nat := none
  inrush  : Nat := 0
  lateLim : Nat := 3
  feN     : Nat := 4
  speed   : SpeedCfg := {}
  loop    : LoopDesc := {}
  pgn     : PgnDesc := {}
  kset    : Nat := 0
  bank0   : Tab Word := []
  bank1   : Tab Word := []
  ky      : Tab Word := []
  omNum   : Int := 0                -- electrical speed as Q1.31 of W_FS for one raw unit of VEL: omNum / omDen (Units of chapter 8)
  omDen   : Nat := 1
  tqNum   : Nat := 1                -- PSI_FS I_FS as a fraction of DMD_FS
  tqDen   : Nat := 1
  absFb   : Bool := false
  openLoop : Bool := false          -- a STEPPER without feedback (R181)
  encOfs  : Word := 0               -- encoder offset of a PM axis with absolute feedback (R170)
deriving DecidableEq, Repr

/-- Divisor of a class code: base cycles between active cycles (R34). -/
def clsDiv (c : Nat) : Nat := if c = 5 then 1 else 2 ^ c

/-- The axis is active in cycle n (R34). -/
def AxisDesc.active (d : AxisDesc) (n : Nat) : Bool := decide (n % clsDiv d.cls = d.phase)

/-- Class C2. -/
def AxisDesc.c2 (d : AxisDesc) : Bool := decide (d.cls = 5)

/-- A command ready for the downlink (R41, R43, R260). -/
structure Cmd where
  late    : Bool := false
  stop    : Bool := false           -- the stop command of URGENT_STOP (R147)
  payload : List Word := [0, 0, 0, 0]
  code    : Nat := 0                -- vector code of a THIN axis
  done    : Nat := 0                -- finish time, 2^-16 ns of fabric time
  cycle   : Nat := 0                -- cycle in which it was formed
deriving DecidableEq, Repr

/-- An axis (R52 to R65). `conds` holds the event codes of the fault conditions present (R61); `trusted` tells that the
reaction is the stop ramp rather than the node's own stop. -/
structure Axis where
  st       : AxSt := .unused
  moved    : Bool := false          -- has taken its transition of this boundary
  destroy  : Bool := false
  conds    : List Nat := []
  ownStop  : Bool := false          -- the reaction in FAULT is the node's own stop
  -- status bits of R65
  posValid : Bool := false
  homed    : Bool := false
  fbExtrap : Bool := false
  lateBit  : Bool := false
  bound    : Bool := false
  still    : Bool := false
  limPos   : Bool := false
  limNeg   : Bool := false
  behind   : Bool := false
  revHeld  : Bool := false
  rotorLost : Bool := false
  keLow    : Bool := false
  keHigh   : Bool := false
  stoAct   : Bool := false
  lastEvent : Nat := 0
  -- admission and held items, by take order
  enSeq    : Option Nat := none
  enCycle  : Nat := 0               -- cycle in which AXIS_ENABLE was served
  enQueued : Bool := false          -- an interim completion has been posted
  enStart  : Nat := 0               -- cycle in which ENABLING began
  stopSeqs : List Nat := []
  admitDue : Bool := false          -- T_ADMIT has expired, to be judged at the next boundary (R58, R62)
  homeDue  : Bool := false          -- home found, to be taken at the next boundary (R58, R210)
  -- feedback
  fbPos    : Int := 0
  fbVel    : Int := 0
  fbVelPrev : Int := 0
  fbTime   : Nat := 0               -- S of the last feedback, 2^-16 ns
  fbFresh  : Bool := true           -- the last feedback is the first valid one: no acceleration from it (R226)
  fbGap    : Bool := false          -- POS_VALID has been lost since the last valid feedback
  fbTimePrev : Nat := 0             -- S of the feedback before the last
  fbSeen   : Bool := false
  fbNow    : List Nat := []         -- halves of this cycle with feedback
  fbOfs    : Int := 0               -- reference shift of homing
  aux      : List Word := []
  nodeReady : Bool := false
  nodeInv  : Bool := false          -- its node's last record flags the position as invalid (R87)
  est      : SpeedEst := {}
  noFb     : Nat := 0
  late     : Nat := 0
  -- banks
  bank0    : Tab Word := []
  bank1    : Tab Word := []
  active   : Nat := 0
  swapAt   : Option Nat := none
  swapCycle : Nat := 0
  epochDue : Bool := false          -- an epoch replaced the coefficients; takes effect at the next job start
  oldBank  : Tab Word := []
  -- job results
  loop     : LoopState := {}
  pgn      : Pgn := {}
  thin     : Thin := {}
  stepper  : Stepper := {}
  kx       : Tab Word := []         -- X words 0x30 to 0xFF of the frame as a custom kernel wrote them
  cmd      : Cmd := {}
  demand   : Word := 0
  fe       : Int := 0
  winner   : Nat := 0xF
  ranHalf  : List Nat := []         -- halves of this cycle whose job was made ready
  lauWait  : List (Nat × Bool) := []  -- jobs of a linked axis that wait for LAU_POST: half, extrapolated (R227)
  mapFlags : Nat := 0               -- EXTRAP, LATE, SKIPPED, OVERRUN flags of the landing map (R335)
  mapCrc   : Nat := 0
  -- limits
  -- window
  pub      : Tab Word := []
deriving DecidableEq, Repr

/-- AXM less the axes themselves: admissions of the last W_ADMIT as (cycle, energy), newest first. -/
structure Axm where
  admits : List (Nat × Nat) := []
  queue  : List Nat := []           -- axes whose admission is requested, first come first
  count  : List Nat := [256, 0, 0, 0, 0, 0, 0, 0, 0, 0]
deriving DecidableEq, Repr

/-- The control cycle (R29 to R51). Times are CO-stamps unless said otherwise. -/
structure Cyc where
  running  : Bool := false
  n        : Nat := 0
  c0       : Nat := 0               -- fabric time of the start of the cycle, 2^-16 ns
  clk0     : Nat := 0               -- SYS clock of the boundary
  ulEnd    : List Nat := []         -- halves whose UL_END has been judged
  land     : Option Nat := none
  done     : Option Nat := none
  busy     : Nat := 0               -- engine time of this cycle, CO-stamp units
  slackLow : Bool := false
  minSlack : Option Nat := none     -- smallest slack of this cycle
  atDone   : Bool := false          -- the actuation instant has passed
  stall    : Bool := false
deriving DecidableEq, Repr

/-- Controller state (R26): GLB_STATE.STATE and OFF. -/
inductive CtlSt where
  | off | boot | wipe | load | verify | discover | sync | ready | run | degraded | safe | fault
deriving DecidableEq, Repr

/-- The code of STATE; OFF has none and answers 0. -/
def CtlSt.code : CtlSt → Nat
  | .off => 0
  | .boot => 1
  | .wipe => 2
  | .load => 3
  | .verify => 4
  | .discover => 5
  | .sync => 6
  | .ready => 7
  | .run => 8
  | .degraded => 9
  | .safe => 10
  | .fault => 11

/-- Twin role: GLB_STATE.ROLE. -/
inductive Role where
  | lit | pilot | probation | unfit | alone
deriving DecidableEq, Repr

/-- The code of ROLE. -/
def Role.code : Role → Nat
  | .lit => 0
  | .pilot => 1
  | .probation => 2
  | .unfit => 3
  | .alone => 4

/-- GLB. `hold` keeps the holding registers of R28 by the address of their LO word; `degr` the causes of DEGRADED that
stand; `opened` that the ranges of R26 are open. -/
structure Glb where
  st      : CtlSt := .boot
  cause   : Nat := 0
  role    : Role := .alone
  id      : Nat := 0
  idValid : Bool := false
  cycValid : Bool := false
  opened  : Bool := false
  ranOnce : Bool := false           -- RUN has been entered
  hold    : Tab Word := []
  degr    : List Nat := []
deriving DecidableEq, Repr

/-- A write to the endpoint's configuration space that changes the block (R435, R436, R438, R442). -/
inductive PcieWrite where
  | busMaster (on : Bool)
  | msix (enable funcMask : Bool)
  | power (d3hot : Bool)
  | bar (k : Nat) (addr : Nat)
deriving DecidableEq, Repr

/-- What leaves the block (the model's own record of it): frames on trunk, fabric and twin ports, PTP messages, messages of
the fabric and the twin link that have no layout in the spec, MSI-X messages, answers of the service port and to reads of BAR0 and BAR2, BiSS register bits and pins. -/
inductive WireOut where
  | trunk (port : Nat) (bytes : List (BitVec 8))
  | fabric (port : Nat) (bytes : List (BitVec 8))
  | twin (ftype : Nat) (bytes : List (BitVec 8))
  | ptp (port kind : Nat) (fields : List Nat)
  | epoch (kind : Nat) (args : List Nat) (bytes : List (BitVec 8))
  | msix (vec : Nat)
  | service (bytes : List (BitVec 8))
  | bar0 (addr : Nat) (v : BitVec 32)
  | bar2 (bytes : List (BitVec 8)) (poisoned : Bool)
  | pin (code : Nat) (level : Bool)
deriving DecidableEq, Repr

end Sys2Proof.Machine
end

