-- ==== Sys2Proof/Machine/LauState.lean ====
section
/-! DEFINITION. Machine/LauState.lean: line angles, gear and cam links, compare units, cam switch tracks and capture
windows (R217 to R249). Angles are raw units of 2^-32 turn, positions 2^-32 count, both held as the signed reading of
their 64 bits; speeds are raw VEL (2^-24 per second), accelerations raw 2^-16 per second squared, times 2^-16 ns. -/

namespace Sys2Proof.Machine

/-- The source of a line angle: SRC of R218. -/
inductive LaSrc where
  | none | virtual | axis | encoder | remote | periodicFin | periodicPps
deriving DecidableEq, Repr

/-- The code of SRC. -/
def LaSrc.code : LaSrc → Nat
  | .none => 0
  | .virtual => 1
  | .axis => 2
  | .encoder => 3
  | .remote => 4
  | .periodicFin => 5
  | .periodicPps => 6

/-- A line angle's declaration (R217, R222). Times are in ns; `stepRaw`, `lockTol` raw turns; `fMin`, `fMax` in mHz. -/
structure LaDecl where
  src      : LaSrc := .none
  exported : Bool := false
  srcCtrl  : Nat := 0
  srcIndex : Nat := 0
  snum     : Int := 1
  sden     : Nat := 1
  ang0     : Int := 0
  ageMax   : Nat := 4
  stepRaw  : Nat := 4294967296
  fMin     : Nat := 0
  fMax     : Nat := 0
  lockTol  : Nat := 4294967
  pllBw    : Nat := 1000            -- PLL_BW in mHz
  missMax  : Nat := 3
  loss     : Nat := 0
  tCoast   : Nat := 100000000
  lossDec  : Nat := 0
  evtSubst : Bool := false
  nBack    : Nat := 16
  rejoin   : Nat := 0
  tRejoin  : Nat := 100000000
  edge     : Nat := 0
  pgn      : PgnDesc := {}
deriving DecidableEq, Repr

/-- The state of a line angle: LAU_LAn_STATUS.STATE. -/
inductive LaSt where
  | undeclared | valid | coast | ramp | held | rejoin | waitLock
deriving DecidableEq, Repr

/-- The code of STATE. -/
def LaSt.code : LaSt → Nat
  | .undeclared => 0
  | .valid => 1
  | .coast => 2
  | .ramp => 3
  | .held => 4
  | .rejoin => 5
  | .waitLock => 6

/-- A remote record (R220). -/
structure LaRecord where
  cycle : Nat
  ang   : Int
  vel   : Int
  acc   : Int
  st    : Nat
deriving DecidableEq, Repr

/-- A line angle's running state. `src*` are the source's own values; `ang`, `vel`, `acc` those published. -/
structure LineAngle where
  decl    : LaDecl := {}
  st      : LaSt := .undeclared
  ang     : Int := 0
  vel     : Int := 0
  acc     : Int := 0
  fresh   : Bool := true            -- no earlier valid S: the acceleration is 0
  ever    : Bool := false           -- has been VALID
  srcAng  : Int := 0
  srcVel  : Int := 0
  srcPos  : Int := 0                -- last source position
  rem     : Int := 0                -- remainder of R219, in units of 1/SNUM
  back    : Nat := 0                -- consecutive S at which the source is valid again
  corr    : Int := 0
  corr0   : Int := 0                -- the correction at the rejoin
  endAt   : Nat := 0                -- fabric time at which T_COAST or T_REJOIN ends
  lostAng : Int := 0                -- angle, velocity and time of the last valid S before a loss
  lostVel : Int := 0
  lostAt  : Nat := 0
  cause   : Nat := 0
  extrap  : Bool := false
  locked  : Bool := false
  subst   : Bool := false           -- SRC_SUBST
  record  : Option LaRecord := none
  lateRun : Bool := false
  jumped  : Bool := false           -- a rejoin happened at the last S
  -- periodic sources (R221)
  edges   : List Nat := []          -- accepted edge times, newest first, at most five
  freq    : Nat := 0                -- in 2^-24 Hz; 0 before the first four intervals
  pllAng  : Int := 0                -- estimated angle at the last accepted edge
  edgeAng : Int := 0                -- angle that the last accepted edge marks
  good    : Nat := 0
  bad     : Nat := 0
  miss    : Nat := 0
  missRef : Nat := 0                -- time from which the next missing edge counts
deriving DecidableEq, Repr

/-- What a link follows (R229). -/
inductive Master where
  | la (n : Nat)
  | axisFb (a : Nat)
  | axisSp (a : Nat)
deriving DecidableEq, Repr

/-- A ratio or a cam (R228, R236). -/
inductive LinkKind where
  | ratio (num : Int) (den : Nat)
  | cam (index : Nat) (x0 : Int)
deriving DecidableEq, Repr

/-- When a link engages (R229): at once, or at a master value crossed in a direction (0 positive, 1 negative,
2 either). -/
structure EngageAt where
  value : Int
  dir   : Nat
deriving DecidableEq, Repr

/-- Cam points staged on chip for the next cycle (R21, R236): number, position and slope; `ok` is false where they could not be staged. -/
structure CamStage where
  pts : List (Nat × Int × Int) := []
  ok  : Bool := true
deriving DecidableEq, Repr

/-- A link asked for by GEAR_SET or GEAR_CHANGE_AT. -/
structure LinkReq where
  master : Master
  kind   : LinkKind
  rampD  : Nat := 0
  at_    : Option EngageAt := none
  prev   : Option Int := none       -- the new master at the last evaluation
  stage  : CamStage := {}
deriving DecidableEq, Repr

/-- A ratio ramp in force (R230): the old and the new ratio, the travel so far in the direction of travel, the setpoint at
engagement. -/
structure RatioRamp where
  n0   : Int
  d0   : Nat
  len  : Nat
  dir  : Int
  u    : Int := 0
  e    : Int
deriving DecidableEq, Repr

/-- An engaged link. `sp` is the follower's setpoint before the remainder `rem`; `mPrev` the master at the last
evaluation; `travel` the master travel since engagement of a cam link. -/
structure Link where
  master : Master
  kind   : LinkKind
  sp     : Int
  rem    : Int := 0
  mPrev  : Option Int               -- none until the first evaluation
  e      : Int := 0
  travel : Int := 0
  stage  : CamStage := {}
  camX0  : Option Int := none       -- cam(X0), once its points are staged
  ramp   : Option RatioRamp := none
  next   : Option LinkReq := none
  vlim   : Bool := false            -- the follower is above V_LIM
deriving DecidableEq, Repr

/-- A header of a cam table (R234). -/
structure CamHdr where
  n        : Nat
  span     : Nat
  periodic : Bool
deriving DecidableEq, Repr

/-- What a compare unit drives (R239). -/
inductive CmpKind where
  | off
  | localOut (out : Nat)
  | remoteOut (node out : Nat)
  | window (chan probe width : Nat)
deriving DecidableEq, Repr

/-- The code of KIND. -/
def CmpKind.code : CmpKind → Nat
  | .off => 0
  | .localOut _ => 1
  | .remoteOut _ _ => 2
  | .window _ _ _ => 3

/-- The model of a window's source in one cycle (R226, R244): its S, value, velocity and acceleration, and the plan of a virtual
master. -/
structure UnitModel where
  at_  : Nat
  th   : Int
  v    : Int
  a    : Int
  plan : Option Pgn := none
deriving DecidableEq, Repr

/-- A compare unit (R239 to R244). -/
structure Unit128 where
  kind     : CmpKind := .off
  axisSrc  : Bool := false
  src      : Nat := 0
  value    : Int := 0
  dir      : Nat := 0
  level    : Bool := false
  pulse    : Nat := 0
  step     : Nat := 0
  armed    : Bool := false
  behind   : Bool := false
  opened   : Bool := false
  openAt   : Nat := 0               -- time at which the capture window opened
  openUp   : Bool := true
  models   : List UnitModel := []   -- since the window opened, newest first
  fireCnt  : Nat := 0
  armCycle : Nat := 0
  resVal   : Int := 0
  resStamp : Nat := 0
  resCycle : Nat := 0
  catchUp  : Bool := false          -- CATCHUP (R240)
  judge    : Bool := false          -- armed at the boundary of this cycle: BEHIND is judged on the value at its S
  placed   : List (Nat × Int × Bool) := []    -- solved time, value and direction (up) of edges to confirm
  srcPrev  : Option Int := none     -- the source at the last S, while solvable
deriving DecidableEq, Repr

/-- A cam switch track (R243). Windows are raw turns. -/
structure Track where
  la      : Nat
  remote  : Option (Nat × Nat) := none
  out     : Nat := 0
  period  : Nat
  windows : List (Nat × Nat)
  leadOn  : Nat := 0
  leadOff : Nat := 0
  level   : Bool := true
deriving DecidableEq, Repr

/-- The running state of a track: its line angle at the last S, while solvable, and the boundaries placed in the present and
the previous cycle, each with its direction (up). -/
structure TrackRt where
  srcPrev : Option Int := none
  done    : List (Int × Bool) := []
  old     : List (Int × Bool) := []
deriving DecidableEq, Repr

/-- A remote actuate-at entry to be carried (R241, R261); its time is in units of 2^-16 ns of fabric time. -/
structure ActAt where
  node  : Nat
  out   : Nat
  t     : Nat
  level : Bool
  owner : Nat
deriving DecidableEq, Repr

/-- A cam copy in progress (R235). -/
structure CamCopy where
  seq   : Nat
  index : Nat
  src   : Nat
  hdr   : CamHdr
deriving DecidableEq, Repr

/-- LAU. -/
structure Lau where
  angles : Tab LineAngle := []
  links  : Tab Link := []           -- by follower axis
  armedLinks : Tab LinkReq := []    -- GEAR_SET with WHEN = 1 not yet engaged, by follower axis
  cams   : Tab CamHdr := []
  copies : List CamCopy := []
  units  : Tab Unit128 := []
  tracks : List Track := []
  trackRt : Tab TrackRt := []
  acts   : List ActAt := []         -- entries to be carried, those of this cycle's records and later ones
  posted : Bool := false            -- LAU_POST has run in this cycle
deriving DecidableEq, Repr

end Sys2Proof.Machine
end

