-- ==== Sys2Proof/Machine/SlcState.lean ====
section
/-! DEFINITION. Machine/SlcState.lean: the state of the Siran link controller (R250 to R286). The slot table, record map
and node table lie in the register file. Arrival offsets are in units of 0.25 ns. -/

namespace Sys2Proof.Machine

/-- Link state of a node on a channel (R271). -/
inductive LinkSt where
  | absent | joining | joined | fenced
deriving DecidableEq, Repr

/-- The code of STATE_A and STATE_B. -/
def LinkSt.code : LinkSt → Nat
  | .absent => 0
  | .joining => 1
  | .joined => 2
  | .fenced => 3

/-- A node's link on one channel (R268 to R272). -/
structure NodeLink where
  st       : LinkSt := .absent
  viol     : Nat := 0
  violNow  : Bool := false          -- a violation in this cycle
  validNow : Bool := false          -- a valid record in this cycle
  silent   : Nat := 0               -- consecutive active cycles without a valid record
  actCycle : Nat := 0               -- ACT_CYCLE of the accepted join
  waited   : Nat := 0               -- active cycles since ACT_CYCLE without a valid record
  again    : Bool := false          -- joined before
  rejoin   : Bool := false          -- REJOIN is sent on this channel
  arr      : Int := 0
  arrNow   : Bool := false          -- measured in this cycle
  tcorr    : Int := 0
  trimRun  : Nat := 0
  trimQuiet : Nat := 0              -- active cycles since the condition was last present
  trimDone : Bool := false          -- logged, and not absent for 1,024 active cycles since
  fenceDue : Nat := 0               -- cause of a fencing that takes effect at the next boundary
  edgeRun  : Bool := false          -- a run of violations has been logged
  badRun   : Bool := false
  badNow   : Bool := false
  lastFence : Nat := 0              -- cause of the last fencing
deriving DecidableEq, Repr

/-- A node (R265, R272). -/
structure NodeRt where
  a        : NodeLink := {}
  b        : NodeLink := {}
  serial   : Nat := 0
  typ      : Nat := 0
  asym     : Int := 0               -- ASYM of its last JOIN_ACK
  spare    : Option Nat := none     -- slot kept by a SPARE_BOUND node
  emptyRun : Nat := 0               -- the set of channels of the present run
  chDiffRun : Bool := false
  chDiffNow : Bool := false
  asymRun  : Nat := 0
  asymQuiet : Nat := 0
  asymDone : Bool := false
  lastCd   : Int := 0               -- CHDIFF of the last valid record
  lost     : Bool := false
  moving   : Bool := false
  ready    : Bool := false
  posInv   : Bool := false
  trip     : Bool := false
deriving DecidableEq, Repr

/-- A frame being received at a port: its slot, header cycle and records (R255, R257). -/
structure RxFrame where
  slot    : Nat
  cycle   : Nat
  count   : Nat
  arr     : Int
  body    : List Byte
  start   : Nat                     -- frame start, 2^-16 ns of fabric time
  endAt   : Option Nat := none      -- time at which the transmission was truncated or the link lost
  bad1    : Bool := false           -- its first record is made to fail (R537)
deriving DecidableEq, Repr

/-- What has been received for a record map entry in this cycle (R253, R272). -/
structure Landed where
  a     : Option (List Byte) := none
  b     : Option (List Byte) := none
  first : Option (List Byte) := none
deriving DecidableEq, Repr

/-- A trunk port (R250, R286). -/
structure Port where
  lockAt  : Nat := 0                -- frames are lost up to this time (detector 0x0D)
  link    : Bool := false           -- LINK_UP has been raised and block lock not lost since
  downCnt : Nat := 0
  cplArr1 : Int := 0                -- arrival offset of the level 1 coupler's bundle frames
  cplArr2 : Int := 0
  chain   : Nat := 0                -- chain latency declared by the level 1 coupler, in 0.25 ns
deriving DecidableEq, Repr

/-- An answer to a join request, waiting for its downlink spare slot (R276, R277). -/
structure JoinAck where
  slot : Nat
  port : Nat
  node : Nat
  body : List Byte
deriving DecidableEq, Repr

/-- A coupler configuration stream being sent (R279): `next` is the fragment due. -/
structure CplStream where
  trunk : Nat
  level : Nat
  bytes : List Byte
  candle : List Byte
  next  : Nat := 0
deriving DecidableEq, Repr

/-- What a coupler last reported (R279): trunk, channel, level, byte 1, the candle prefix of its staged configuration. -/
structure CplRep where
  trunk  : Nat
  chanB  : Bool
  level  : Nat
  result : Nat
  active : Nat
  staged : Nat
deriving DecidableEq, Repr

/-- The link controller. -/
structure Slc where
  nodes   : Tab NodeRt := []
  ports   : Tab Port := []
  rx      : Tab RxFrame := []
  landed  : Tab Landed := []
  acks    : List JoinAck := []
  streams : List CplStream := []
  reps    : List CplRep := []
  joinIdx : Tab Nat := []           -- spare slot open for joining, by trunk, as an index among the spare slots
  sent    : List Nat := []          -- downlink slots sent in this cycle
deriving DecidableEq, Repr

end Sys2Proof.Machine
end

