-- ==== Sys2Proof/Machine/FabricState.lean ====
section
/-! DEFINITION. Machine/FabricState.lean: the state of the controller fabric FBR (R311 to R333) and of the twin unit TWU
(R334 to R358). -/

namespace Sys2Proof.Machine

/-- A fabric header (R313). -/
structure FabHdr where
  ftype  : Nat
  origin : Nat
  noId   : Bool
  hops   : Nat
  ttl    : Nat
  wrapped : Bool
  dual   : Bool
  port   : Nat
  links  : Nat
  len    : Nat
  cycle  : Nat
deriving DecidableEq, Repr

/-- A ring member as HELLOs and FAB_DATA frames show it (R316, R319). -/
structure Member where
  serial   : Nat
  partner  : Nat
  id       : Nat
  assigned : Bool
  bound    : Bool
  cstate   : Nat
  role     : Nat
  epoch    : Nat
  candle   : List Byte
  d0       : Nat
  d1       : Nat
  hops0    : Option Nat := none     -- HOPS + 1 of its HELLO on FB0 and on FB1
  hops1    : Option Nat := none
  links    : Nat := 0
  seenAt   : Nat := 0               -- fabric time of its last HELLO
deriving DecidableEq, Repr

/-- A frame waiting for a gap between the fabric slot windows (R315). -/
structure HeldFrame where
  port  : Nat
  bytes : List Byte
deriving DecidableEq, Repr

/-- The phase of an epoch (R327). -/
inductive EpochPhase where
  | idle | staging | ready | committed
deriving DecidableEq, Repr

/-- The code of PHASE. -/
def EpochPhase.code : EpochPhase → Nat
  | .idle => 0
  | .staging => 1
  | .ready => 2
  | .committed => 3

/-- The epoch in progress (R326 to R329). -/
structure Epoch where
  phase    : EpochPhase := .idle
  e        : Nat := 0
  candle   : List Byte := []
  members  : List Nat := []
  initiator : Bool := false
  auto     : Bool := false
  nReq     : Option Nat := none     -- asked for by EPOCH_COMMIT or AUTO_COMMIT
  at_      : Nat := 0               -- activation cycle
  offerAt  : Nat := 0
  readyAt  : Nat := 0
  ready    : List Nat := []
  got      : List (Nat × List Byte) := []   -- image fragments received, by number
  total    : Nat := 0
  lastCause : Nat := 0
  commitIn : Option (Nat × Nat × Nat) := none  -- a COMMIT record received: E, candle prefix, N
  inUse    : List Nat := []         -- axes not UNUSED when the epoch was offered (R56)
  issued   : Bool := false          -- this lantern has issued COMMIT
deriving DecidableEq, Repr

/-- A block of remote signals (R324). -/
structure SigBlock where
  src    : Nat
  first  : Nat
  apply  : Nat                      -- boundary at which it is applied
  vals   : List Word
deriving DecidableEq, Repr

/-- A record that the image puts into a controller's FAB_DATA frame (R320): a line angle, or a block of signals by its first
index and count. -/
inductive FabExport where
  | angle (idx : Nat)
  | sigs (first count : Nat)
deriving DecidableEq, Repr

/-- An import declared by the image: source controller, first index, count. -/
structure Import where
  src   : Nat
  first : Nat
  count : Nat
deriving DecidableEq, Repr

/-- The fabric part of the LINE section (R317, R320, R328). Delays are declared in 1/64 ns. -/
structure FabPlan where
  table    : List (Nat × List Nat) := []   -- controller table: ID and the serials bound to it; none for AUTO (R317)
  timeout  : Nat := 1000                   -- EPOCH_TIMEOUT in ms
  spans    : List (List (Nat × Nat)) := [] -- for each link, the IDs whose slots cross it, with the delay of each up to it (R321)
  reach    : List (Nat × Nat) := []        -- for each ID, the longest delay to a consumer (R321)
deriving DecidableEq, Repr

/-- What a controller's FAB_DATA frame of this cycle showed on a port (R319). -/
structure FabSeen where
  id    : Nat
  port  : Nat
  hops  : Nat
  links : Nat
deriving DecidableEq, Repr

/-- The fabric block. -/
structure Fbr where
  links    : List Bool := [false, false]
  members  : List Member := []
  changed  : Nat := 0               -- fabric time of the last change of the set of HELLOs
  alone    : Option Nat := some 0   -- time from which no fabric link is up
  sentAt   : Option Nat := none     -- time of the last HELLO sent
  lastBody : List Byte := []
  taken    : List (Nat × Nat × Nat × Nat) := []  -- FTYPE, ORIGIN, CYCLE and sequence of copies taken, newest first
  seen     : List FabSeen := []
  held     : List HeldFrame := []
  blocks   : List SigBlock := []
  stale    : Tab Nat := []          -- consecutive boundaries without a valid block, by import number
  noRoute  : Tab Nat := []          -- consecutive cycles without a route, by ID
  known    : List Nat := []         -- member IDs
  topo     : Nat := 0
  conflict : Bool := false
  idNone   : Bool := false          -- ID_NONE has been logged
  mismatch : Bool := false
  epoch    : Epoch := {}
  away     : Option Nat := none     -- an epoch in progress that does not list this controller (R326, R328)
  sentData : Option Nat := none     -- cycle in which the own FAB_DATA was sent
deriving DecidableEq, Repr

/-- A resynchronisation of one axis (R343). -/
structure Resync where
  axis  : Nat
  cause : Nat
  going : Bool := false
deriving DecidableEq, Repr

/-- A thing that the lit twin's STATE frames carry (R343, R351). The spec gives their contents no layout, so a thing comes
whole. -/
inductive XferItem where
  /-- An axis: its context with the states of its kernels, its link, its compare units. -/
  | axis (a : Nat) (x : Axis) (link : Option Link) (units : List (Nat × Unit128))
  /-- Line angles and virtual masters, with their remainders. -/
  | lines (l : Tab LineAngle) (vms : Tab Pgn)
  /-- The link states of the nodes. -/
  | nodes (l : Tab NodeRt)
  /-- The epoch in progress. -/
  | epoch (e : Epoch)
  /-- The position offset of a local channel. -/
  | encoder (k : Nat) (ofs : Int)
  /-- The cutover boundary. -/
  | cutover (n : Nat)
deriving DecidableEq, Repr

/-- What the partner's heartbeat frames say (R335, R338). `test` is its self-test word: 0 none, 1 in progress, 2 passed,
3 failed. -/
structure Partner where
  serial : Nat := 0
  role   : Nat := 4
  cstate : Nat := 0
  prefix_ : Nat := 0
  epoch  : Nat := 0
  test   : Nat := 0
  act    : Bool := false
  seen   : Bool := false
  names  : Bool := false            -- its peer record names this device (R350)
deriving DecidableEq, Repr

/-- The twin unit. -/
structure Twu where
  act      : Bool := false
  upAt     : Nat := 0               -- time at which ACT was raised
  pAct     : Bool := false
  pActAt   : Nat := 0               -- time from which the partner's level counts
  bothAt   : Option Nat := none     -- time from which both lines are asserted
  badAt    : Option Nat := none     -- time from which the IN pair reads invalid
  wickBad  : Bool := false
  wickOk   : Bool := false
  wickCause : Nat := 0
  inhibit  : Bool := true
  claim    : Bool := false          -- an ALONE twin that is to become LIT (R350)
  link     : Bool := false
  hbOk     : Bool := false
  hbOut    : Bool := false
  partner  : Partner := {}
  disagree : Nat := 0
  shadow   : Bool := false
  xfer     : Bool := false
  xferNext : Nat := 0               -- at the lit twin: the axis that the transfer has come to
  cutover  : Option Nat := none
  clean    : Nat := 0
  mm       : List Nat := []         -- cycles of the mismatches in the window
  mmNow    : Bool := false          -- a mismatch, or a self-test, in this cycle
  test     : Option Nat := none     -- cycle in which a self-test began
  testOwn  : Option Bool := none
  resyncs  : List Resync := []
  skip     : List Nat := []         -- axes not compared in this cycle
  landSent : Option Nat := none     -- cycle whose landing map has been sent
  chunks   : List XferItem := []    -- received, to be installed at the next boundary
  hand     : Bool := false          -- a handover has been taken
  handCycle : Nat := 0
  stepDown : Bool := false          -- the handover is a step-down
  downAt   : Nat := 0               -- time from which TW is down
  peerPend : Option (Nat × Nat × Bool) := none  -- serial, cycle and acceptance by the host, of a peer record being written
  adopt    : Bool := false          -- an image is to be adopted from the partner
  wasUnfit : Bool := false          -- the device was UNFIT, or dropped ACT, before its last reset (R350)
deriving DecidableEq, Repr

end Sys2Proof.Machine
end

