-- ==== Sys2Proof/Machine/ObserveState.lean ====
section
/-! DEFINITION. Machine/ObserveState.lean: the state of the event recorder ELG (R486 to R494), the capture engine CAP
(R477 to R484) and the health manager HLM (R499 to R514). -/

namespace Sys2Proof.Machine

/-- A raised event: code, packed arguments (R488), the cycle and the CO-stamp at which it was raised (R487). -/
structure Ev where
  code  : Nat
  args  : List Word
  cycle : Nat
  stamp : Word
  early : Bool := false
  at_   : Nat := 0         -- fabric time at which it was raised
deriving DecidableEq, Repr

/-- A limiter (R491): the limited code, its bucket, and what it has suppressed. -/
structure Lim where
  code   : Nat
  burst  : Nat
  period : Nat
  tokens : Nat
  suppr  : Nat := 0        -- suppressed since the last record of the code (the SUPPR byte)
  count  : Nat := 0        -- ELG_LIMl_SUPPR_CNT
  age    : Nat := 0        -- base cycles since the last token
deriving DecidableEq, Repr

/-- The event recorder. `lastHi` holds cycle bits 63-32 of the last record written in this log. -/
structure Elg where
  queue   : List Ev := []
  early   : List Ev := []
  qlost   : Bool := false
  running : Bool := false
  full    : Bool := false
  lastHi  : Option Nat := none
  lims    : List Lim := []
  restart : Bool := false
  wrote   : List Nat := []     -- the SYS clocks of the last four records written, newest first (R486)
deriving DecidableEq, Repr

/-- State of a capture channel (R482). -/
inductive CapState where
  | idle | pre | post | held
deriving DecidableEq, Repr

/-- The code of CAP_CHc_STAT.STATE. -/
def CapState.code : CapState → Nat
  | .idle => 0
  | .pre => 1
  | .post => 2
  | .held => 3

/-- A capture channel's running state (R478 to R484); its configuration lies in CAP_CHc_CFG, SRC and MASK. -/
structure CapChan where
  st        : CapState := .idle
  half      : Nat := 0
  wpos      : Nat := 0
  total     : Nat := 0              -- records written since arming
  mode      : Nat := 0
  trig      : Nat := 0
  tsel      : Nat := 0
  tcode     : Nat := 0
  tcycle    : Nat := 0
  pre       : Nat := 0
  post      : Nat := 0
  autoT     : Nat := 0
  armCycle  : Nat := 0
  fresh     : Bool := true          -- no sample since arming
  cross     : Bool := false         -- the write position has crossed record 0 or H/2: the next sample is a key set
  keyCycle  : Option (Nat × Nat) := none  -- KIND 3: the cycle and half whose records make the key set being written
  endCycle  : Option Nat := none    -- the cycle in which the last POST ended
  rearm     : Bool := false         -- armed while both halves were held: writing starts when one is free
  last      : List Word := []       -- the values last recorded, by word
  keys      : List (Nat × Nat) := []  -- (record number, cycle) of the key sets, newest first, at most two
  start     : Nat := 0              -- record number of START once triggered
  startCyc  : Nat := 0
  trigCycle : Nat := 0
  trigStamp : Word := 0
  trigMark  : Bool := false         -- the next record carries TRIG
  forced    : Bool := false
  lost      : Bool := false         -- some record carries LOST
  lostNow   : Bool := false         -- the next record carries LOST
  inCycle   : Nat := 0              -- KIND 4: transitions recorded this cycle
  lostCnt   : Nat := 0              -- KIND 4: transitions lost this cycle
  seq       : Nat := 0
  busy      : List Nat := []        -- halves whose descriptor is not yet passed by its ring's consumer
  posted    : List (Nat × Nat) := []  -- (half, ring index of its descriptor)
  waitDesc  : List (List Byte) := []  -- descriptors waiting on chip for ring room
deriving DecidableEq, Repr

/-- The capture engine. -/
structure Cap where
  chans : Tab CapChan := []
deriving DecidableEq, Repr

/-- Where a spare-managed unit stands: the codes of CEA_ENGn_STAT.STATE. -/
inductive UnitState where
  | off | inService | spare | test | out
deriving DecidableEq, Repr

/-- The code of the state. -/
def UnitState.code : UnitState → Nat
  | .off => 0
  | .inService => 1
  | .spare => 2
  | .test => 3
  | .out => 4

/-- A bring-in requested of the ledger (R501): kind 1 engine or 2 core, the unit it replaces, whether the ledger has
admitted it. -/
structure BringIn where
  kind     : Nat
  replaces : Nat
  admitted : Bool := false
  rotate   : Bool := false
deriving DecidableEq, Repr

/-- A supervisor core (R504). `readyAt` is the clock from which it takes items after a bring-in. -/
structure SupCore where
  st        : UnitState := .inService
  loading   : Bool := false
  since     : Nat := 0
deriving DecidableEq, Repr

/-- An injection slot's running state beside its registers (R513): armed, and operations since the last hit. -/
structure Inj where
  armed : Bool := false
  ops   : Nat := 0
deriving DecidableEq, Repr

/-- The health manager. -/
structure Hlm where
  cores      : Tab SupCore := []
  bringIns   : List BringIn := []
  injs       : Tab Inj := []
  rowErrs    : Tab Nat := []        -- corrected errors of a row, by unit code * 2^16 + row
  rowsLeft   : Tab Nat := []        -- spare rows left in the macro of a unit code
  pageErrs   : Tab Nat := []        -- corrected errors of a DRAM page
  retired    : List Nat := []       -- pages retired
  badWords   : List Nat := []       -- DRAM words marked uncorrectable (R506)
  lowLogged  : List Nat := []       -- kinds whose SPARE_LOW has been logged
  exhausted  : List Nat := []
  wearWarn   : List Nat := []       -- blocks whose WEAR_WARN has been logged
  wearAlarm  : List Nat := []
  thermHot   : List Nat := []       -- sensors whose THERMAL_WARN stands (R510)
  dropped    : Nat := 0
  ceReport   : Nat := 0             -- corrected errors since the last report
  ueTotal    : Nat := 0             -- uncorrectable errors since reset
  lastRotate : Nat := 0             -- fabric time of the last engine rotation, hours counted from it
  rotations  : Nat := 0             -- engine rotations since the last core rotation
  thermSeen  : Bool := false        -- the sensors have been read since reset
  reportAt   : Option Nat := none   -- cycle of the last health report
  maxLoad    : Nat := 0             -- over the last 1,024 cycles (R512)
  minSlack   : Nat := 0xFFFFFFFF
deriving DecidableEq, Repr

end Sys2Proof.Machine
end

