-- ==== Sys2Proof/Machine/SafetyState.lean ====
section
/-! DEFINITION. Machine/SafetyState.lean: the safety parameters (R364 to R382) and the state of the safety island SFI.
Positions are raw Q32.32 axis counts, speeds counts per second, times 2^-16 ns of fabric time. -/

namespace Sys2Proof.Machine

/-- Where a monitored axis takes a position (R367). -/
inductive PosSrc where
  | conn (c place : Nat)            -- a safe position of an uplink connection
  | feedback                        -- the axis's feedback record
  | channel (k : Nat)               -- a local EIU channel
deriving DecidableEq, Repr

/-- The functions of R370, by the codes of R385. SBC follows the torque permit and is no demand. -/
inductive SfFunc where
  | sto | ss1t | ss1r | ss2 | sos | sls | slp | sdi
deriving DecidableEq, Repr

/-- The code of a function (R385). -/
def SfFunc.code : SfFunc → Nat
  | .sto => 1
  | .ss1t => 2
  | .ss1r => 3
  | .ss2 => 4
  | .sos => 5
  | .sls => 6
  | .slp => 7
  | .sdi => 8

/-- A function from its code. -/
def SfFunc.ofCode : Nat → Option SfFunc
  | 1 => some .sto
  | 2 => some .ss1t
  | 3 => some .ss1r
  | 4 => some .ss2
  | 5 => some .sos
  | 6 => some .sls
  | 7 => some .slp
  | 8 => some .sdi
  | _ => none

/-- Functions that need a monitored axis (R367). -/
def SfFunc.monitored : SfFunc → Bool
  | .sto => false
  | .ss1t => false
  | _ => true

/-- The source of a demand (R364, R369). -/
inductive DemSrc where
  | start
  | input (k : Nat)
  | nodeBit (conn bitNo : Nat)
  | island
  | ctrl
  | host
  | breach
  | func (f : SfFunc)
deriving DecidableEq, Repr

/-- The number of a source in the model, to which `Config.demandSource` gives the number that FUNC_DEMAND carries. -/
def DemSrc.key : DemSrc → Nat
  | .start => 8
  | .input k => k
  | .nodeBit c b => 0x1000 + c * 32 + b
  | .island => 9
  | .ctrl => 10
  | .host => 11
  | .breach => 12
  | .func f => 0x10 + f.code

/-- An entry of the demand map (R369). -/
structure DemMap where
  src   : DemSrc
  func  : SfFunc
  axes  : List Nat
  sls   : Nat := 0
  auto  : Bool := false
deriving DecidableEq, Repr

/-- Parameters of a safe axis (R366, R370, R371). Times are in ms. -/
structure SafeAxis where
  axis  : Nat
  tSs1  : Nat := 0
  dSs   : Nat := 0                  -- deceleration of the safe stop, counts/s^2
  tSbc  : Nat := 0
  react : Nat := 0
  out   : Option Nat := none        -- safe output pair of the local path
  brakeOut : Option Nat := none
deriving DecidableEq, Repr

/-- Parameters of a monitored axis (R367 to R370). -/
structure MonAxis where
  axis   : Nat
  p1     : PosSrc
  p2     : PosSrc
  abs1   : Bool := true             -- P1, where a connection carries it, is declared absolute (R367)
  n1     : Int := 1
  d1     : Nat := 1
  n2     : Int := 1
  d2     : Nat := 1
  disc   : Nat := 0
  nDisc  : Nat := 1
  nV     : Nat := 8
  dMon   : Nat := 1
  tDelay : Nat := 0
  vTol   : Nat := 0
  vZero  : Nat := 0
  nZero  : Nat := 1
  tMax   : Nat := 0
  sosWin : Nat := 0
  sls    : List Nat := [0, 0, 0, 0]
  posLo  : Int := 0
  posHi  : Int := 0
  dSlp   : Nat := 1
  dirPos : Bool := true
  sdiTol : Nat := 0
deriving DecidableEq, Repr

/-- A safe connection (R372). -/
structure ConnDecl where
  connId : Nat
  node   : Nat
  down   : Bool
  wd     : Nat := 10
  slot   : Nat
  len    : Nat := 20
  subs   : List (Nat × Nat) := []   -- (SUB, axis) of a downlink connection
deriving DecidableEq, Repr

/-- A safe input pair (R378); times in ms, the filter in 0.1 ms. -/
structure SafeInDecl where
  used  : Bool := false
  anti  : Bool := false
  fIn   : Nat := 10
  tDisc : Nat := 20
deriving DecidableEq, Repr

/-- A safe output pair (R379); TEST_T in s. -/
structure SafeOutDecl where
  used  : Bool := false
  testT : Nat := 10
  axes  : List Nat := []            -- axes whose torque it carries
deriving DecidableEq, Repr

/-- The safety parameter section (R382). -/
structure SafetySec where
  present    : Bool := false
  crc        : Word := 0
  startReset : Bool := true
  ctrlStop   : Bool := true         -- CTRL_REACT: SS1-t rather than STO
  tCtrl      : Nat := 1000
  seqWin     : Nat := 4
  axes       : List SafeAxis := []
  mons       : List MonAxis := []
  maps       : List DemMap := []
  conns      : List ConnDecl := []
  ins        : List SafeInDecl := []
  outs       : List SafeOutDecl := []
deriving DecidableEq, Repr

/-- State of the island (R363). -/
inductive ISt where
  | init | normal | fault
deriving DecidableEq, Repr

/-- The code of ISTATE. -/
def ISt.code : ISt → Nat
  | .init => 0
  | .normal => 1
  | .fault => 2

/-- A demand or breach on an axis (R369, R371). -/
structure Demand where
  axis   : Nat
  func   : SfFunc
  src    : DemSrc
  sls    : Nat := 0
  active : Bool := true
  auto   : Bool := false
deriving DecidableEq, Repr

/-- A stop in progress on an axis: SS1-t, SS1-r or SS2 (R370). -/
structure StopRun where
  axis   : Nat
  func   : SfFunc
  since  : Nat
  vd     : Nat := 0
  limit  : Nat                      -- T_SS1 or T_SS1_MAX, in ms
  zeroRun : Nat := 0
  done    : Bool := false            -- at standstill: STO applied, or SOS begun
  late    : Bool := false            -- its limit has passed: STO applied
deriving DecidableEq, Repr

/-- A monitored axis's running state (R368, R370). -/
structure MonRt where
  hist    : List (Nat × Int) := []  -- safe positions and their cycles, newest first, at most 65
  valid   : Bool := false           -- both sources were there at the last S
  pos     : Int := 0
  v       : Int := 0
  discRun : Nat := 0
  missRun : Nat := 0
  disc    : Bool := false
  sosPos  : Option Int := none
  slsRun  : Nat := 0
  sdiPos  : Option Int := none      -- the farthest point against which travel opposite to DIR counts
  breach  : List SfFunc := []
deriving DecidableEq, Repr

/-- A safe input pair (R378). -/
structure SafeIn where
  a      : Bool := false
  b      : Bool := false
  aAt    : Nat := 0                 -- times of their last changes
  bAt    : Nat := 0
  diffAt : Option Nat := none
  disc   : Bool := false
  both   : Bool := false            -- both pins have been at the demand level together since the latch
  back   : Bool := false            -- and have returned
deriving DecidableEq, Repr

/-- A safe output pair (R379). -/
structure SafeOut where
  on     : Bool := false
  cutOff : Bool := false            -- switched off by a readback fault
  rbSeen : Bool := false
  testAt : Nat := 0
deriving DecidableEq, Repr

/-- A safe connection (R373 to R376). -/
structure Conn where
  started : Bool := false
  lost    : Bool := false
  last    : Nat := 0                -- last accepted SEQ, or the last SEQ sent
  okAt    : Nat := 0
  seqRun  : Bool := false
  inputs  : Nat := 0
  ack     : Nat := 0
  nodeSf  : Bool := false
  poss    : List Int := []
deriving DecidableEq, Repr

/-- A safe reset pin (R381). -/
structure ResetPin where
  level : Bool := false
  since : Nat := 0
  idleOk : Bool := false            -- inactive for at least 100 ms before its rise
deriving DecidableEq, Repr

/-- The safety island. -/
structure Sfi where
  st       : ISt := .init
  cause    : Nat := 0
  scaOk    : Bool := false
  scbOk    : Bool := false
  selfTest : Bool := false          -- both channels have passed self-test
  demands  : List Demand := []
  stops    : List StopRun := []
  permit   : List Nat := []         -- axes whose torque permit is 1
  permitOff : Tab Nat := []         -- time at which a permit went to 0
  brakeOff : List Nat := []         -- axes whose brake is released
  mons     : Tab MonRt := []
  ins      : Tab SafeIn := []
  outs     : Tab SafeOut := []
  conns    : Tab Conn := []
  rstA     : ResetPin := {}
  rstB     : ResetPin := {}
  resetAt  : Option Nat := none
  stuck    : Bool := false
  hostReq  : List Demand := []
  evalCycle : Option Nat := none
  xcmpCycle : Option Nat := none
  scaTick  : Nat := 0
  scbTick  : Nat := 0
  txOk     : Bool := true           -- SCB has computed the same PDU bytes
  cnts     : List Nat := [0, 0, 0, 0, 0, 0, 0]  -- the counters of the host view, in order of offset, not yet copied (R388)
  lastFault : Word := 0
  evq      : List (Nat × List EvArg) := []  -- events not yet copied, oldest first (R388)
deriving DecidableEq, Repr

end Sys2Proof.Machine
end

