-- ==== Sys2Proof/Machine/PowerState.lean ====
section
/-! DEFINITION. Machine/PowerState.lean: the state of PEM, LCU and CFL (R390 to R433) and the contents of a configuration
image. The spec gives the layout of an image's header, directory and signature block (R414 to R416) and none of its
sections' contents, so those contents are structured data here. -/

namespace Sys2Proof.Machine

/-- A load in the ledger (R396): row of the table (1 encoder output, 2 trunk lane, 3 fabric or twin lane, 4 engine,
5 core), index, declared energy in microjoule, charge in nC, and when it was requested. -/
structure Load where
  row    : Nat
  index  : Nat
  energy : Nat
  charge : Nat
  at_    : Nat
  waited : Bool := false
deriving DecidableEq, Repr

/-- An encoder output (R398, R399). -/
structure EncOut where
  enabled : Bool := false
  energy  : Nat := 0
  ramp    : Option Nat := none      -- time at which its ramp began
  on      : Bool := false
  onAt    : Nat := 0
  cuts    : List Nat := []          -- times of its cut-offs
  retryAt : Option Nat := none
deriving DecidableEq, Repr

/-- PEM. -/
structure Pem where
  ledgerOn : Bool := false
  queue    : List Load := []
  admits   : List (Nat × Nat) := [] -- (time, charge) of admissions, newest first
  evalAt   : Nat := 0
  outs     : Tab EncOut := []
  nRetry   : Nat := 3
  lanes    : List Nat := []         -- lanes admitted by the ledger: 16 * row + index
  vinLow   : Bool := false
  tHeld    : Bool := false          -- the thermal reset is held
  vinBadTill : Nat := 0             -- VIN low is held by detector 0x1A up to this time
  dramPwr  : Bool := true           -- DRAM_PWR_EN
deriving DecidableEq, Repr

/-- The fuses (R402 to R407). `lc` is the state less the FIELD and SERVICE toggles. Hashes are numbers of 256 bits;
none where the slot holds no hash. What a part's fuses hold is not the spec's: the values are a choice (DESIGN CHOICE, log entry
5). -/
structure Fuses where
  variant  : Nat := 1
  stepping : Nat := 0
  serial   : DWord := 1
  dram4    : Bool := false
  lc       : Nat := 3
  toggles  : Nat := 0
  oem      : List (Option Nat) := [some 0, none, none, none]
  oemRev   : List Bool := [false, false, false, false]
  quet     : List (Option Nat) := [some 0, none]
  quetRev  : List Bool := [false, false]
  svnMin   : Nat := 0
  ok       : Bool := true
deriving DecidableEq, Repr

/-- LCU less its registers. -/
structure Lcu where
  fwSvn    : Nat := 0
  tries    : Nat := 0               -- DRAM trainings failed
  lcWas    : Option Nat := none     -- state before a life-cycle change, until LC_CHANGE is logged
  resetAt  : Option Nat := none     -- time of the fuse writes of a TRANSITION
  keyPend  : List (Nat × Nat × Nat) := []  -- (OP, slot, hash) fused and in effect from the next boot
  rcLogged : Bool := false          -- RESET_CAUSE has been logged
  bootSel  : Nat := 0
deriving DecidableEq, Repr

/-- The DRAM region plan: base, length, whether it is a host region (R24, R326). -/
structure Region where
  base : Nat
  len  : Nat
  host : Bool
deriving DecidableEq, Repr

/-- The LINE section's contents (R415): register loads, the fabric plan, RUN_WAIT in ms, ADOPT, the regions. -/
structure LineSec where
  regs    : List (Nat × Word) := []
  plan    : FabPlan := {}
  runWait : Nat := 1000
  adopt   : Bool := true
  regions : List Region := []
  nRetry  : Nat := 3
  asymTol : Nat := 8                -- ASYM_TOL of R296 in 0.25 ns
deriving DecidableEq, Repr

/-- An I/O map (R264): for each field of a record (0 POS low, 1 POS high, 2 EDGE_AGE, 3 to 10 AUX) the local signal it
feeds. -/
abbrev IoMap := List (Nat × Nat)

/-- The writer of a local signal (R323). -/
inductive SigWriter where
  | ioMap | signalWrite | nothing
deriving DecidableEq, Repr

/-- What the image says of an encoder channel beside its registers: the places of nE and nW in the data bits, MAX_JUMP, the
largest line delay in units of 1.25 ns (R81, R82, R84), FIT_LINES (R78). -/
structure EncDecl where
  nE    : Option Nat := none
  nW    : Option Nat := none
  jump  : Nat := 0
  tld   : Nat := 0
  lines : Nat := 256
deriving DecidableEq, Repr

/-- A controller's sections CTRL, SAFETY, DEVICE and DATA (R415). -/
structure CtrlSec where
  id      : Nat := 0
  regs    : List (Nat × Word) := []
  axes    : Tab AxisDesc := []
  las     : Tab LaDecl := []
  tracks  : List Track := []
  library : List Nat := []
  p       : Tab Word := []
  y       : Tab Word := []
  order   : List Nat := []
  lims    : List Lim := []
  caps    : Tab Nat := []           -- byte offsets of the buffers of capture channels in the capture region (R480)
  sigs    : Tab Word := []
  writers : Tab SigWriter := []
  ioMaps  : Tab IoMap := []
  safety  : SafetySec := {}
  cams    : Tab CamHdr := []
  data    : List (Nat × List Byte) := []
  encE    : List (Bool × Nat) := []
  encs    : Tab EncDecl := []
  exports : List FabExport := []    -- the records of its FAB_DATA frame, in the image's order (R320)
  imports : List Import := []       -- imported blocks of signals (R324)
  twSkew  : List (Nat × Nat × Int) := [] -- TW_SKEW by trunk port and coupler level, in 0.25 ns (R345)
  dUp     : Tab Nat := []           -- d_up of each coupler node's coupler, in 1/64 ns (R535)
  dDown   : Tab Nat := []           -- delay from the trunk port to each node, in 1/64 ns (R266)
  ttl     : List (Option Nat) := [some 127, some 127] -- TTL to the farthest consumer through FB0 and FB1, if any (R320)
deriving DecidableEq, Repr

/-- The firmware section (R407): security version, COMMIT_SVN, version word, and its Quetric signature. -/
structure FirmSec where
  svn     : Nat := 0
  commit  : Bool := false
  version : Word := 0
  keyX    : Nat := 0
  keyY    : Nat := 0
  sigR    : Nat := 0
  sigS    : Nat := 0
  digest  : List Byte := []         -- SHA-256 of the part of the section that its signature covers
deriving DecidableEq, Repr

/-- A DEVICE section (R418): the serial number it is for, or 0, and ASYM_STATIC of FB0, FB1 and TW. -/
structure DeviceSec where
  serial : Nat
  asym   : List Int
deriving DecidableEq, Repr

/-- The contents of an image's sections. -/
structure ImageBody where
  firm  : FirmSec := {}
  devs  : List DeviceSec := []
  line  : LineSec := {}
  ctrls : List CtrlSec := []
deriving DecidableEq, Repr

/-- A refusal of R424: its code, and its detail where the spec says what that holds. -/
structure Refused where
  code   : Nat
  detail : Option Nat
deriving DecidableEq, Repr

/-- Where a refusal happened: WHERE of CFL_REFUSE, and the candidate in hand. -/
structure Candidate where
  slot  : Nat                       -- 0 to 3, or 5 for an adopted image
  bytes : List Byte
  read  : Bool := false
deriving DecidableEq, Repr

/-- CFL. `flash` holds the four slots in the order of LCU_BOOT.SLOT, `peers` the records of each flash. -/
structure Cfl where
  flash   : List (List Byte) := [[], [], [], []]
  peers   : List (List (List Byte)) := [[], []]
  tried   : List Nat := []
  cand    : Option Candidate := none
  body    : ImageBody := {}         -- contents of the image in force
  image   : List Byte := []         -- the image in force
  loaded  : Bool := false           -- a LINE section is in force
  slot    : Nat := 0                -- where it came from: WHERE of CFL_REFUSE
  applied : Bool := false           -- the sections of the controller's ID are in force
  staged  : Option (ImageBody × List Byte) := none
  adopting : Bool := false
  adoptAt : Nat := 0
  adoptGot : List (Nat × List Byte) := []
  adoptTotal : Nat := 0             -- fragments of the image, once one has come
  barred  : Option (List Byte) := none   -- the lantern candle whose image was refused
  flashOp : Option Nat := none      -- RESULT of the operation in progress, as far as it is known
  flashTo : Nat := 0                -- its flash, times 4, and target
  readyAt : Nat := 0                -- time of entry into READY
  cycles0 : Nat := 0                -- cycles produced since
deriving DecidableEq, Repr

end Sys2Proof.Machine
end

