-- ==== Sys2Proof/Machine/TimeState.lean ====
section
/-! DEFINITION. Machine/TimeState.lean: the state of the time base TBU and its PTP engine (R287 to R310). Offsets and
delays are in units of 2^-16 ns, latencies and asymmetries in 1/64 ns as the registers hold them. -/

namespace Sys2Proof.Machine

/-- Servo state (R298): TBU_STATE.STATE. -/
inductive TbuSt where
  | free | listen | locking | locked | unsync | holdover | lantern
deriving DecidableEq, Repr

/-- The code of STATE. -/
def TbuSt.code : TbuSt → Nat
  | .free => 0
  | .listen => 1
  | .locking => 2
  | .locked => 3
  | .unsync => 4
  | .holdover => 5
  | .lantern => 6

/-- PSTATE of a port. -/
inductive PtpSt where
  | disabled | listening | master | slave | passive
deriving DecidableEq, Repr

/-- The code of PSTATE. -/
def PtpSt.code : PtpSt → Nat
  | .disabled => 0
  | .listening => 1
  | .master => 2
  | .slave => 3
  | .passive => 4

/-- The data set an Announce carries (R290): priority1, clockClass, clockAccuracy, offsetScaledLogVariance, priority2 and
clockIdentity of the lantern, stepsRemoved, and the sender's clockIdentity. -/
structure Announce where
  domain : Nat
  p1     : Nat
  cls    : Nat
  acc    : Nat
  var    : Nat
  p2     : Nat
  id     : Nat
  steps  : Nat
  sender : Nat
deriving DecidableEq, Repr

/-- A Sync or Follow_Up (R290): the precise origin time and the correction field in 2^-16 ns. -/
structure SyncMsg where
  domain  : Nat
  sender  : Nat
  seq     : Nat
  twoStep : Bool
  origin  : Nat
  corr    : Int
deriving DecidableEq, Repr

/-- A Pdelay_Resp (R290, R292): its sequence, the responder's turnaround, and the latency TLV where valid. -/
structure PdelayResp where
  domain : Nat
  seq    : Nat
  turn   : Nat
  tlv    : Option (Nat × Nat)
deriving DecidableEq, Repr

/-- A port of the boundary clock. -/
structure TPort where
  pst      : PtpSt := .disabled
  hist     : List Nat := []         -- mean path delays of the last 16 exchanges, newest first
  mpdNew   : Option Nat := none     -- D_mean and L to take effect at the next boundary
  lNew     : Option Int := none
  reqSeq   : Nat := 0
  reqAt    : Option Nat := none
  discards : Nat := 0
  ann      : Option Announce := none
  annAt    : Nat := 0
  sync     : Option (Nat × Nat × Int) := none   -- sequence, arrival and correction of a two-step Sync
  ignore   : Nat := 0               -- Syncs still to be ignored (detector 0x10)
  sentSync : Option Nat := none
  sentAnn  : Option Nat := none
  sentReq  : Option Nat := none
  ofs      : Int := 0
  ofsSeen  : Bool := false
  syncSeq  : Nat := 0
deriving DecidableEq, Repr

/-- The time base less the counter itself, which is State.ft. -/
structure Tbu where
  st       : TbuSt := .free
  slave    : Nat := 3
  rate     : Nat := 0x0001400000000000   -- the rate measured for the master, 2^-48 ns per clock
  good     : Nat := 0
  bad      : Nat := 0
  lastSync : Nat := 0
  listenAt : Nat := 0
  holdAt   : Nat := 0
  hasLantern : Bool := false             -- a lantern has been selected
  stepped  : Bool := false
  offset   : Int := 0
  lantern  : Nat := 0
  steps    : Nat := 0
  ports    : Tab TPort := []
  annP1    : Option (Nat × Nat) := none  -- priority1 and priority2 taken over from an old lantern (R300)
  annCls   : Option Nat := none
  asymRun  : Nat := 0
  asymQuiet : Nat := 0
  asymDone : Bool := false
  asymDiff : Int := 0
  ppsOk    : Option Nat := none          -- time of the last accepted edge
  ppsLost  : Bool := false
  ppsStep  : Bool := false               -- the first accepted edge has stepped the time
  ppsHigh  : Option Nat := none          -- time at which PPS_OUT rose, while it is high
  ppsLast  : Option Nat := none          -- instant of the last rising edge
  plant    : List Int := []
deriving DecidableEq, Repr

end Sys2Proof.Machine
end

