-- ==== Sys2Proof/Syntax.lean ====
section
/-! DEFINITION. Syntax.lean: the commands of the block, one constructor for each row of the command table, and the
plain data their operands are made of. -/

namespace Sys2Proof

open Machine

/-- A 64-byte work item as it is taken (R462), with the place it came from (R467): `origin` is the ring number, or
0x80 plus the mailbox channel, or 0x100 for an item the lit twin forwarded (R339); `idx` the ring index at which it
was taken; `args` the bytes 20 to 63. -/
structure Item where
  origin : Nat
  idx    : Nat
  opcode : Nat
  ctl    : Nat
  tag    : Nat
  handle : Word
  due    : Nat
  dueLa  : Word
  args   : List Byte
deriving DecidableEq, Repr


/-- The commands of the block: one constructor for each row of the command table. -/
inductive Instr where
  /-- REGISTER_WRITE (R5). A host write to a BAR0 register that has no row of its own updates its RW, W1S or W1C fields by their access codes. -/
  | registerWrite (a : Nat) (v : Word)
  /-- BAR0_BAD_ACCESS (R4). A BAR0 access of wrong size or alignment completes, returns 0 or is discarded, and is counted and logged. -/
  | bar0BadAccess (write : Bool) (off size : Nat)
  /-- RC_COUNTER_READ (R5). A read of a read-clear counter returns its value and clears it, a same-clock increment leaving 1. -/
  | rcCounterRead (a : Nat) (inc : Nat)
  /-- HOLDING_REGISTER_READ (R28). A read of a LO or TIME0 word copies the upper words into a holding register for consistent later reads. -/
  | holdingRegisterRead (a : Nat)
  /-- CYCLE_BOUNDARY (R33). At the start of each cycle epochs, spares, cycle increment, window republication, due work items and swaps take effect in order. -/
  | cycleBoundary
  /-- UL_BUNDLE_FRAME (R257). An uplink frame arrives at a trunk port and is judged by its guardian window, header check and FCS. -/
  | ulBundleFrame (p : Nat) (fr : List Byte) (fcsOk : Bool)
  /-- BABBLE (R267). A transmission on a port with no window open is cut and logged. -/
  | babble (p : Nat)
  /-- UPLINK_RECORD_LANDED (R36). The last byte of an uplink record lands; the first valid copy makes its axis job ready and feeds SFI, TWU and CAP. -/
  | uplinkRecordLanded (p k : Nat)
  /-- LOCAL_SAMPLE_POST (R84). EIU posts a local encoder sample to the dispatcher at its post time, making the job ready. -/
  | localSamplePost (k half : Nat)
  /-- UL_END (R39). At UL_END axes without feedback are made ready with extrapolated feedback or given late commands, and record positions are judged. -/
  | ulEnd (h : Nat)
  /-- FEEDBACK_LOST (R44). The third consecutive axis-cycle without feedback logs FEEDBACK_LOST and faults the axis. -/
  | feedbackLost (a : Nat)
  /-- CMD_LOST (R44). Consecutive late commands reaching LATE_LIM fault the axis. -/
  | cmdLost (a : Nat)
  /-- FRAME_STAGE (R149). The context DMA stages an axis frame into a free frame slot of every engine in staging order. -/
  | frameStage (a half : Nat)
  /-- JOB_DISPATCH (R38). A ready job is dispatched FIFO to the lowest free in-service engine with its entry registers set. -/
  | jobDispatch
  /-- JOB_SKIPPED (R40). A job not dispatched by its latest start is skipped with a late command. -/
  | jobSkipped (a half : Nat)
  /-- CYCLE_OVERRUN (R42). A job still running 64 clocks before its release deadline takes the overrun interrupt and its results are discarded. -/
  | cycleOverrun (e : Nat)
  /-- URGENT_STOP (R145). Engines running jobs take the urgent-stop interrupt when the controller enters SAFE or FAULT. -/
  | urgentStop (e : Nat)
  /-- ENGINE_HALT (R147). An engine that has not aborted by the release deadline is stopped by the dispatcher and reset. -/
  | engineHalt (e : Nat)
  /-- ENGINE_RESET (R147). A halted engine completes its 16-clock reset and returns to service. -/
  | engineReset (e : Nat)
  /-- MOV (R143). Parallel move only; the all-zero word is NOP. -/
  | mov (e : Nat)
  /-- MPY (R143). Accumulator set to the signed product of two D registers. -/
  | mpy (e : Nat)
  /-- MAC (R143). Signed product added to the accumulator. -/
  | mac (e : Nat)
  /-- MACR (R143). Product added to the accumulator then rounded at bit 30. -/
  | macr (e : Nat)
  /-- MPYU (R136). Accumulator set to an unsigned-by-signed product. -/
  | mpyu (e : Nat)
  /-- MACS (R136). Accumulator shifted right 32 arithmetically and the product added. -/
  | macs (e : Nat)
  /-- MPYM (R143). Accumulator set to the product of X and Y memory operands. -/
  | mpym (e : Nat)
  /-- MACM (R143). Product of X and Y memory operands added to the accumulator. -/
  | macm (e : Nat)
  /-- ADD (R143). Saturated sum of two D registers with N and Z. -/
  | addOp (e : Nat)
  /-- SUB (R143). Saturated difference of two D registers with N and Z. -/
  | subOp (e : Nat)
  /-- ADDA (R143). A Q1.31 D register added to the accumulator at bits 62-31. -/
  | adda (e : Nat)
  /-- SUBA (R143). A Q1.31 D register subtracted from the accumulator. -/
  | suba (e : Nat)
  /-- ABS (R143). Saturated absolute value into a D register. -/
  | absOp (e : Nat)
  /-- NEG (R143). Saturated negation into a D register. -/
  | negOp (e : Nat)
  /-- MIN (R143). Signed minimum of two D registers. -/
  | minOp (e : Nat)
  /-- MAX (R143). Signed maximum of two D registers. -/
  | maxOp (e : Nat)
  /-- AND (R143). Bitwise AND of two D registers. -/
  | andOp (e : Nat)
  /-- OR (R143). Bitwise OR of two D registers. -/
  | orOp (e : Nat)
  /-- XOR (R143). Bitwise XOR of two D registers. -/
  | xor (e : Nat)
  /-- ASL (R143). Saturating arithmetic left shift. -/
  | asl (e : Nat)
  /-- ASR (R143). Arithmetic right shift. -/
  | asr (e : Nat)
  /-- LSR (R143). Logical right shift. -/
  | lsr (e : Nat)
  /-- CMP (R143). N and Z from an unsaturated difference. -/
  | cmp (e : Nat)
  /-- CLR (R143). Accumulator cleared. -/
  | clr (e : Nat)
  /-- ASHA (R143). Accumulator shifted by a signed amount, saturating to 80 bits. -/
  | asha (e : Nat)
  /-- STA (R135). Rounded, saturated Q1.31 of the accumulator into a D register. -/
  | sta (e : Nat)
  /-- STAH (R135). High word of the Q1.63 accumulator into a D register. -/
  | stah (e : Nat)
  /-- STAL (R135). Low word of the Q1.63 accumulator into a D register. -/
  | stal (e : Nat)
  /-- RND (R143). Accumulator rounded at bit 30 with low bits cleared. -/
  | rnd (e : Nat)
  /-- MVA (R143). Accumulator set to the other accumulator. -/
  | mva (e : Nat)
  /-- LDA (R143). Accumulator loaded from a D register as Q1.31. -/
  | lda (e : Nat)
  /-- LDH (R143). Upper half of a register loaded from the immediate. -/
  | ldh (e : Nat)
  /-- LDL (R143). Lower half of a register loaded from the immediate. -/
  | ldl (e : Nat)
  /-- MOVR (R143). Register-to-register move. -/
  | movr (e : Nat)
  /-- LDX (R134). Register loaded from X memory at register plus displacement. -/
  | ldx (e : Nat)
  /-- STX (R143). Register stored to X memory at register plus displacement. -/
  | stx (e : Nat)
  /-- LDY (R143). Register loaded from Y memory at register plus displacement. -/
  | ldy (e : Nat)
  /-- JMP (R139). Unconditional branch after two delay slots. -/
  | jmp (e : Nat)
  /-- JCC (R144). Conditional branch on COND after two delay slots. -/
  | jcc (e : Nat)
  /-- JSR (R139). Subroutine call writing RA. -/
  | jsr (e : Nat)
  /-- RTS (R139). Return to RA after two delay slots. -/
  | rts (e : Nat)
  /-- DO (R141). Starts a hardware loop of an immediate count. -/
  | doLoop (e : Nat)
  /-- DOD (R141). Starts a hardware loop with the count from a D register. -/
  | dod (e : Nat)
  /-- REP (R140). Repeats the next instruction an immediate number of times. -/
  | repOp (e : Nat)
  /-- REPD (R140). Repeats the next instruction a D-register number of times. -/
  | repd (e : Nat)
  /-- ENDDO (R141). Makes the current loop iteration the last. -/
  | enddo (e : Nat)
  /-- EXIT (R153). Ends the job and starts the 8-clock writeback. -/
  | exitJob (e : Nat)
  /-- ABORT (R153). Ends the job without results. -/
  | abortJob (e : Nat)
  /-- RTI (R146). Returns from an interrupt handler, acting as ABORT in the overrun handler. -/
  | rti (e : Nat)
  /-- JOB_WRITEBACK_END (R153). Writeback ends: the command goes to SLC or CMU, states and events are written, and the job finishes. -/
  | jobWritebackEnd (e : Nat)
  /-- DOWNLINK_SLOT (R41). At a downlink slot start SLC transmits the slot's records, SAFE frame or spare-slot frame on both channels. -/
  | downlinkSlot (k : Nat)
  /-- ACTUATION_INSTANT (R102). At A a SIGNAL-mode fast output takes the value its signal held at DL_END. -/
  | actuationInstant
  /-- LOAD_RESTART (R51). A write of LOAD_RESTART clears MAX_LOAD at the next boundary. -/
  | loadRestart
  /-- SLACK_RESTART (R51). A write of SLACK_RESTART resets CYC_MIN_SLACK at the next boundary. -/
  | slackRestart
  /-- AXIS_CREATE (R52). Work item creating an axis from its description and returning its handle. -/
  | axisCreate (it : Item)
  /-- AXIS_DESTROY (R53). Work item returning a CREATED axis to UNUSED. -/
  | axisDestroy (it : Item)
  /-- AXIS_ENABLE (R59). Work item requesting start admission and enabling of an axis. -/
  | axisEnable (it : Item)
  /-- AXIS_DISABLE (R59). Work item disabling an axis or leaving FAULT. -/
  | axisDisable (it : Item)
  /-- ADMIT_TIMEOUT (R59). An admission request not admitted within T_ADMIT completes with TIMEOUT. -/
  | admitTimeout (a : Nat)
  /-- ENABLE_TIMEOUT (R59). An axis not ready within T_EN enters FAULT. -/
  | enableTimeout (a : Nat)
  /-- QUAD_EDGE (R72). An accepted A or B change counts one step or is judged illegal or overrate. -/
  | quadEdge (k : Nat) (a b z : Bool)
  /-- INDEX_EVENT (R73). The count entering the index gate with Z active latches the index position and is checked. -/
  | indexEvent (k : Nat)
  /-- ENC_SETTLE (R70). POS_VALID is set once the encoder supply has been on for ENC_SETTLE. -/
  | encSettle (k : Nat)
  /-- SINCOS_CONVERSION (R76). A sin/cos ADC conversion is corrected and merged with the comparator count. -/
  | sincosConversion (k : Nat) (sv cv : Int)
  /-- SC_SIGNAL (R77). A radius out of range for 4 conversions clears POS_VALID. -/
  | scSignal (k : Nat)
  /-- FIT_COMPLETED (R78). A sin/cos correction fit completes and is applied at the next boundary or rejected. -/
  | fitCompleted (k : Nat) (osSin osCos gain phi : Int)
  /-- SERIAL_READ_START (R79). EIU starts the serial clock so the encoder latches at S minus LATCH_DELAY. -/
  | serialReadStart (k : Nat)
  /-- SERIAL_READ_END (R82). A serial frame completes and is judged valid or counted as missing feedback. -/
  | serialReadEnd (k frame ack delay : Nat)
  /-- REREAD (R70). A write of REREAD requests an absolute re-read served by the next read. -/
  | reread (k : Nat)
  /-- BISS_REGISTER_READ (R83). START with WRITE 0 begins a BiSS register read over CDM bits. -/
  | bissRegisterRead (k slave addr : Nat)
  /-- BISS_REGISTER_WRITE (R83). START with WRITE 1 begins a BiSS register write over CDM bits. -/
  | bissRegisterWrite (k slave addr data : Nat)
  /-- BISS_TRANSACTION_END (R83). A BiSS register transaction ends, clearing BUSY with data or ERR. -/
  | bissTransactionEnd (k data : Nat) (ok : Bool)
  /-- PROBE_ARM (R85). A write of ARM arms a probe. -/
  | probeArm (k p : Nat)
  /-- PROBE_ACK (R85). A write of ACK clears FULL and re-arms in continuous mode. -/
  | probeAck (k p : Nat)
  /-- STANDSTILL_TIMEOUT (R89). No edge for T_SS reports speed 0 and sets STANDSTILL. -/
  | standstillTimeout (i : Nat)
  /-- FAST_INPUT_TRANSITION (R95). An accepted fast-input transition is timestamped and delivered to edge consumers and rate checks. -/
  | fastInputTransition (k : Nat) (pin : Bool)
  /-- INPUT_STUCK (R97). An input active longer than T_STUCK masks its edge consumers. -/
  | inputStuck (k : Nat)
  /-- INPUT_RELEASED (R97). A masked input inactive for T_RELEASE is unmasked. -/
  | inputReleased (k : Nat)
  /-- CHATTER_RELEASE (R98). A forced-active limit input returns to its filtered level after a quiet WIN. -/
  | chatterRelease (k : Nat)
  /-- DIO_OUT_SET (R102). A write drives HOST-mode fast outputs high. -/
  | dioOutSet (v : Word)
  /-- DIO_OUT_CLR (R102). A write drives HOST-mode fast outputs low. -/
  | dioOutClr (v : Word)
  /-- OUTPUT_EDGE_DUE (R103). A queued fast-output edge reaches its scheduled time and is applied at the ball. -/
  | outputEdgeDue (k : Nat)
  /-- COEF_WRITE (R122). Work item writing words into an axis's inactive coefficient bank. -/
  | coefWrite (it : Item)
  /-- COEF_SWAP (R123). Work item scheduling a coefficient-bank swap at a cycle. -/
  | coefSwap (it : Item)
  /-- FOLLOWING_ERROR (R120). A following error above FE_MAX for FE_N active cycles faults the axis. -/
  | followingError (a : Nat)
  /-- OBS_RESTART (R159). A write of OBS_RESTART clears the measured kernel costs at the next boundary. -/
  | obsRestart
  /-- ROTOR_LOST (R175). A residual above R_LOSS for 3 base cycles sends ASC or OFF and holds the profile. -/
  | rotorLost (a : Nat)
  /-- RECATCH_DUE (R176). T_RECATCH after a loss or failed attempt a re-catch attempt starts with a probe. -/
  | recatchDue (a : Nat)
  /-- RECATCH (R176). A re-catch attempt ends after 16 base cycles in success or failure. -/
  | recatchEnd (a : Nat)
  /-- MAG_TIME_ELAPSED (R169). T_AL elapses in MAG and the sequencer goes to RUN or fails. -/
  | magTimeElapsed (a : Nat)
  /-- ALIGN_STEP_END (R171). An alignment step of T_AL/2 ends. -/
  | alignStepEnd (a : Nat)
  /-- START_TIMEOUT (R172). I_ALIGN not reached within T_AL/4 or RAMP not exited within T_RAMP fails the start. -/
  | startTimeout (a : Nat)
  /-- RETRY_WAIT_ELAPSED (R169). T_RETRY in WAIT elapses and the sequencer probes again. -/
  | retryWaitElapsed (a : Nat)
  /-- HOLD_CURRENT_TIMEOUT (R180). Zero setpoint velocity for T_HOLD lowers a stepper to I_HOLD. -/
  | holdCurrentTimeout (a : Nat)
  /-- KE_WINDOW_FILLED (R177). A full Ke averaging window is compared with KE_NOM. -/
  | keWindowFilled (a : Nat)
  /-- OFFSET_FIT (R178). 64 qualifying samples complete a current-offset fit, applied or rejected. -/
  | offsetFit (a : Nat)
  /-- MOVE_ABS (R190). Work item moving to an absolute target. -/
  | moveAbs (it : Item)
  /-- MOVE_REL (R191). Work item moving a relative distance. -/
  | moveRel (it : Item)
  /-- MOVE_VEL (R191). Work item moving at a target velocity. -/
  | moveVel (it : Item)
  /-- STOP (R199). Work item stopping an axis or virtual master on the stop ramp or at QD. -/
  | stopItem (it : Item)
  /-- HOME (R207). Work item starting a homing method. -/
  | homeItem (it : Item)
  /-- SEG_DONE (R190). A profile segment reaches its end and is logged; the last one completes the profile. -/
  | segDone (i : Nat)
  /-- SOFT_LIMIT (R205). A velocity move comes to rest at a soft limit. -/
  | softLimit (a : Nat)
  /-- HOME_DONE (R210). With the axis at rest after step 4 the reference shift is applied and HOMED is set. -/
  | homeDone (a : Nat)
  /-- LAU_POST (R227). LAU completes line angles, linked setpoints and solved edges for the cycle. -/
  | lauPost
  /-- COAST_EXPIRY (R224). T_COAST elapses and a coasting substitute starts to decelerate. -/
  | coastExpiry (n : Nat)
  /-- REJOIN_SLEW_END (R225). T_REJOIN elapses and the slewed correction reaches 0. -/
  | rejoinSlewEnd (n : Nat)
  /-- PERIODIC_EDGE_MISSING (R221). An expected periodic edge not arriving within 1.5/f counts as missing. -/
  | periodicEdgeMissing (n : Nat)
  /-- GEAR_SET (R229). Work item engaging a ratio or cam link. -/
  | gearSet (it : Item)
  /-- GEAR_CHANGE_AT (R231). Work item changing an engaged link at a master value. -/
  | gearChangeAt (it : Item)
  /-- CAM_SET (R235). Work item copying a cam table and issuing a new handle. -/
  | camSet (it : Item)
  /-- CAM_COPY_DONE (R235). The cam copy completes and CAM_SET completes with the new handle. -/
  | camCopyDone (i : Nat)
  /-- COMPARE_ARM (R239). Work item arming a compare unit. -/
  | compareArm (it : Item)
  /-- COMPARE_DISARM (R239). COMPARE_ARM with KIND 0 disarms a unit. -/
  | compareDisarm (it : Item)
  /-- JOIN_REQ (R276). A received join request is checked and answered. -/
  | joinReq (p : Nat) (fr : List Byte)
  /-- JOIN_TIMEOUT (R271). No valid record within 16 active cycles returns a JOINING link to ABSENT. -/
  | joinTimeout (n : Nat) (b : Bool)
  /-- PORT_FENCED (R271). 8 violations or N_LOST silent cycles fence a node's port. -/
  | portFenced (n : Nat) (b : Bool)
  /-- TRIM_ALARM (R270). ARR above TRIM_TOL for 16 active cycles is logged. -/
  | trimAlarm (n : Nat) (b : Bool)
  /-- ASYM_DISAGREE (R270). CHDIFF above ASYM_TOL in 16 records is logged. -/
  | asymDisagree (n : Nat)
  /-- SAFE_FRAME (R374). A received SAFE frame is passed to SFI and its PDU judged by SCRC, parameters and SEQ. -/
  | safeFrame (p : Nat) (fr : List Byte)
  /-- CPL_STAT (R279). A coupler status frame is received. -/
  | cplStat (p : Nat) (fr : List Byte)
  /-- LINK_DOWN (R281). A trunk port loses block lock. -/
  | linkDown (p : Nat)
  /-- LINK_UP (R284). A trunk port has held block lock for 1 ms. -/
  | linkUp (p : Nat)
  /-- PTP_SYNC (R294). A received Sync is corrected by path delay and asymmetry and steers the servo. -/
  | ptpSync (p : Nat) (m : SyncMsg)
  /-- PTP_FOLLOW_UP (R290). A received Follow_Up completes a two-step Sync. -/
  | ptpFollowUp (p : Nat) (m : SyncMsg)
  /-- PTP_PDELAY_REQ (R290). A received Pdelay_Req is answered with a Pdelay_Resp and latency TLV. -/
  | ptpPdelayReq (p seq : Nat)
  /-- PTP_PDELAY_RESP (R297). A received Pdelay_Resp updates the peer delay and learned latency term. -/
  | ptpPdelayResp (p : Nat) (m : PdelayResp)
  /-- PTP_ANNOUNCE (R298). A received Announce drives the BMCA and servo state. -/
  | ptpAnnounce (p : Nat) (a : Announce)
  /-- PTP_MANAGEMENT (R290). A PTP management message is discarded and counted. -/
  | ptpManagement (p : Nat)
  /-- PTP_SYNC_SEND (R290). A master port sends Sync and Follow_Up at its sync interval. -/
  | ptpSyncSend (p : Nat)
  /-- PTP_ANNOUNCE_SEND (R290). A master port sends Announce at its interval. -/
  | ptpAnnounceSend (p : Nat)
  /-- PTP_PDELAY_SEND (R290). Each port sends Pdelay_Req at its interval. -/
  | ptpPdelaySend (p : Nat)
  /-- PDELAY_TIMEOUT (R297). A peer-delay exchange without response in 10 ms is discarded. -/
  | pdelayTimeout (p : Nat)
  /-- TIME_SYNC (R298). Offset within SYNC_TOL at 16 Syncs locks the servo. -/
  | timeSync
  /-- TIME_UNSYNC (R298). Offset above UNSYNC_TOL at 8 Syncs in RUN enters UNSYNC and DEGRADED. -/
  | timeUnsync
  /-- HOLDOVER_ENTER (R298). Loss of Syncs, Announce, link or peer delay freezes INCR in holdover. -/
  | holdoverEnter
  /-- ANNOUNCE_TIMEOUT (R298). No better Announce in LISTEN makes the controller the lantern and sets time. -/
  | announceTimeout
  /-- ASYM_CHECK (R296). Ring offsets differing above ASYM_TOL for 64 Syncs are logged. -/
  | asymCheck
  /-- PPS_OUT_EDGE (R302). A PPS_OUT edge is placed at a second or cycle start. -/
  | ppsOutEdge
  /-- PPS_IN_EDGE (R303). A PPS_IN edge is timestamped and may discipline the lantern. -/
  | ppsInEdge (rising : Bool)
  /-- PPS_LOST (R303). No accepted PPS edge for 2 s freezes the lantern's rate. -/
  | ppsLost
  /-- PLANT_PTP_EXCHANGE (R304). A plant-time PTP exchange on the management port updates PLANT_OFS. -/
  | plantPtpExchange (ofs : Int)
  /-- HELLO_SEND (R316). A HELLO is sent on both fabric ports at its interval or after a change. -/
  | helloSend
  /-- HELLO (R316). A received HELLO updates members, order, path delays and candles. -/
  | helloFrame (p : Nat) (fr : List Byte)
  /-- ID_ASSIGNED (R317). After DISC_STABLE or DISC_WAIT a controller ID is assigned. -/
  | idAssigned (told : List Refused)
  /-- FAB_DATA_SEND (R320). The lit twin sends its FAB_DATA frame at its fabric slot start. -/
  | fabDataSend
  /-- FAB_DATA (R320). A received FAB_DATA frame yields line-angle, signal and commit records and is forwarded. -/
  | fabData (p : Nat) (fr : List Byte)
  /-- ASYNC_FRAME_RELEASE (R315). A held asynchronous frame is sent once the fabric slot window closes. -/
  | asyncFrameRelease (p : Nat)
  /-- MEMBER_LOST (R319). A member ID absent from routes for 16 cycles is logged. -/
  | memberLost (c : Nat)
  /-- SIGNAL_STALE (R324). An import block missing for SIG_AGE_MAX boundaries marks its source stale. -/
  | signalStale (i : Nat)
  /-- EPOCH_STAGE (R326). Work item starting an epoch as initiator. -/
  | epochStage (it : Item)
  /-- EPOCH_COMMIT (R329). Work item committing the epoch in progress. -/
  | epochCommit (it : Item)
  /-- EPOCH_OFFER (R327). A received OFFER starts staging of the new image. -/
  | epochOffer (e init : Nat) (auto : Bool) (members : List Nat) (candle : List Byte)
  /-- CFG_XFER (R326). A received image fragment is stored in the inactive area. -/
  | cfgXfer (dest k total : Nat) (bytes : List Byte)
  /-- EPOCH_NEED (R326). A received NEED makes the initiator resend fragments. -/
  | epochNeed (from_ : Nat) (ks : List Nat)
  /-- STAGE_DONE (R327). A staged image finishes verification and checks, reporting READY or FAIL. -/
  | stageDone (body : ImageBody) (told : List Refused) (giveUp : Bool)
  /-- EPOCH_READY_RECEIVED (R328). The lantern receives a READY and issues COMMIT once all are ready. -/
  | epochReadyReceived (e from_ : Nat) (nReq : Option Nat)
  /-- EPOCH_FAIL (R328). The lantern receives a FAIL and aborts the epoch. -/
  | epochFail (e from_ code : Nat)
  /-- COMMIT_RECEIVED (R327). A member in READY receives COMMIT and becomes COMMITTED. -/
  | commitReceived
  /-- EPOCH_ABORT (R327). A received ABORT discards the staged image. -/
  | epochAbort (e cause : Nat) (more : List Nat)
  /-- EPOCH_READY_TIMEOUT (R327). No COMMIT or ABORT within EPOCH_TIMEOUT of READY discards the image. -/
  | epochReadyTimeout
  /-- EPOCH_OFFER_TIMEOUT (R328). No COMMIT issued within EPOCH_TIMEOUT of the OFFER aborts the epoch. -/
  | epochOfferTimeout
  /-- LAND_MAP_SEND (R335). The lit twin sends its landing map at UL_END plus 0.2 us. -/
  | landMapSend
  /-- LAND_MAP (R340). The pilot compares the received landing map and resynchronises differing axes. -/
  | landMap (fr : List Byte)
  /-- DL_COPY (R341). The pilot compares a copied downlink frame with its own records. -/
  | dlCopy (fr : List Byte)
  /-- SELF_TEST_START (R342). MM_MAX mismatches within MM_WIN start a self-test of both twins. -/
  | selfTestStart
  /-- SELF_TEST (R342). Self-test results are exchanged and a twin steps down. -/
  | selfTest (own : Bool)
  /-- HB (R338). A received twin heartbeat frame updates partner state and wick agreement. -/
  | hb (serial role cstate prefix_ phase test : Nat) (act names : Bool)
  /-- STATE (R343). A received state transfer chunk is stored for installation. -/
  | stateChunk (x : XferItem)
  /-- TW_MSG (R446). A twin-link MSG frame is delivered to ring 13 or to HLM. -/
  | twMsg (answer : Bool) (code : Nat) (bytes : List Byte)
  /-- PARTNER_ACT_CHANGE (R337). The partner's wick pair changes level. -/
  | partnerActChange (a b : Bool)
  /-- ACT_RAISE (R337). After 2 us of partner ACT deasserted the twin raises ACT and takes over. -/
  | actRaise
  /-- WICK_CONFLICT (R337). Both ACT lines asserted for 200 ns make the higher serial drop ACT. -/
  | wickConflict
  /-- WICK_FAULT (R338). An invalid, readback or disagreeing wick sets INHIBIT. -/
  | wickFault (cause : Nat)
  /-- CYC_STALL (R344). CYC not beginning a cycle 2 us after due drops ACT and faults. -/
  | cycStall
  /-- HB_LOST (R347). The partner HB pin silent for 3 cycles is logged. -/
  | hbLost
  /-- TWIN_LINK (R348). Loss or return of twin-link lock stops or resumes comparison. -/
  | twinLink (up : Bool) (txLat rxLat : Nat)
  /-- START_WAIT (R350). TW down and partner deasserted for 5 s make an ALONE twin LIT. -/
  | startWait
  /-- HANDOVER (R349). A write of HANDOVER requests a planned handover. -/
  | handover
  /-- HANDOVER_ACT_DROP (R349). The lit twin drops ACT 100 ns after DL_END of the request cycle. -/
  | handoverActDrop
  /-- REQUALIFY (R350). A write of REQUALIFY moves an UNFIT twin to PROBATION. -/
  | requalify
  /-- TWU_ACCEPT (R353). A write of the newcomer's serial accepts it. -/
  | twuAccept (v : Word)
  /-- PEER_ACCEPTED (R353). 65,536 clean cycles accept a newcomer automatically. -/
  | peerAccepted (byHost : Bool)
  /-- IMAGE_ADOPT (R352). A twin newcomer finishes receiving and verifying the partner's image. -/
  | imageAdopt (bs : List Byte) (body : ImageBody) (told : List Refused)
  /-- PEER_WRITE (R429). A peer-record flash write completes or fails. -/
  | peerWrite (ok0 ok1 other : Bool)
  /-- ISLAND_START (R363). Both safety channels pass their checks and the island enters NORMAL. -/
  | islandStart (crcA crcB : Word) (testOk : Bool)
  /-- SFI_EVALUATION (R360). At UL_END both safety channels evaluate inputs, frames and positions. -/
  | sfiEvaluation
  /-- POS_DISC (R368). P1 and P2 disagreeing for N_DISC cycles applies the reaction. -/
  | posDisc (k : Nat)
  /-- SFI_CROSS_COMPARE (R361). At E the channels exchange and compare their results. -/
  | sfiCrossCompare (agree delivered same : Bool)
  /-- SCA_CLOCK (R361). SCB sees no SCA tick for 3 periods. -/
  | scaClock
  /-- SCB_CLOCK (R361). SCA sees no SCB tick for 3 periods. -/
  | scbClock
  /-- CONN_LOST (R375). A safe connection watchdog expires. -/
  | connLost (c : Nat)
  /-- SS1_TIMEOUT (R370). T_SS1 or T_SS1_MAX elapses and STO is applied. -/
  | ss1Timeout (a : Nat)
  /-- SBC_ENGAGE (R366). The brake is engaged T_SBC after the torque permit goes to 0. -/
  | sbcEngage (a : Nat)
  /-- SAFE_INPUT_CHANGE (R378). A safe input pin reaches a new filtered level. -/
  | safeInputChange (k : Nat) (chanB lvl : Bool)
  /-- INPUT_DISC (R378). Pins disagreeing beyond T_DISC latch a discrepancy. -/
  | inputDisc (k : Nat)
  /-- OUT_READBACK (R379). A safe output readback mismatch switches the pair off or faults the island. -/
  | outReadback (k : Nat) (chanB : Bool)
  /-- OUTPUT_TEST_PULSE (R379). An on safe output pulses off every TEST_T and checks readback. -/
  | outputTestPulse (k : Nat) (seen : Bool)
  /-- SAFE_RESET (R381). A two-pin reset edge clears latched demands whose sources are inactive. -/
  | safeReset (chanB lvl : Bool)
  /-- RESET_STUCK (R381). A reset pin still active 2 s after a reset blocks further resets. -/
  | resetStuck
  /-- POWER_ON (R391). VIN at or above 4.35 V for 10 ms starts regulators, clocks, fuse sensing and SRAM wipe into BOOT. -/
  | powerOn (mv : Nat) (por : Bool) (sel : Nat)
  /-- DRAM_TRAINING_DONE (R395). DRAM training completes and BOOT passes to WIPE or FAULT. -/
  | dramTrainingDone (sramOk ok : Bool)
  /-- DRAM_WIPE_DONE (R401). The DRAM wipe and read-back complete and WIPE passes to LOAD or FAULT. -/
  | dramWipeDone (ok : Bool) (ms : Nat)
  /-- IMAGE_READ_DONE (R421). A candidate image has been read into DRAM and VERIFY begins. -/
  | imageReadDone
  /-- IMAGE_VERIFY_DONE (R421). Verification ends and the image is applied or refused. -/
  | imageVerifyDone (body : ImageBody) (told : List Refused)
  /-- VIN_LOW (R392). VIN below 4.40 V for 10 us makes a running controller DEGRADED. -/
  | vinLow (mv : Nat)
  /-- VIN_LOW_CLEAR (R392). VIN at or above 4.45 V for 100 ms ends the low condition. -/
  | vinLowClear (mv : Nat)
  /-- VIN_HIGH (R392). VIN above 18.5 V is reported. -/
  | vinHigh (mv : Nat)
  /-- BROWNOUT (R392). VIN below 4.20 V resets the device. -/
  | brownout (mv : Nat)
  /-- OVERVOLT (R392). VIN above 20 V turns regulators off and resets. -/
  | overvolt (mv : Nat)
  /-- RAIL (R392). A core, IO or AUX rail out of window resets. -/
  | railReset (rail : Nat)
  /-- THERMAL (R393). A sensor above Tj max plus 10 C for 1 ms resets and holds reset. -/
  | thermalReset
  /-- CLOCK (R393). Loss of the crystal or SYS PLL resets. -/
  | clockReset (sel : Nat)
  /-- PIN (R393). RESET_N low for at least 1 us resets. -/
  | pinReset (ns sel : Nat)
  /-- PEM_RESET (R393). A keyed write of GO makes a SOFT reset. -/
  | pemReset (v : Word) (sel : Nat)
  /-- LIFECYCLE_RESET (R406). 1 ms after transition fuse writes the device resets. -/
  | lifecycleReset (sel : Nat)
  /-- LEDGER_EVALUATION (R397). Every 10 us the ledger admits queued loads within Q_BUDGET. -/
  | ledgerEvaluation (mv : Nat) (ma : List Nat)
  /-- ENC_RAMP_END (R398). An encoder output finishes its 1 ms ramp and counts as on. -/
  | encRampEnd (k : Nat)
  /-- ENC_CUT (R399). An output in limit for 8 us is cut off. -/
  | encCut (k : Nat)
  /-- ENC_RETRY_DUE (R399). 100 ms after a cut-off the output requests the ledger again. -/
  | encRetryDue (k : Nat)
  /-- ENC_OVERVOLT (R399). ENCV_OUT above 5.9 V cuts and latches all outputs. -/
  | encOvervolt (mv : Nat)
  /-- ENC_TOTAL (R399). Output currents above 1.2 A for 10 ms are logged. -/
  | encTotal (ma : Nat)
  /-- ENC_RETRY (R399). A write of RETRY restarts a latched output through the ledger. -/
  | encRetry (v : Word)
  /-- TOKEN_TRANSITION (R406). An applied TRANSITION token writes the life-cycle fuses. -/
  | tokenTransition
  /-- TOKEN_KEY_ADD (R406). An applied KEY_ADD token fuses a new OEM key hash. -/
  | tokenKeyAdd
  /-- TOKEN_KEY_REVOKE (R406). An applied KEY_REVOKE token revokes a key slot. -/
  | tokenKeyRevoke
  /-- IMAGE_ADOPTED (R427). An adopted lantern image finishes transfer and checks and the controller restarts from LOAD. -/
  | imageAdopted (body : ImageBody) (told : List Refused)
  /-- ADOPT_TIMEOUT (R427). An adoption not complete within 10 s is refused. -/
  | adoptTimeout
  /-- FLASH_PROGRAM_SLOT (R428). GO with a slot target erases, programs and reads back a flash slot. -/
  | flashProgramSlot (xb slotB : Bool) (firm : FirmSec)
  /-- FLASH_ERASE_PEER (R428). GO with target 2 erases the peer-record region. -/
  | flashErasePeer (xb : Bool)
  /-- FLASH_DONE (R428). A flash operation completes with its result. -/
  | flashDone (fail : Nat) (left : List Byte)
  /-- PERST_N (R436). PERST_N resets the PCI Express endpoint only. -/
  | perstN
  /-- PCIE_LINK (R454). The PCI Express link goes up or down. -/
  | pcieLink (up : Bool) (speed width : Nat)
  /-- BAR2_ACCESS (R439). A BAR2 access reaches DRAM or is refused whole. -/
  | bar2Access (off len : Nat) (data : Option (List Byte)) (aer : Option Nat)
  /-- MSIX_MESSAGE (R442). A due or pending MSI-X message is sent once nothing holds it. -/
  | msixMessage (v : Nat)
  /-- POST (R444). A write of POST moves a mailbox channel from IDLE to POSTED. -/
  | postMsg (c : Nat)
  /-- RELEASE (R444). A write of RELEASE returns an ACKED channel to IDLE. -/
  | releaseMsg (c : Nat)
  /-- MAILBOX_TAKE (R444). The receiver takes a posted message and the channel becomes BUSY. -/
  | mailboxTake (c : Nat)
  /-- ECHO (R445). Mailbox operation returning the message itself. -/
  | echoOp (c : Nat)
  /-- WORK (R445). Mailbox operation serving one work item, acknowledged at completion. -/
  | workOp (c : Nat)
  /-- SIGNAL_READ (R445). Mailbox operation returning global signal values. -/
  | signalRead (c : Nat)
  /-- INFO (R445). Mailbox operation returning firmware, ID, role, epoch and candle. -/
  | infoOp (c : Nat)
  /-- TWIN_SEND (R446). Channel 4 SEND delivers a payload to the partner's ring 13. -/
  | twinSend
  /-- FABRIC_SEND (R446). Channel 5 SEND delivers a payload to a controller's ring 13. -/
  | fabricSend
  /-- FABRIC_MSG (R472). A received fabric MSG frame is placed in ring 13 or taken by HLM. -/
  | fabricMsg (from_ : Nat) (answer : Bool) (code : Nat) (bytes : List Byte)
  /-- DEMAND (R385). Channel 6 request placing a safety function demand. -/
  | demandReq (fw : Option (List Byte))
  /-- WITHDRAW (R385). Channel 6 request withdrawing the host's demands. -/
  | withdrawReq (fw : Option (List Byte))
  /-- DIAG_READ (R447). Service-port command reading BAR0 words. -/
  | diagRead (a n : Nat)
  /-- LOG_READ (R447). Service-port command reading event records. -/
  | logRead (n : Nat)
  /-- TOKEN (R447). Service-port command applying a life-cycle token. -/
  | tokenCmd (token : List Byte)
  /-- FLASH (R447). Service-port command running a flash operation. -/
  | flashCmd (fl tg : Nat) (firm : FirmSec)
  /-- KICK (R448). A write of MBX_DB_IN_SET kicks a command ring. -/
  | kickRing (r : Nat)
  /-- DB_OUT_SET (R448). A write sets free DB_OUT bits. -/
  | dbOutSet (v : Word)
  /-- DB_OUT_CLR (R448). A write clears free DB_OUT bits. -/
  | dbOutClr (v : Word)
  /-- SOURCE_ARRIVAL (R450). An event router source input arrives, setting PENDING and counting. -/
  | sourceArrival (n : Nat) (lvl : Bool)
  /-- CLAIM (R451). A read of EVR_CLAIMk claims the lowest eligible source. -/
  | claimSrc (k : Nat)
  /-- CLAIM_BY_VECTOR (R451). A read of EVR_CLAIMk_Vv claims the lowest eligible source of vector v. -/
  | claimByVector (k v : Nat)
  /-- COMPLETE (R452). A write of EVR_COMPLETEk ends a claim or is ignored. -/
  | completeSrc (k : Nat) (v : Word)
  /-- MASK_SET (R450). A write masks event sources. -/
  | maskSet (w : Nat) (v : Word)
  /-- MASK_CLR (R450). A write unmasks event sources. -/
  | maskClr (w : Nat) (v : Word)
  /-- PEND_SET (R450). A write sets PENDING as an arrival. -/
  | pendSet (w : Nat) (v : Word)
  /-- PEND_CLR (R450). A write clears PENDING. -/
  | pendClr (w : Nat) (v : Word)
  /-- PROD_WRITE (R458). A host write of a command ring producer index is accepted or refused. -/
  | prodWrite (r : Nat) (v : Word)
  /-- CONS_WRITE (R458). A host write of a consumer index is accepted or refused. -/
  | consWrite (r : Nat) (v : Word)
  /-- ITEM_TAKE (R460). WKS takes command-ring entries on a kick or boundary and copies them on chip. -/
  | itemTake
  /-- ITEM_PREPARE (R464). A free supervisor core takes a ready item and checks it. -/
  | itemPrepare (c : Nat)
  /-- ITEM_STAGE (R464). Preparation ends and the item is staged, delayed, held by LAU or refused. -/
  | itemStage (c : Nat)
  /-- COMPLETION_WRITE (R467). A completion entry waiting on chip is written once the completion ring has room. -/
  | completionWrite
  /-- SIGNAL_WRITE (R468). Work item writing local signals. -/
  | signalWrite (it : Item)
  /-- LOG_MARK (R468). Work item logging a mark value. -/
  | logMark (it : Item)
  /-- CAPTURE_ARM (R481). Work item arming a capture channel. -/
  | captureArm (it : Item)
  /-- CAPTURE_DISARM (R482). CAPTURE_ARM with MODE DISARM returns a channel to IDLE. -/
  | captureDisarm (it : Item)
  /-- CAPTURE_DONE (R482). POST cycles after the trigger the descriptor is posted. -/
  | captureDone (c : Nat)
  /-- CAPTURE_FORCED (R482). AUTO_T cycles without a trigger force one. -/
  | captureForced (c : Nat)
  /-- EVENT_RECORD_WRITE (R486). ELG drains an event from its queue into the log. -/
  | eventRecordWrite
  /-- LIMITER_TOKEN (R491). A limiter gains a token every PERIOD base cycles. -/
  | limiterToken (l : Nat)
  /-- RESTART (R492). A write of RESTART starts a new event log at the next boundary. -/
  | elgRestart
  /-- CURSOR_WRITE (R494). A write of ELG_CURSOR moves the window unless out of range. -/
  | cursorWrite (v : Word)
  /-- WINDOW_READ (R494). A read of ELG_WIN7 advances the cursor. -/
  | windowRead
  /-- SPARE_TEST_TEST (R507). SPARE_TEST with ACTION TEST tests a named spare. -/
  | spareTestTest (it : Item)
  /-- SPARE_TEST_ROTATE (R507). SPARE_TEST with ACTION ROTATE swaps an in-service unit for a spare. -/
  | spareTestRotate (it : Item)
  /-- SPARE_TEST_RETURN (R507). SPARE_TEST with ACTION RETURN moves a unit from OUT to TEST. -/
  | spareTestReturn (it : Item)
  /-- SPARE_TEST_DONE (R502). A unit's test ends and it becomes a ready spare or OUT. -/
  | spareTestDone (kind unit : Nat) (pass : Bool)
  /-- SPARE_ROTATION (R508). Every ROTATE_H the longest-serving engine, and less often the core, is rotated out. -/
  | spareRotation
  /-- CORE_WATCHDOG (R504). A core missing its check-in for 100 us leaves service. -/
  | coreWatchdog (c : Nat) (missed : Bool)
  /-- CORE_FIRMWARE_LOADED (R504). A brought-in core has loaded firmware and starts taking items. -/
  | coreFirmwareLoaded (c : Nat)
  /-- SCRUB_PASS (R505). HLM scrubs every on-chip store every 2 s, correcting and repairing rows. -/
  | scrubPass (errs : List (Nat × Nat × Nat × Nat × Bool))
  /-- WEAR_MEASUREMENT (R509). Every 2^20 cycles each block's oscillator loss is measured. -/
  | wearMeasurement (losses : List Nat)
  /-- THERMAL_READ (R510). The thermal sensors are read every 10 us. -/
  | thermalRead (temps : List Int)
  /-- HEALTH_REPORT (R511). Every 1,024 cycles a health report is formed and published to ring 12, twin and fabric. -/
  | healthReport
  /-- INJECTION_ARM (R514). A write of ARM checks and arms an error injection slot. -/
  | injectionArm (i : Nat) (v : Word)
  /-- FABRIC_LINK_CHANGE (R316). FB0 or FB1 gains or loses block lock, changing FBR_STATUS.LINK, the LINKS flags, the HELLO delay fields and the wrap behaviour. -/
  | fabricLinkChange (p : Nat) (up : Bool) (txLat rxLat : Nat)
  /-- THERMAL_RESET_RELEASE (R393). Every thermal sensor falls below Tj maximum minus 5 C and the held thermal reset is released into BOOT. -/
  | thermalResetRelease (sel : Nat)
  /-- SFI_SUPPLY_TRIP (R363). The supply monitor of safety channel SCA or SCB trips and the island enters FAULT with cause SUPPLY_A or SUPPLY_B. -/
  | sfiSupplyTrip (chanB : Bool)
  /-- FORWARDED_WORK_ITEM (R339). The pilot receives over TW a work item forwarded by the lit twin and serves it at the same boundary without posting a completion. -/
  | forwardedWorkItem (it : Item)
  /-- PCIE_CONFIG_WRITE (R442). A PCI Express configuration write changes Bus Master Enable, MSI-X enable or function mask, or the power state, releasing or holding MSI-X messages. -/
  | pcieConfigWrite (w : PcieWrite)
  /-- ADOPTION_REQUEST (R427). The lantern receives a controller's request for its active image and starts sending it in CFG_XFER frames. -/
  | adoptionRequest (from_ : Nat)
deriving DecidableEq, Repr

end Sys2Proof
end

