-- ==== Sys2Proof/Decode.lean ====
section
/-! DEFINITION. Decode.lean: the commands that words spell. The command table gives no row any bits, so no word spells
a command. -/

namespace Sys2Proof

/-- The command that the word `w` of `nbits` bits spells: the table gives bits to no row, so none. -/
def decodeTableWord (_nbits _w : Nat) : Option Instr := none

end Sys2Proof
end

