-- ==== Sys2Proof/Machine/ProfileCore.lean ====
section
/-! DEFINITION. Machine/ProfileCore.lean: the trapezoid, its peak, joints, replans, stops and the evaluation of a plan
(R189 to R200, R536). -/

namespace Sys2Proof.Machine

/-- One second in units of 2^-16 ns. -/
def secTicks : Nat := 1000000000 * 65536

/-- Duration of a speed change `dv` at rate `a`, to the nearest 2^-16 ns. -/
def dvTicks (dv a : Nat) : Nat := (dv * (1000000000 * 256) * 2 + a) / (2 * (max a 1))

/-- Duration of a distance at speed `v`. -/
def cruiseTicks (d v : Nat) : Nat := (d * (1000000000 * 256) * 2 + v) / (2 * (max v 1))

/-- The larger square less the smaller, or 0. -/
def sqDiff (b a : Nat) : Nat := b * b - a * a

/-- Phase distance (v_b^2 - v_a^2) / (2a) of R193, to the nearest 2^-32 count. -/
def phaseDist (b a r : Nat) : Nat := (sqDiff b a + r) / (2 * (max r 1))

/-- Deceleration distance from `v` to `ve` on D2 above V_BRK and D1 below (R192). -/
def decDist (rs : Ramp) (v ve : Nat) : Nat :=
  phaseDist v (max ve (min v rs.vbrk)) rs.d2 + phaseDist (min v rs.vbrk) ve rs.d1

/-- Acceleration distance from `v0` to `v` on A1 and A2 (R192). -/
def accDist (rs : Ramp) (v0 v : Nat) : Nat :=
  phaseDist (min v rs.vbrk) v0 rs.a1 + phaseDist v (max v0 (min v rs.vbrk)) rs.a2

/-- The largest speed from `lo` to `hi` that `ok` admits, for an `ok` that admits a lower set; `lo` if none. -/
def largest (ok : Nat → Bool) : Nat → Nat → Nat → Nat
  | 0, lo, _ => lo
  | fuel + 1, lo, hi =>
    if hi ≤ lo then lo
    else
      let m := (lo + hi + 1) / 2
      if ok m then largest ok fuel m hi else largest ok fuel lo (m - 1)

/-- The peak of R193: V_MAX if the length allows it, else the largest speed whose phase distances fit the length. -/
def peakSpeed (rs : Ramp) (len v0 ve vmax : Nat) : Nat :=
  let fits := fun v => decide (accDist rs v0 v + decDist rs v ve ≤ len)
  if fits vmax then vmax else largest fits 70 v0 vmax

/-- A piece of motion: speeds at its ends, rate (positive up, negative down), distance. -/
structure Piece where
  va : Nat
  vb : Nat
  r  : Int
  d  : Nat
deriving DecidableEq, Repr

/-- The deceleration pieces from `v` to `ve`. -/
def decPieces (rs : Ramp) (v ve : Nat) : List Piece :=
  let m := max ve (min v rs.vbrk)
  let l := min v rs.vbrk
  (if m < v then [{ va := v, vb := m, r := -(rs.d2 : Int), d := phaseDist v m rs.d2 }] else []) ++
  (if ve < l then [{ va := l, vb := ve, r := -(rs.d1 : Int), d := phaseDist l ve rs.d1 }] else [])

/-- The acceleration pieces from `v0` to `v`. -/
def accPieces (rs : Ramp) (v0 v : Nat) : List Piece :=
  let l := min v rs.vbrk
  let m := max v0 l
  (if v0 < l then [{ va := v0, vb := l, r := (rs.a1 : Int), d := phaseDist l v0 rs.a1 }] else []) ++
  (if m < v then [{ va := m, vb := v, r := (rs.a2 : Int), d := phaseDist v m rs.a2 }] else [])

/-- Total distance of pieces. -/
def piecesDist (ps : List Piece) : Nat := ps.foldl (fun n p => n + p.d) 0

/-- The pieces of a segment of length `len` entered at `v0` and left at `ve`, or none where the entry speed cannot come
down to the end speed within the length (R192, R193, R536). -/
def segPieces (rs : Ramp) (len v0 ve vmax : Nat) : Option (List Piece) :=
  let pre := if vmax < v0 then decPieces rs v0 vmax else []
  let v1 := min v0 vmax
  let room := len - piecesDist pre
  if len < piecesDist pre + decDist rs v1 ve then none
  else
    let vp := peakSpeed rs room v1 ve vmax
    let up := accPieces rs v1 vp
    let dn := decPieces rs vp ve
    let rest := room - piecesDist up - piecesDist dn
    if rest = 0 then some (pre ++ up ++ dn)
    else if vp = vmax ∨ dn = [] then some (pre ++ up ++ [{ va := vp, vb := vp, r := 0, d := rest }] ++ dn)
    else
      -- phase 3 is absent: the last phase takes the residue (R193)
      some (pre ++ up ++ dn.dropLast ++ (dn.getLast?.toList.map (fun p => { p with d := p.d + rest })))

/-- Duration of a piece. A residue of rounding is taken at the mean speed of the piece. -/
def pieceTicks (p : Piece) : Nat :=
  if p.r = 0 then cruiseTicks p.d p.va
  else
    let base := dvTicks (max p.va p.vb - min p.va p.vb) p.r.natAbs
    let d0 := phaseDist (max p.va p.vb) (min p.va p.vb) p.r.natAbs
    base + (if d0 < p.d then cruiseTicks (p.d - d0) (max 1 ((p.va + p.vb) / 2)) else 0)

/-- Pieces as phases from time `t` and position `p` in direction `dir`; answers the phases and where they end. -/
def layPieces (dir : Int) : List Piece → Nat → Int → List Phase × Nat × Int
  | [], t, p => ([], t, p)
  | q :: qs, t, p =>
    let (rest, te, pe) := layPieces dir qs (t + pieceTicks q) (p + dir * q.d)
    ({ t := t, p := p, v := dir * q.va, a := dir * q.r } :: rest, te, pe)

/-- Marks the first phase as the start after a reversal. -/
def markRev : List Phase → List Phase
  | [] => []
  | ph :: t => { ph with rev := true } :: t

/-- The rest that ends a plan. -/
def restPhase (t : Nat) (p : Int) : Phase := { t := t, p := p, v := 0, a := 0 }

/-- Deceleration to rest from speed `v` (signed) on D2 and D1 to V_STOP (R196, R199). -/
def decelToRest (rs : Ramp) (vstop : Nat) (t : Nat) (p v : Int) : List Phase × Nat × Int :=
  layPieces (if v < 0 then -1 else 1) (decPieces rs v.natAbs (min vstop v.natAbs)) t p

/-- Deceleration to rest at the constant rate `q` (R199). -/
def decelQuick (q : Nat) (t : Nat) (p v : Int) : List Phase × Nat × Int :=
  layPieces (if v < 0 then -1 else 1)
    [{ va := v.natAbs, vb := 0, r := -(q : Int), d := phaseDist v.natAbs 0 q }] t p

/-- The return of R536 from rest at `p` to the end position. Where V_START would pass it again, the entry speed is the largest from
which it does not, so that the segment ends. -/
def goBack (rs : Ramp) (sg : Seg) (t : Nat) (p : Int) : List Phase × Nat :=
  let len := (sg.target - p).natAbs
  let vin := largest (fun v => decide (decDist rs v (min sg.vstop v) ≤ len)) 70 0 (min sg.vstart sg.cruise)
  match segPieces rs len vin (min sg.vstop vin) sg.cruise with
  | some ps =>
    let (ph, te, _) := layPieces (if sg.target < p then -1 else 1) ps t p
    (ph, te)
  | none => ([], t)

/-- The end position is passed: the axis comes to rest from (p, v) on D2 and D1, then returns from rest (R196, R536). -/
def passAndReturn (rs : Ramp) (sg : Seg) (t : Nat) (p v : Int) : List Phase × Nat :=
  let (ph1, t1, p1) := decelToRest rs sg.vstop t p v
  if p1 = sg.target then (ph1, t1)
  else
    let (ph2, t2) := goBack rs sg t1 p1
    (ph1 ++ markRev ph2, t2)

/-- A segment from rest at `p`, entered at V_START and left at `ve` (R192); none where it cannot come down to `ve` in its length. -/
def fromRest (rs : Ramp) (sg : Seg) (t : Nat) (p : Int) (ve : Nat) : Option (List Phase × Nat) :=
  let dir : Int := if sg.target < p then -1 else 1
  (segPieces rs (sg.target - p).natAbs (min sg.vstart sg.cruise) (min ve sg.cruise) sg.cruise).map (fun ps =>
    let (ph, te, _) := layPieces dir ps t p
    (ph, te))

/-- Plans one position segment from the state (p, v) at time `t`, left at speed `ve` at the target; `atRest` tells that
the segment ends at rest. The cases are those of R195, R196 and R536; a segment that passes its end position ends at rest there. -/
def planSeg (rs : Ramp) (sg : Seg) (t : Nat) (p v : Int) (ve : Nat) (atRest : Bool) : Seg :=
  let dir : Int := if sg.target < p then -1 else 1
  let len := (sg.target - p).natAbs
  let fin (ph : List Phase) (te : Nat) : Seg :=
    { sg with start := p, ve := ve, phases := ph ++ (if atRest then [restPhase te sg.target] else []), tEnd := some te }
  let back (v0 : Int) : Seg :=
    let (ph, te) := passAndReturn rs sg t p v0
    { sg with start := p, ve := 0, phases := ph ++ [restPhase te sg.target], tEnd := some te }
  if v = 0 then
    if len = 0 then { (fin [] t) with ve := 0 }
    else match fromRest rs sg t p (if atRest then sg.vstop else ve) with
      | some (ph, te) => fin ph te
      | none => back (dir * (min sg.vstart sg.cruise : Nat))
  else
    let ahead := decide (dir * v > 0) && decide (len ≠ 0)
    let endV := if atRest then min sg.vstop sg.cruise else ve
    match (if ahead then segPieces rs len v.natAbs endV sg.cruise else none) with
    | some ps =>
      let (ph, te, _) := layPieces dir ps t p
      fin ph te
    | none => back v

/-- Plans a velocity segment toward the signed speed `w` (R191). -/
def planVel (rs : Ramp) (sg : Seg) (t : Nat) (p v w : Int) : Seg :=
  let go (t1 : Nat) (p1 : Int) (s0 : Nat) (rev : Bool) : List Phase :=
    let dir : Int := if w < 0 then -1 else 1
    let k := w.natAbs
    let ps := if s0 ≤ k then accPieces rs s0 k else decPieces rs s0 k
    let (ph, te, pe) := layPieces dir ps t1 p1
    let all := ph ++ [{ t := te, p := pe, v := w, a := 0 }]
    if rev then markRev all else all
  if w = 0 then
    let (ph, te, pe) := decelToRest rs sg.vstop t p v
    { sg with start := p, phases := ph ++ [restPhase te pe], tEnd := some te, target := pe }
  else if v = 0 then { sg with start := p, phases := go t p (min sg.vstart w.natAbs) false, tEnd := none }
  else if 0 < v * w then { sg with start := p, phases := go t p v.natAbs false, tEnd := none }
  else
    let (ph, t1, p1) := decelToRest rs sg.vstop t p v
    { sg with start := p, phases := ph ++ go t1 p1 (min sg.vstart w.natAbs) true, tEnd := none }

/-- Direction of a segment that starts at `p`. -/
def segDir (p : Int) (sg : Seg) : Int := if sg.target < p then -1 else 1

/-- Entry speeds a queue admits, from its last segment backward (R195 steps 1 to 3): for each segment, the largest speed
at which it may be entered. `p` is where the first starts. -/
def entryCaps (rsOf : Nat → Ramp) : Int → List Seg → List Nat
  | _, [] => []
  | p, sg :: rest =>
    let caps := entryCaps rsOf sg.target rest
    let rs := rsOf sg.rset
    let endV :=
      match rest with
      | [] => min sg.vstop sg.cruise
      | nx :: _ =>
        if segDir p sg = segDir sg.target nx ∧ sg.target ≠ nx.target
        then min (min sg.cruise nx.cruise) (caps.headD 0) else min sg.vstop sg.cruise
    let len := (sg.target - p).natAbs
    largest (fun v => decide (decDist rs v endV ≤ len)) 70 0 sg.cruise :: caps

/-- Marks the first phase of a queue as the start after a reversal. -/
def markQueue : List Seg → List Seg
  | [] => []
  | sg :: t => { sg with phases := markRev sg.phases } :: t

/-- Plans a queue from the state (p, v) at `t`, where v does not oppose the first segment (R195): joints at speed 0 between opposite
directions, otherwise the smaller cruise speed lowered by the backward and forward passes. -/
def planAhead (rsOf : Nat → Ramp) : Nat → Int → Int → List Seg → List Seg
  | _, _, _, [] => []
  | t, p, v, sg :: rest =>
    let rs := rsOf sg.rset
    match rest with
    | [] => [planSeg rs sg t p v 0 true]
    | nx :: _ =>
      let caps := entryCaps rsOf sg.target rest
      let same := decide (segDir p sg = segDir sg.target nx) && decide (sg.target ≠ nx.target)
      if same then
        let want := min (min sg.cruise nx.cruise) (caps.headD 0)
        let len := (sg.target - p).natAbs
        let v0 := if v = 0 then min sg.vstart sg.cruise else v.natAbs
        let joint := largest (fun w => decide (accDist rs v0 w ≤ len)) 70 (min v0 want) want
        let planned := planSeg rs sg t p v joint false
        planned :: planAhead rsOf (planned.tEnd.getD t) sg.target (segDir p sg * planned.ve) rest
      else
        let planned := planSeg rs sg t p v 0 true
        planned :: markQueue (planAhead rsOf (planned.tEnd.getD t) sg.target 0 rest)

/-- Plans a whole queue in blend mode from the state (p, v) at `t` (R195). Motion that opposes the first segment comes to rest on the
stop ramp of that segment, which starts from rest where the ramp ends. -/
def planQueue (rsOf : Nat → Ramp) (t : Nat) (p v : Int) : List Seg → List Seg
  | [] => []
  | sg :: rest =>
    if segDir p sg * v < 0 then
      let (ph, t1, p1) := decelToRest (rsOf sg.rset) sg.vstop t p v
      match markQueue (planAhead rsOf t1 p1 0 (sg :: rest)) with
      | [] => []
      | q :: r => { q with start := p, phases := ph ++ q.phases } :: r
    else planAhead rsOf t p v (sg :: rest)

/-- The setpoint in a phase at time `t` (R194), rounded to 2^-32 count. -/
def Phase.eval (ph : Phase) (t : Nat) : Setpt :=
  let tau : Int := ((t - ph.t : Nat) : Int)
  let d : Int := secTicks
  { p := ph.p + divRound (ph.v * tau * (2 ^ 8 * 2 * d) + ph.a * tau * tau * 2 ^ 16) (2 * d * d)
    v := ph.v + divRound (ph.a * tau * 2 ^ 8) d
    a := ph.a }

/-- The phase in force at time `t`: the last one that has started. -/
def phaseAt (t : Nat) : List Phase → Option Phase → Option Phase
  | [], acc => acc
  | ph :: rest, acc => if ph.t ≤ t then phaseAt t rest (some ph) else acc

/-- All phases of a plan in order. -/
def Pgn.phases (g : Pgn) : List Phase := if g.stop = [] then g.segs.flatMap (·.phases) else g.stop

/-- The setpoint of the plan at time `t`; the committed setpoint at rest where there is no plan. -/
def Pgn.eval (g : Pgn) (t : Nat) : Setpt :=
  match phaseAt t g.phases none with
  | some ph => ph.eval t
  | none => g.sp

/-- Shifts phases that start at or after `t` by `d` (R197). -/
def shiftPhases (t d : Nat) (ps : List Phase) : List Phase :=
  ps.map (fun ph => if t ≤ ph.t then { ph with t := ph.t + d } else ph)

/-- Shifts a whole plan in time from `t` on, the hold of a THIN axis (R197) or of a lost rotor (R201). -/
def Pgn.shift (g : Pgn) (t d : Nat) : Pgn :=
  { g with
    stop := shiftPhases t d g.stop
    segs := g.segs.map (fun sg => { sg with
      phases := shiftPhases t d sg.phases
      tEnd := sg.tEnd.map (fun e => if t ≤ e then e + d else e) }) }

/-- The reversal that a THIN axis has reached by `t` and not left (R197). -/
def revAt (t : Nat) (ps : List Phase) : Option Phase := ps.find? (fun ph => ph.rev && decide (ph.t ≤ t))

/-- Clears the reversal mark of the phase that starts at `t`. -/
def clearRev (t : Nat) (ps : List Phase) : List Phase :=
  ps.map (fun ph => if ph.t = t then { ph with rev := false } else ph)

/-- The setpoint waits at a reversal (R174, R197): one has been reached by `t`, and the motor, whose speed is given where it is W_REV or
more, still turns the old way. -/
def Pgn.waits (g : Pgn) (t : Nat) (w : Option Int) : Bool :=
  match revAt t g.phases, w with
  | some ph, some om => decide (om * (if ph.v = 0 then ph.a else ph.v) < 0)
  | _, _ => false

/-- Produces the setpoint for the actuation instant `t` (R194). `w` is the speed of a THIN axis that may hold a reversal. -/
def Pgn.produce (g : Pgn) (t : Nat) (w : Option Int) : Pgn :=
  if g.st = .held then { g with t0 := t }
  else
    match revAt t g.phases with
    | some ph =>
      if g.waits t w then
        let g1 := g.shift ph.t (t - ph.t)
        { g1 with sp := { p := ph.p, v := 0, a := 0 }, t0 := t }
      else
        let g1 : Pgn := { g with
          stop := clearRev ph.t g.stop
          segs := g.segs.map (fun sg => { sg with phases := clearRev ph.t sg.phases }) }
        { g1 with sp := g1.eval t, t0 := t }
    | none => { g with sp := g.eval t, t0 := t }

/-- The steepest deceleration of the plan in force at the state's instant (R199). -/
def Pgn.decelNow (g : Pgn) : Nat := if g.sp.a * g.sp.v < 0 then g.sp.a.natAbs else 0

/-- Ramp set and V_STOP of the stop ramp (R199): of the segment in progress, else of ramp set 0. -/
def Pgn.stopRamp (d : PgnDesc) (g : Pgn) : Ramp := d.ramp ((g.segs.head?.map (·.rset)).getD 0)

/-- From the state's instant on, the plan in force only decelerates and then rests. -/
def Pgn.toRest (g : Pgn) : Bool :=
  let later := g.phases.filter (fun ph => decide (g.t0 < ph.t))
  (phaseAt g.t0 g.phases none).toList.all (fun ph => decide (ph.v = 0 ∨ ph.a * ph.v < 0)) &&
    later.all (fun ph => decide (ph.v = 0 ∨ ph.a * ph.v < 0)) &&
    (match g.phases.getLast? with
     | some ph => decide (ph.v = 0 ∧ ph.a = 0)
     | none => false)

/-- Starts a stop from the committed setpoint on a ramp, or at a constant rate where one is given (R199, R200). A plan in force that
already decelerates to rest more steeply is kept, with the rate it had. -/
def Pgn.stopOn (rs : Ramp) (set : Nat) (quick : Option Nat) (cause : Nat) (g : Pgn) : Pgn :=
  let v := g.sp.v
  let rate := quick.getD (if rs.vbrk < v.natAbs then rs.d2 else rs.d1)
  if v = 0 then
    { g with st := .stopRamp, segs := [], stop := [restPhase g.t0 g.sp.p], stopCause := cause, stopSet := set, stopRate := quick.getD 0 }
  else if rate < g.decelNow ∧ g.toRest = true then
    { g with st := .stopRamp, segs := [], stop := g.phases, stopCause := cause
             stopSet := (g.segs.head?.map (·.rset)).getD g.stopSet }
  else
    let rate1 := max rate g.decelNow
    let steady := decide (quick.isSome ∨ rate < g.decelNow)
    let (ph, te, pe) := if steady then decelQuick rate1 g.t0 g.sp.p v else decelToRest rs rs.vstop g.t0 g.sp.p v
    { g with st := .stopRamp, segs := [], stop := ph ++ [restPhase te pe], stopCause := cause, waitStop := 0, stopSet := set
             stopRate := if steady then rate1 else 0 }

/-- Starts a stop on the stop ramp, or at QD where `quick` (R199). -/
def Pgn.startStop (d : PgnDesc) (quick : Bool) (cause : Nat) (g : Pgn) : Pgn :=
  g.stopOn (g.stopRamp d) ((g.segs.head?.map (·.rset)).getD 0) (if quick then some d.qd else none) cause

/-- The hard limit stop of R203: the plan is given up; the position to hold is taken with the feedback of its S. -/
def Pgn.hardStop (cause : Nat) (g : Pgn) : Pgn :=
  { g with st := .stopHard, segs := [], stop := [], hardPend := true, stopCause := cause }

/-- The position that a hard limit stop holds. -/
def Pgn.hardHold (p : Int) (g : Pgn) : Pgn := { g with stop := [restPhase g.t0 p], hardPend := false }

/-- Whether the plan has reached rest by the committed instant. -/
def Pgn.atRest (g : Pgn) : Bool :=
  decide (g.sp.v = 0) && decide (g.sp.a = 0) &&
    (match g.phases.getLast? with
     | some ph => decide (ph.t ≤ g.t0) && decide (ph.v = 0)
     | none => true)

/-- Whether a velocity segment runs. -/
def Pgn.velRunning (g : Pgn) : Bool := g.segs.any (fun sg => sg.vel.isSome)

/-- The end position of the last segment in the queue, or the setpoint position where there is none with an end (R191). -/
def Pgn.moveBase (g : Pgn) : Int :=
  if g.velRunning then g.sp.p
  else match g.segs.getLast? with
    | some sg => sg.target
    | none => g.sp.p

/-- A signed 64-bit value converted from user units (R189): times NUM / DEN, to the nearest 2^-32 count; none on
overflow. -/
def userConv (d : PgnDesc) (x : Int) : Option Int :=
  let y := divRound (x * d.unitNum) d.unitDen
  if y < -(2 ^ 63) ∨ 2 ^ 63 - 1 < y then none else some y

/-- A new segment with its speeds after V_OVR (R189). -/
def mkSeg (rs : Ramp) (target : Int) (vovr tag rset : Nat) : Seg :=
  let cr := if vovr = 0 then rs.vmax else vovr
  { target := target, cruise := cr, vstart := min rs.vstart cr, vstop := min rs.vstop cr, tag := tag, rset := rset,
    vovr := vovr }

/-- Serves a position move (R191, R195, R196): queued in blend mode, otherwise a replan from the committed state. -/
def Pgn.move (d : PgnDesc) (blend : Bool) (target : Int) (vovr tag rset : Nat) (g : Pgn) : Pgn :=
  let sg := mkSeg (d.ramp rset) target vovr tag rset
  if blend ∧ g.velRunning = false then
    let live := g.segs.filter (fun s => match s.tEnd with | some e => decide (g.t0 < e) | none => true)
    { g with st := .running, stop := [], segs := planQueue d.ramp g.t0 g.sp.p g.sp.v (live ++ [sg]), complete := false }
  else
    { g with st := .running, stop := [], segs := [planSeg (d.ramp rset) sg g.t0 g.sp.p g.sp.v 0 true], complete := false }

/-- Serves a velocity move (R191), which comes to rest exactly at a soft limit where one is given (R205). -/
def Pgn.moveVel (d : PgnDesc) (limit : Option Int) (w : Int) (tag rset : Nat) (g : Pgn) : Pgn :=
  let rs := d.ramp rset
  let sg0 := mkSeg rs g.sp.p 0 tag rset
  let sg := { sg0 with cruise := w.natAbs, vstart := min rs.vstart w.natAbs, vstop := min rs.vstop (max w.natAbs rs.vstop), vel := some w }
  let planned :=
    match limit with
    | some p => if w = 0 then planVel rs sg g.t0 g.sp.p g.sp.v w
                else planSeg rs { sg with target := p, soft := true } g.t0 g.sp.p g.sp.v 0 true
    | none => planVel rs sg g.t0 g.sp.p g.sp.v w
  { g with st := .running, stop := [], segs := [planned], complete := false }

/-- Sets the plan to rest at a position (R59 ENABLING to READY, R200 rank 1). -/
def Pgn.setRest (p : Int) (g : Pgn) : Pgn :=
  { g with st := .idle, segs := [], stop := [], sp := { p := p }, sp0 := { p := p }, limStop := false, complete := false, hardPend := false,
           lost := false, waitStop := 0 }

/-- Seeds the plan with a moving state (R198). -/
def Pgn.seed (p v : Int) (g : Pgn) : Pgn :=
  { g with segs := [], stop := [], sp := { p := p, v := v }, sp0 := { p := p, v := v } }

end Sys2Proof.Machine
end

