-- ==== Sys2Proof/Config.lean ====
section
/-! DEFINITION. Config.lean: the values the spec leaves open. The constants have no body, so no proof can learn what
they answer. -/

namespace Sys2Proof.Config

/-- A value the spec leaves open. Each use reads it at the present count of State.freeCtr and steps the count. -/
opaque freeValue : Nat → BitVec 64

/-- The number by which FUNC_DEMAND names the source of a demand; the spec gives none (R387). -/
opaque demandSource : Nat → Nat

/-- Spare rows of the SRAM macro of a unit code: one for every 48 rows, of a number of rows the spec does not give
(R499). -/
opaque spareRows : Nat → Nat

/-- offsetScaledLogVariance of the controller's own data set; the spec gives it no register and no value (R290). -/
opaque clockVariance : Nat

/-- The base period, in 1/64 ns, that the bytes of a LINE section state: EPOCH_STAGE compares it (R326), and the spec gives the
section no layout (R415). -/
opaque linePeriod : List (BitVec 8) → BitVec 32

/-- The code by which SELF_TEST names a passed or a failed result; the spec gives none (R356). -/
opaque selfTestCode : Bool → Nat

end Sys2Proof.Config
end

