-- ==== Sys2Proof/Machine/EngineState.lean ====
section
/-! DEFINITION. Machine/EngineState.lean: the state of one control engine and of the control engine array CEA (R131 to
R153). -/

namespace Sys2Proof.Machine

/-- A write on its way down the pipeline (R138): from instruction number `from_` on, the bits of `mask` of register
`reg` hold those of `val`. Registers are named by their codes (R133); 0x40 + a is accumulator a as it is read other
than by an accumulation; 0x1000 + w is word w of X memory. -/
structure PendWrite where
  from_ : Nat
  reg   : Nat
  mask  : Nat
  val   : Nat
deriving DecidableEq, Repr

/-- A job an engine runs (R150 to R153): its axis, its frame slot, when it was dispatched (CO-stamp), its kernel set,
whether its feedback is extrapolated, the class C2 half, and whether a swap or an epoch change takes effect. -/
structure Job where
  axis   : Nat
  frame  : Nat
  kset   : Nat
  start  : Nat
  extrap : Bool := false
  half   : Nat := 0
  swap   : Bool := false
  epoch  : Bool := false
deriving DecidableEq, Repr

/-- One control engine. `rf` holds the registers by code, as bits; `x` the scratch area of X memory; `fx` and `fy` the
X and Y parts of the running job's frame. `seq` counts executed instructions, `cost` clocks since dispatch. -/
structure Eng where
  st       : UnitState := .off
  job      : Option Job := none
  lastAxis : Nat := 0
  jobsNow  : Nat := 0               -- jobs completed in this base cycle
  jobsPrev : Nat := 0               -- jobs completed in the previous base cycle
  pc       : Nat := 0
  rf       : Tab Nat := []
  x        : Tab Word := []
  fx       : Tab Word := []
  fy       : Tab Word := []
  pend     : List PendWrite := []
  seq      : Nat := 0
  cost     : Nat := 0
  branch   : Option (Nat × Nat) := none   -- (target, delay slots still to run)
  slots    : Nat := 0               -- delay slots still to run of a Jcc that does not branch
  rep      : Nat := 0               -- repetitions of the next instruction still to run
  urgPend  : Bool := false
  ovrPend  : Bool := false
  urgDone  : Bool := false
  ovrDone  : Bool := false
  exited   : Bool := false          -- EXIT executed, writeback running
  resetting : Bool := false         -- stopped by the dispatcher, in its 16-clock reset (R147)
  faults   : List Nat := []         -- cycles of its engine faults (R502)
  inFrom   : Nat := 0               -- fabric cycle from which it has served
  inj      : Nat := 0               -- detectors of R515 (bit 0 for 0x05 to bit 3 for 0x08) that strike in this job (R537)
deriving DecidableEq, Repr

/-- A staged frame (R149 to R151). -/
structure FrameSlot where
  axis   : Nat
  half   : Nat := 0
  swap   : Bool := false
  epoch  : Bool := false
  extrap : Bool := false
  x      : Tab Word := []
  y      : Tab Word := []
  running : Bool := false
deriving DecidableEq, Repr

/-- A job in the ready queue (R38): its axis, the CO-stamp at which it became ready, the half, extrapolated or not. -/
structure ReadyJob where
  axis   : Nat
  ready  : Nat
  half   : Nat := 0
  extrap : Bool := false
  missed : Bool := false            -- STAGE_MISS logged for it
deriving DecidableEq, Repr

/-- The control engine array: engines, frame slots, the ready queue, the linked code and constants. -/
structure Cea where
  engs    : Tab Eng := []
  frames  : Tab FrameSlot := []
  ready   : List ReadyJob := []
  p       : Tab Word := []
  y       : Tab Word := []
  library : List Nat := []          -- kernel sets that are Quetric's library kernels
  order   : List Nat := []          -- staging order of axes (R149)
deriving DecidableEq, Repr

end Sys2Proof.Machine
end

