-- ==== Sys2Proof/Machine/HostState.lean ====
section
/-! DEFINITION. Machine/HostState.lean: the state of the host side: the event router EVR (R449 to R452), the
PCI Express endpoint and its MSI-X vectors (R436, R442), the mailboxes MBX (R443, R444) and the work
scheduler WKS (R457 to R470). -/

namespace Sys2Proof.Machine

/-- SENSE of an event router source (R449). -/
inductive Sense where
  | level | rising | falling | both
deriving DecidableEq, Repr

/-- SENSE from its two bits. -/
def Sense.ofCode : Nat → Sense
  | 0 => .level
  | 1 => .rising
  | 2 => .falling
  | _ => .both

/-- The two bits of SENSE. -/
def Sense.code : Sense → Nat
  | .level => 0
  | .rising => 1
  | .falling => 2
  | .both => 3

/-- One event router source (R449, R450). `input` is the level its owning block drives. -/
structure Src where
  sense    : Sense := .rising
  targets  : Nat := 0
  vec      : Nat := 0
  masked   : Bool := true
  pending  : Bool := false
  active   : Bool := false
  owner    : Nat := 0
  arrivals : Nat := 0
  input    : Bool := false
deriving DecidableEq, Repr

/-- Sources with no settings (R449): 0x000 to 0x00F and 0x1E0 to 0x1FF. -/
def srcReserved (n : Nat) : Bool := n < 0x10 || 0x1E0 ≤ n

/-- The source as it stands after reset (R455): LEVEL for the doorbell and ring levels, else RISING; masked. -/
def Src.reset (n : Nat) : Src :=
  if (0x120 ≤ n ∧ n ≤ 0x123) ∨ (0x1D0 ≤ n ∧ n ≤ 0x1DF) then { sense := .level } else {}

/-- The event router: its sources, which vectors were asserted at the last change, which messages are due and
which are held in the PBA (R442). -/
structure Evr where
  srcs     : Tab Src := []
  asserted : List Nat := []
  due      : List Nat := []
  pba      : List Nat := []
deriving DecidableEq, Repr

/-- The endpoint's configuration state (R434 to R436, R442). -/
structure Pcie where
  busMaster : Bool := false
  msixEn    : Bool := false
  funcMask  : Bool := false
  d3        : Bool := false
  bar0      : Nat := 0              -- addresses assigned to BAR0 and BAR2 (R438)
  bar2      : Nat := 0
  linkUp    : Bool := false
  speed     : Nat := 0
  width     : Nat := 0
deriving DecidableEq, Repr

/-- State of a mailbox channel (R444). -/
inductive MbState where
  | idle | posted | busy | acked
deriving DecidableEq, Repr

/-- The code of MBX_CHc_STAT.STATE. -/
def MbState.code : MbState → Nat
  | .idle => 0
  | .posted => 1
  | .busy => 2
  | .acked => 3

/-- A mailbox channel less its buffer, which lies in the register file (R444). `waitItem` is set while a WORK
item of the channel is not yet completed (R445), `waitSend` while a SEND waits for its answer (R446). -/
structure MbChan where
  st       : MbState := .idle
  op       : Nat := 0
  seq      : Nat := 0
  ackValid : Bool := false
  ackLen   : Nat := 0
  ackCode  : Nat := 0
  waitItem : Bool := false
  waitSend : Bool := false
  sentAt   : Nat := 0
deriving DecidableEq, Repr

/-- The mailboxes. -/
structure Mbx where
  chans   : Tab MbChan := []
  logCur  : Nat := 0      -- the cursor of the service port's LOG_READ (R494)
deriving DecidableEq, Repr

/-- Where a taken item stands (R464, R469, R470). -/
inductive Stage where
  | ready                       -- waits in its ready list
  | preparing (core : Nat) (start : Nat)  -- in preparation on a core since a clock
  | staged (cycle : Nat)        -- staged for a service boundary
  | delayed (cycle : Nat)       -- in the delay list, due at a cycle
  | heldLau                     -- held by LAU for an angle (R245)
  | serving                     -- served, its completion held (R59, R235, R326)
deriving DecidableEq, Repr

/-- An item taken and not yet completed. `seq` is its take order. -/
structure Taken where
  seq       : Nat
  item      : Item
  takeCycle : Nat
  stage     : Stage
  dueLate   : Bool := false
  laPrev    : Option Int := none    -- held by LAU: the line angle at the last S, while solvable (R245)
  startAt   : Option Nat := none    -- time at which the move of the item begins (R245)
  pend      : Bool := false         -- served once; its transition waits for the next boundary, and it holds its flow (R60)
deriving DecidableEq, Repr

/-- A completion entry on chip, not yet written (R467): its ring, or 0x80 plus the mailbox channel; the take order and the
flow of its item; whether it is the final one. -/
structure WaitEntry where
  ring   : Nat
  bytes  : List Byte
  seq    : Nat := 0
  flow   : Option Nat := none
  status : Nat := 0
deriving DecidableEq, Repr

/-- The work scheduler. -/
structure Wks where
  taken   : List Taken := []        -- in order of the ready lists: a pre-empted item stands before later ones
  nextSeq : Nat := 0
  waiting : List WaitEntry := []
  stalled : List Nat := []          -- completion rings whose store is full, one COMP_STALL logged each
  takeAll : Bool := false           -- a boundary has passed: every COMMAND ring is due for a take (R460)
  prodAt  : List (Nat × Nat × Word) := []  -- ring, clock and old PROD of the PROD writes of that clock: a take in it uses the old (R473)
  pre     : Option (Nat × Nat × Nat) := none -- core, take order and clock of the last pre-emption: staging in that clock wins (R473)
deriving DecidableEq, Repr

end Sys2Proof.Machine
end

