-- ==== Sys2Proof/Machine/RegMap.lean ====
section
/-! DEFINITION. Machine/RegMap.lean: every register of BAR0 (R3, R5), from the register descriptions at the end of
each chapter: its address, which bits the host may write, set, clear or clear by reading, and its reset value.
A bank is a family of registers at two strides. -/

namespace Sys2Proof.Machine

/-- A bank of registers: `base + s1 * i + s2 * j` for `i < n1`, `j < n2`. The masks name the bits of each access
code of R5. -/
structure Bank where
  base  : Nat
  s1    : Nat
  n1    : Nat
  s2    : Nat
  n2    : Nat
  rw    : Nat
  w1c   : Nat
  w1s   : Nat
  wo    : Nat
  rc    : Nat
  reset : Nat
deriving DecidableEq, Repr

/-- Whether the bank holds the word at `a`. -/
def Bank.has (b : Bank) (a : Nat) : Bool :=
  decide (b.base ≤ a) && decide ((a - b.base) / b.s1 < b.n1) &&
    decide ((a - b.base) % b.s1 / b.s2 < b.n2) && decide ((a - b.base) % b.s1 % b.s2 = 0)

namespace Reg

/-! Addresses, named as the spec names the registers. -/

/-- GLB_ID (01, R28). -/
abbrev glbId : Nat := 0x000000
/-- GLB_SERIAL_LO (01, R28). -/
abbrev glbSerialLo : Nat := 0x000004
/-- GLB_SERIAL_HI (01, R28). -/
abbrev glbSerialHi : Nat := 0x000008
/-- GLB_STATE (01, R26). -/
abbrev glbState : Nat := 0x00000C
/-- GLB_STATE_CAUSE (01, R26). -/
abbrev glbStateCause : Nat := 0x000010
/-- GLB_CYCLE_LO (01, R28). -/
abbrev glbCycleLo : Nat := 0x000014
/-- GLB_CYCLE_HI (01, R28). -/
abbrev glbCycleHi : Nat := 0x000018
/-- GLB_SCRATCH (01, R5). -/
abbrev glbScratch : Nat := 0x00001C
/-- PEM_STATUS (16, R391). -/
abbrev pemStatus : Nat := 0x010000
/-- PEM_RESET_CAUSE (16, R393). -/
abbrev pemResetCause : Nat := 0x010004
/-- PEM_RESET (16, R393). -/
abbrev pemReset : Nat := 0x010008
/-- PEM_LEDGER_CFG (16, R397). -/
abbrev pemLedgerCfg : Nat := 0x01000C
/-- PEM_LEDGER_STATUS (16, R397). -/
abbrev pemLedgerStatus : Nat := 0x010010
/-- PEM_ENC_STATUS (16, R398). -/
abbrev pemEncStatus : Nat := 0x010014
/-- PEM_ENC_CTRL (16, R399). -/
abbrev pemEncCtrl : Nat := 0x010018
/-- PEM_LEDGER_WAIT_CNT (16, R397). -/
abbrev pemLedgerWaitCnt : Nat := 0x010020
/-- PEM_ENC_CUT_CNT (16, R397). -/
abbrev pemEncCutCnt : Nat := 0x010024
/-- PEM_VIN_LOW_CNT (16, R397). -/
abbrev pemVinLowCnt : Nat := 0x010028
/-- PEM_ENC_MA (16, R399). -/
abbrev pemEncMa (n : Nat) : Nat := 0x010040 + 0x4 * n
/-- LCU_STATE (16, R402). -/
abbrev lcuState : Nat := 0x020000
/-- LCU_SVN (16, R404). -/
abbrev lcuSvn : Nat := 0x020004
/-- LCU_BOOT (16, R404). -/
abbrev lcuBoot : Nat := 0x020008
/-- LCU_NONCE (16, R405). -/
abbrev lcuNonce (n : Nat) : Nat := 0x020010 + 0x4 * n
/-- LCU_CTRL (16, R405). -/
abbrev lcuCtrl : Nat := 0x020030
/-- LCU_TOKEN_RESULT (16, R405). -/
abbrev lcuTokenResult : Nat := 0x020034
/-- LCU_WIPE (16, R401). -/
abbrev lcuWipe : Nat := 0x020038
/-- LCU_TOKEN (16, R405). -/
abbrev lcuToken (n : Nat) : Nat := 0x020100 + 0x4 * n
/-- CFL_STATUS (17, R433). -/
abbrev cflStatus : Nat := 0x030000
/-- CFL_SLOT_INFO (17, R433). -/
abbrev cflSlotInfo (n : Nat) : Nat := 0x030010 + 0x8 * n
/-- CFL_SLOT_EPOCH (17, R433). -/
abbrev cflSlotEpoch (n : Nat) : Nat := 0x030014 + 0x8 * n
/-- CFL_REFUSE (17, R424). -/
abbrev cflRefuse : Nat := 0x030030
/-- CFL_REFUSE_DETAIL (17, R424). -/
abbrev cflRefuseDetail : Nat := 0x030034
/-- CFL_FLASH_CTRL (17, R428). -/
abbrev cflFlashCtrl : Nat := 0x030040
/-- CFL_FLASH_SRC_LO (17, R428). -/
abbrev cflFlashSrcLo : Nat := 0x030044
/-- CFL_FLASH_SRC_HI (17, R428). -/
abbrev cflFlashSrcHi : Nat := 0x030048
/-- CFL_FLASH_LEN (17, R428). -/
abbrev cflFlashLen : Nat := 0x03004C
/-- CFL_REFUSE_CNT (17, R433). -/
abbrev cflRefuseCnt : Nat := 0x030060
/-- CFL_ADOPT_CNT (17, R433). -/
abbrev cflAdoptCnt : Nat := 0x030064
/-- CFL_PEER_FAIL_CNT (17, R433). -/
abbrev cflPeerFailCnt : Nat := 0x030068
/-- TBU_TIME0 (12, R289). -/
abbrev tbuTime0 : Nat := 0x040000
/-- TBU_TIME1 (12, R289). -/
abbrev tbuTime1 : Nat := 0x040004
/-- TBU_TIME2 (12, R289). -/
abbrev tbuTime2 : Nat := 0x040008
/-- TBU_STATE (12, R298). -/
abbrev tbuState : Nat := 0x04000C
/-- TBU_INCR_LO (12, R288). -/
abbrev tbuIncrLo : Nat := 0x040010
/-- TBU_INCR_HI (12, R288). -/
abbrev tbuIncrHi : Nat := 0x040014
/-- TBU_OFFSET (12, R294). -/
abbrev tbuOffset : Nat := 0x040018
/-- TBU_PTP_CFG (12, R290). -/
abbrev tbuPtpCfg : Nat := 0x04001C
/-- TBU_BMC (12, R299). -/
abbrev tbuBmc : Nat := 0x040020
/-- TBU_TOL (12, R298). -/
abbrev tbuTol : Nat := 0x040024
/-- TBU_LANTERN_LO (12, R299). -/
abbrev tbuLanternLo : Nat := 0x040028
/-- TBU_LANTERN_HI (12, R299). -/
abbrev tbuLanternHi : Nat := 0x04002C
/-- TBU_PPS_CFG (12, R302). -/
abbrev tbuPpsCfg : Nat := 0x040040
/-- TBU_PPS_PARAM (12, R303). -/
abbrev tbuPpsParam : Nat := 0x040044
/-- TBU_PPS_TS0 (12, R303). -/
abbrev tbuPpsTs0 : Nat := 0x040048
/-- TBU_PPS_TS1 (12, R303). -/
abbrev tbuPpsTs1 : Nat := 0x04004C
/-- TBU_PPS_TS2 (12, R303). -/
abbrev tbuPpsTs2 : Nat := 0x040050
/-- TBU_PPS_ERR (12, R303). -/
abbrev tbuPpsErr : Nat := 0x040054
/-- TBU_PLANT_OFS_LO (12, R304). -/
abbrev tbuPlantOfsLo : Nat := 0x040058
/-- TBU_PLANT_OFS_HI (12, R304). -/
abbrev tbuPlantOfsHi : Nat := 0x04005C
/-- TBU_UNSYNC_CNT (12, R310). -/
abbrev tbuUnsyncCnt : Nat := 0x040060
/-- TBU_HOLDOVER_CNT (12, R310). -/
abbrev tbuHoldoverCnt : Nat := 0x040064
/-- TBU_LANTERN_CNT (12, R310). -/
abbrev tbuLanternCnt : Nat := 0x040068
/-- TBU_PPS_REJ_CNT (12, R310). -/
abbrev tbuPpsRejCnt : Nat := 0x04006C
/-- TBU_PDELAY_FAIL_CNT (12, R310). -/
abbrev tbuPdelayFailCnt : Nat := 0x040070
/-- TBU_MGMT_MSG_CNT (12, R310). -/
abbrev tbuMgmtMsgCnt : Nat := 0x040074
/-- TBU_PORT_STAT (12, R310). -/
abbrev tbuPortStat (n : Nat) : Nat := 0x040100 + 0x20 * n
/-- TBU_PORT_MPD (12, R310). -/
abbrev tbuPortMpd (n : Nat) : Nat := 0x040104 + 0x20 * n
/-- TBU_PORT_ASYM_STATIC (12, R310). -/
abbrev tbuPortAsymStatic (n : Nat) : Nat := 0x040108 + 0x20 * n
/-- TBU_PORT_ASYM_LIVE (12, R310). -/
abbrev tbuPortAsymLive (n : Nat) : Nat := 0x04010C + 0x20 * n
/-- TBU_PORT_TX_LAT (12, R310). -/
abbrev tbuPortTxLat (n : Nat) : Nat := 0x040110 + 0x20 * n
/-- TBU_PORT_RX_LAT (12, R310). -/
abbrev tbuPortRxLat (n : Nat) : Nat := 0x040114 + 0x20 * n
/-- TBU_PORT_OFS (12, R310). -/
abbrev tbuPortOfs (n : Nat) : Nat := 0x040118 + 0x20 * n
/-- CYC_CONFIG (02, R30). -/
abbrev cycConfig : Nat := 0x050000
/-- CYC_PERIOD (02, R30). -/
abbrev cycPeriod : Nat := 0x050004
/-- CYC_UL_START (02, R31). -/
abbrev cycUlStart : Nat := 0x050008
/-- CYC_UL_END (02, R31). -/
abbrev cycUlEnd : Nat := 0x05000C
/-- CYC_DL_START (02, R31). -/
abbrev cycDlStart : Nat := 0x050010
/-- CYC_DL_END (02, R31). -/
abbrev cycDlEnd : Nat := 0x050014
/-- CYC_ACT (02, R31). -/
abbrev cycAct : Nat := 0x050018
/-- CYC_STATUS (02, R51). -/
abbrev cycStatus : Nat := 0x05001C
/-- CYC_LAST_LAND (02, R51). -/
abbrev cycLastLand : Nat := 0x050020
/-- CYC_LAST_DONE (02, R51). -/
abbrev cycLastDone : Nat := 0x050024
/-- CYC_MIN_SLACK (02, R51). -/
abbrev cycMinSlack : Nat := 0x050028
/-- CYC_SLACK_THRESH (02, R41). -/
abbrev cycSlackThresh : Nat := 0x05002C
/-- CYC_LOAD (02, R51). -/
abbrev cycLoad : Nat := 0x050030
/-- CYC_CTRL (02, R51). -/
abbrev cycCtrl : Nat := 0x050034
/-- CYC_OVERRUN_CNT (02, R51). -/
abbrev cycOverrunCnt : Nat := 0x050038
/-- CYC_SKIP_CNT (02, R51). -/
abbrev cycSkipCnt : Nat := 0x05003C
/-- CYC_EXTRAP_CNT (02, R51). -/
abbrev cycExtrapCnt : Nat := 0x050040
/-- CYC_LATE_INFO (02, R51). -/
abbrev cycLateInfo : Nat := 0x050044
/-- AXM_ADMIT_CFG (03, R62). -/
abbrev axmAdmitCfg : Nat := 0x060000
/-- AXM_ADMIT_TIMES (03, R62). -/
abbrev axmAdmitTimes : Nat := 0x060004
/-- AXM_ADMIT_STATUS (03, R62). -/
abbrev axmAdmitStatus : Nat := 0x060008
/-- AXM_STATE_COUNT (03, R68). -/
abbrev axmStateCount (n : Nat) : Nat := 0x060010 + 0x4 * n
/-- AXM_FAULT_MAP (03, R68). -/
abbrev axmFaultMap (n : Nat) : Nat := 0x060040 + 0x4 * n
/-- AXM_CHANGE_MAP (03, R68). -/
abbrev axmChangeMap (n : Nat) : Nat := 0x060060 + 0x4 * n
/-- AXM_HANDLE_ERR_CNT (03, R68). -/
abbrev axmHandleErrCnt : Nat := 0x060080
/-- AXM_ADMIT_TIMEOUT_CNT (03, R68). -/
abbrev axmAdmitTimeoutCnt : Nat := 0x060084
/-- EIU_MODE (04, R69). -/
abbrev eiuMode (n : Nat) : Nat := 0x080000 + 0x1000 * n
/-- EIU_QCFG (04, R71). -/
abbrev eiuQcfg (n : Nat) : Nat := 0x080004 + 0x1000 * n
/-- EIU_LINES (04, R74). -/
abbrev eiuLines (n : Nat) : Nat := 0x080008 + 0x1000 * n
/-- EIU_POS_LO (04, R70). -/
abbrev eiuPosLo (n : Nat) : Nat := 0x080010 + 0x1000 * n
/-- EIU_POS_HI (04, R70). -/
abbrev eiuPosHi (n : Nat) : Nat := 0x080014 + 0x1000 * n
/-- EIU_SPEED_LO (04, R70). -/
abbrev eiuSpeedLo (n : Nat) : Nat := 0x080018 + 0x1000 * n
/-- EIU_SPEED_HI (04, R70). -/
abbrev eiuSpeedHi (n : Nat) : Nat := 0x08001C + 0x1000 * n
/-- EIU_STATUS (04, R93). -/
abbrev eiuStatus (n : Nat) : Nat := 0x080020 + 0x1000 * n
/-- EIU_SPEED_CFG (04, R88). -/
abbrev eiuSpeedCfg (n : Nat) : Nat := 0x080024 + 0x1000 * n
/-- EIU_IDX_POS_LO (04, R73). -/
abbrev eiuIdxPosLo (n : Nat) : Nat := 0x080028 + 0x1000 * n
/-- EIU_IDX_POS_HI (04, R73). -/
abbrev eiuIdxPosHi (n : Nat) : Nat := 0x08002C + 0x1000 * n
/-- EIU_ILLEGAL_CNT (04, R93). -/
abbrev eiuIllegalCnt (n : Nat) : Nat := 0x080030 + 0x1000 * n
/-- EIU_IDX_ERR_CNT (04, R93). -/
abbrev eiuIdxErrCnt (n : Nat) : Nat := 0x080034 + 0x1000 * n
/-- EIU_SER_ERR_CNT (04, R93). -/
abbrev eiuSerErrCnt (n : Nat) : Nat := 0x080038 + 0x1000 * n
/-- EIU_PROBE_CTRL (04, R85). -/
abbrev eiuProbeCtrl (n : Nat) : Nat := 0x080040 + 0x1000 * n
/-- EIU_PROBE_STATUS (04, R85). -/
abbrev eiuProbeStatus (n : Nat) : Nat := 0x080044 + 0x1000 * n
/-- EIU_PROBE_POS_LO (04, R85). -/
abbrev eiuProbePosLo (n m : Nat) : Nat := 0x080050 + 0x1000 * n + 0x20 * m
/-- EIU_PROBE_POS_HI (04, R85). -/
abbrev eiuProbePosHi (n m : Nat) : Nat := 0x080054 + 0x1000 * n + 0x20 * m
/-- EIU_PROBE_TIME0 (04, R85). -/
abbrev eiuProbeTime0 (n m : Nat) : Nat := 0x080058 + 0x1000 * n + 0x20 * m
/-- EIU_PROBE_TIME1 (04, R85). -/
abbrev eiuProbeTime1 (n m : Nat) : Nat := 0x08005C + 0x1000 * n + 0x20 * m
/-- EIU_PROBE_TIME2 (04, R85). -/
abbrev eiuProbeTime2 (n m : Nat) : Nat := 0x080060 + 0x1000 * n + 0x20 * m
/-- EIU_SC_OS_SIN (04, R78). -/
abbrev eiuScOsSin (n : Nat) : Nat := 0x080090 + 0x1000 * n
/-- EIU_SC_OS_COS (04, R78). -/
abbrev eiuScOsCos (n : Nat) : Nat := 0x080094 + 0x1000 * n
/-- EIU_SC_GAIN (04, R78). -/
abbrev eiuScGain (n : Nat) : Nat := 0x080098 + 0x1000 * n
/-- EIU_SC_PHASE (04, R78). -/
abbrev eiuScPhase (n : Nat) : Nat := 0x08009C + 0x1000 * n
/-- EIU_SC_FIT (04, R78). -/
abbrev eiuScFit (n : Nat) : Nat := 0x0800A0 + 0x1000 * n
/-- EIU_SER_CFG (04, R79). -/
abbrev eiuSerCfg (n : Nat) : Nat := 0x0800B0 + 0x1000 * n
/-- EIU_SER_TIMING (04, R79). -/
abbrev eiuSerTiming (n : Nat) : Nat := 0x0800B4 + 0x1000 * n
/-- EIU_SER_CRC (04, R81). -/
abbrev eiuSerCrc (n : Nat) : Nat := 0x0800BC + 0x1000 * n
/-- EIU_BISS_CMD (04, R83). -/
abbrev eiuBissCmd (n : Nat) : Nat := 0x0800C0 + 0x1000 * n
/-- DIO_IN_CFG (05, R95). -/
abbrev dioInCfg (n : Nat) : Nat := 0x0A0000 + 0x10 * n
/-- DIO_IN_TIME (05, R97). -/
abbrev dioInTime (n : Nat) : Nat := 0x0A0004 + 0x10 * n
/-- DIO_IN_RATE (05, R98). -/
abbrev dioInRate (n : Nat) : Nat := 0x0A0008 + 0x10 * n
/-- DIO_IN_HYST (05, R100). -/
abbrev dioInHyst (n : Nat) : Nat := 0x0A000C + 0x10 * n
/-- DIO_IN_LEVEL (05, R109). -/
abbrev dioInLevel : Nat := 0x0A0100
/-- DIO_IN_MASK (05, R97). -/
abbrev dioInMask : Nat := 0x0A0104
/-- DIO_IN_STUCK (05, R97). -/
abbrev dioInStuck : Nat := 0x0A0108
/-- DIO_IN_RATE_FLAGS (05, R98). -/
abbrev dioInRateFlags : Nat := 0x0A010C
/-- DIO_LIM_LATCH (05, R100). -/
abbrev dioLimLatch : Nat := 0x0A0110
/-- DIO_STUCK_CNT (05, R109). -/
abbrev dioStuckCnt : Nat := 0x0A0114
/-- DIO_OVERRATE_CNT (05, R109). -/
abbrev dioOverrateCnt : Nat := 0x0A0118
/-- DIO_CHATTER_CNT (05, R109). -/
abbrev dioChatterCnt : Nat := 0x0A011C
/-- DIO_OUT_CFG (05, R102). -/
abbrev dioOutCfg (n : Nat) : Nat := 0x0A0200 + 0x4 * n
/-- DIO_OUT_SET (05, R102). -/
abbrev dioOutSet : Nat := 0x0A0240
/-- DIO_OUT_CLR (05, R102). -/
abbrev dioOutClr : Nat := 0x0A0244
/-- DIO_OUT_STATE (05, R109). -/
abbrev dioOutState : Nat := 0x0A0248
/-- DIO_OUT_LATE_CNT (05, R109). -/
abbrev dioOutLateCnt : Nat := 0x0A024C
/-- DIO_OUT_SHIFT_CNT (05, R109). -/
abbrev dioOutShiftCnt : Nat := 0x0A0250
/-- DIO_OUT_QFULL_CNT (05, R109). -/
abbrev dioOutQfullCnt : Nat := 0x0A0254
/-- LAU_CFG (10, R249). -/
abbrev lauCfg : Nat := 0x0B0000
/-- LAU_CAM_BASE_LO (10, R234). -/
abbrev lauCamBaseLo : Nat := 0x0B0004
/-- LAU_CAM_BASE_HI (10, R234). -/
abbrev lauCamBaseHi : Nat := 0x0B0008
/-- LAU_LINK_MAP (10, R249). -/
abbrev lauLinkMap (n : Nat) : Nat := 0x0B0020 + 0x4 * n
/-- LAU_CAM_MAP (10, R249). -/
abbrev lauCamMap (n : Nat) : Nat := 0x0B0040 + 0x4 * n
/-- LAU_CMP_ARMED_MAP (10, R249). -/
abbrev lauCmpArmedMap (n : Nat) : Nat := 0x0B0060 + 0x4 * n
/-- LAU_CMP_FIRED_MAP (10, R249). -/
abbrev lauCmpFiredMap (n : Nat) : Nat := 0x0B0070 + 0x4 * n
/-- LAU_SRC_LOST_CNT (10, R249). -/
abbrev lauSrcLostCnt : Nat := 0x0B0080
/-- LAU_REMOTE_LATE_CNT (10, R249). -/
abbrev lauRemoteLateCnt : Nat := 0x0B0084
/-- LAU_EVT_LATE_CNT (10, R249). -/
abbrev lauEvtLateCnt : Nat := 0x0B0088
/-- LAU_EVT_LOST_CNT (10, R249). -/
abbrev lauEvtLostCnt : Nat := 0x0B008C
/-- LAU_CAM_STAGE_CNT (10, R249). -/
abbrev lauCamStageCnt : Nat := 0x0B0090
/-- LAU_GEAR_VLIM_CNT (10, R249). -/
abbrev lauGearVlimCnt : Nat := 0x0B0094
/-- LAU_EDGE_REJ_CNT (10, R249). -/
abbrev lauEdgeRejCnt : Nat := 0x0B0098
/-- LAU_LA_CFG (10, R217). -/
abbrev lauLaCfg (n : Nat) : Nat := 0x0B0100 + 0x20 * n
/-- LAU_LA_STATUS (10, R217). -/
abbrev lauLaStatus (n : Nat) : Nat := 0x0B0104 + 0x20 * n
/-- LAU_LA_ANGLE_LO (10, R217). -/
abbrev lauLaAngleLo (n : Nat) : Nat := 0x0B0108 + 0x20 * n
/-- LAU_LA_ANGLE_HI (10, R217). -/
abbrev lauLaAngleHi (n : Nat) : Nat := 0x0B010C + 0x20 * n
/-- LAU_LA_VEL_LO (10, R217). -/
abbrev lauLaVelLo (n : Nat) : Nat := 0x0B0110 + 0x20 * n
/-- LAU_LA_VEL_HI (10, R217). -/
abbrev lauLaVelHi (n : Nat) : Nat := 0x0B0114 + 0x20 * n
/-- LAU_LA_CORR_LO (10, R217). -/
abbrev lauLaCorrLo (n : Nat) : Nat := 0x0B0118 + 0x20 * n
/-- LAU_LA_CORR_HI (10, R217). -/
abbrev lauLaCorrHi (n : Nat) : Nat := 0x0B011C + 0x20 * n
/-- LAU_UNIT_RES_LO (10, R239). -/
abbrev lauUnitResLo (n : Nat) : Nat := 0x0B1000 + 0x20 * n
/-- LAU_UNIT_RES_HI (10, R239). -/
abbrev lauUnitResHi (n : Nat) : Nat := 0x0B1004 + 0x20 * n
/-- LAU_UNIT_RES_STAMP (10, R239). -/
abbrev lauUnitResStamp (n : Nat) : Nat := 0x0B1008 + 0x20 * n
/-- LAU_UNIT_RES_CYCLE (10, R239). -/
abbrev lauUnitResCycle (n : Nat) : Nat := 0x0B100C + 0x20 * n
/-- LAU_UNIT_ARM_CYCLE (10, R239). -/
abbrev lauUnitArmCycle (n : Nat) : Nat := 0x0B1010 + 0x20 * n
/-- LAU_UNIT_STAT (10, R239). -/
abbrev lauUnitStat (n : Nat) : Nat := 0x0B1014 + 0x20 * n
/-- PGN_CFG (09, R216). -/
abbrev pgnCfg : Nat := 0x0C0000
/-- PGN_HOLD_MAP (09, R216). -/
abbrev pgnHoldMap (n : Nat) : Nat := 0x0C0020 + 0x4 * n
/-- PGN_LIMSTOP_MAP (09, R216). -/
abbrev pgnLimstopMap (n : Nat) : Nat := 0x0C0040 + 0x4 * n
/-- PGN_HOMED_MAP (09, R216). -/
abbrev pgnHomedMap (n : Nat) : Nat := 0x0C0060 + 0x4 * n
/-- PGN_SEG_CNT (09, R216). -/
abbrev pgnSegCnt : Nat := 0x0C0080
/-- PGN_QFULL_CNT (09, R216). -/
abbrev pgnQfullCnt : Nat := 0x0C0084
/-- PGN_REFUSE_CNT (09, R216). -/
abbrev pgnRefuseCnt : Nat := 0x0C0088
/-- PGN_LIMSTOP_CNT (09, R216). -/
abbrev pgnLimstopCnt : Nat := 0x0C008C
/-- PGN_HOMEFAULT_CNT (09, R216). -/
abbrev pgnHomefaultCnt : Nat := 0x0C0090
/-- PGN_HELD_CNT (09, R216). -/
abbrev pgnHeldCnt : Nat := 0x0C0094
/-- PGN_LAST_STOP (09, R216). -/
abbrev pgnLastStop : Nat := 0x0C00A0
/-- CEA_CFG (07, R131). -/
abbrev ceaCfg : Nat := 0x0D0000
/-- CEA_CODE (07, R131). -/
abbrev ceaCode : Nat := 0x0D0004
/-- CEA_SVC_MAP (07, R159). -/
abbrev ceaSvcMap : Nat := 0x0D0008
/-- CEA_SPARE_MAP (07, R159). -/
abbrev ceaSpareMap : Nat := 0x0D000C
/-- CEA_BUSY_MAP (07, R159). -/
abbrev ceaBusyMap : Nat := 0x0D0010
/-- CEA_FAULT_MAP (07, R148). -/
abbrev ceaFaultMap : Nat := 0x0D0014
/-- CEA_CTRL (07, R159). -/
abbrev ceaCtrl : Nat := 0x0D0018
/-- CEA_LAST_FAULT (07, R148). -/
abbrev ceaLastFault : Nat := 0x0D001C
/-- CEA_FAULT_CNT (07, R159). -/
abbrev ceaFaultCnt : Nat := 0x0D0020
/-- CEA_HALT_CNT (07, R159). -/
abbrev ceaHaltCnt : Nat := 0x0D0024
/-- CEA_ABORT_CNT (07, R159). -/
abbrev ceaAbortCnt : Nat := 0x0D0028
/-- CEA_URGENT_CNT (07, R159). -/
abbrev ceaUrgentCnt : Nat := 0x0D002C
/-- CEA_STAGE_MISS_CNT (07, R159). -/
abbrev ceaStageMissCnt : Nat := 0x0D0030
/-- CEA_COST_EXC_CNT (07, R159). -/
abbrev ceaCostExcCnt : Nat := 0x0D0034
/-- CEA_ENG_STAT (07, R159). -/
abbrev ceaEngStat (n : Nat) : Nat := 0x0D0100 + 0x4 * n
/-- CEA_KSET_INFO (07, R155). -/
abbrev ceaKsetInfo (n : Nat) : Nat := 0x0D0400 + 0x4 * n
/-- CEA_KSET_OBS (07, R155). -/
abbrev ceaKsetObs (n : Nat) : Nat := 0x0D0500 + 0x4 * n
/-- CMU_CFG (08, R187). -/
abbrev cmuCfg : Nat := 0x100000
/-- CMU_LOST_MAP (08, R187). -/
abbrev cmuLostMap (n : Nat) : Nat := 0x100020 + 0x4 * n
/-- CMU_ASC_MAP (08, R187). -/
abbrev cmuAscMap (n : Nat) : Nat := 0x100040 + 0x4 * n
/-- CMU_HELD_MAP (08, R187). -/
abbrev cmuHeldMap (n : Nat) : Nat := 0x100060 + 0x4 * n
/-- CMU_LOST_CNT (08, R187). -/
abbrev cmuLostCnt : Nat := 0x100080
/-- CMU_RECATCH_OK_CNT (08, R187). -/
abbrev cmuRecatchOkCnt : Nat := 0x100084
/-- CMU_RECATCH_FAIL_CNT (08, R187). -/
abbrev cmuRecatchFailCnt : Nat := 0x100088
/-- CMU_START_RETRY_CNT (08, R187). -/
abbrev cmuStartRetryCnt : Nat := 0x10008C
/-- CMU_START_FAIL_CNT (08, R187). -/
abbrev cmuStartFailCnt : Nat := 0x100090
/-- CMU_CMD_BAD_CNT (08, R187). -/
abbrev cmuCmdBadCnt : Nat := 0x100094
/-- CMU_OFS_CNT (08, R187). -/
abbrev cmuOfsCnt : Nat := 0x100098
/-- CMU_LAST_LOSS (08, R175). -/
abbrev cmuLastLoss : Nat := 0x1000A0
/-- CMU_SWTAB0 (08, R164). -/
abbrev cmuSwtab0 (n : Nat) : Nat := 0x100100 + 0x4 * n
/-- CMU_SWTAB1 (08, R164). -/
abbrev cmuSwtab1 (n m : Nat) : Nat := 0x100140 + 0x40 * n + 0x4 * m
/-- SLC_CFG (11, R251). -/
abbrev slcCfg : Nat := 0x120000
/-- SLC_TIMING (11, R270). -/
abbrev slcTiming : Nat := 0x120004
/-- SLC_ASYM (11, R270). -/
abbrev slcAsym : Nat := 0x120008
/-- SLC_PLAN (11, R263). -/
abbrev slcPlan : Nat := 0x12000C
/-- SLC_STATUS (11, R286). -/
abbrev slcStatus : Nat := 0x120010
/-- SLC_SPARE_FREE (11, R275). -/
abbrev slcSpareFree (n : Nat) : Nat := 0x120020 + 0x4 * n
/-- SLC_HDR_ERR_CNT (11, R286). -/
abbrev slcHdrErrCnt : Nat := 0x120040
/-- SLC_FCS_ERR_CNT (11, R286). -/
abbrev slcFcsErrCnt : Nat := 0x120044
/-- SLC_REC_ERR_CNT (11, R286). -/
abbrev slcRecErrCnt : Nat := 0x120048
/-- SLC_EMPTY_CNT (11, R286). -/
abbrev slcEmptyCnt : Nat := 0x12004C
/-- SLC_EDGE_CNT (11, R286). -/
abbrev slcEdgeCnt : Nat := 0x120050
/-- SLC_BABBLE_CNT (11, R286). -/
abbrev slcBabbleCnt : Nat := 0x120054
/-- SLC_FENCE_CNT (11, R286). -/
abbrev slcFenceCnt : Nat := 0x120058
/-- SLC_JOIN_CNT (11, R286). -/
abbrev slcJoinCnt : Nat := 0x12005C
/-- SLC_JOIN_REF_CNT (11, R286). -/
abbrev slcJoinRefCnt : Nat := 0x120060
/-- SLC_CHDIFF_CNT (11, R286). -/
abbrev slcChdiffCnt : Nat := 0x120064
/-- SLC_LATE_REC_CNT (11, R286). -/
abbrev slcLateRecCnt : Nat := 0x120068
/-- SLC_FOREIGN_CNT (11, R286). -/
abbrev slcForeignCnt : Nat := 0x12006C
/-- SLC_LAST_EDGE (11, R267). -/
abbrev slcLastEdge : Nat := 0x120070
/-- SLC_PORT_STAT (11, R281). -/
abbrev slcPortStat (n : Nat) : Nat := 0x120100 + 0x4 * n
/-- SLC_NODE_STAT (11, R271). -/
abbrev slcNodeStat (n : Nat) : Nat := 0x124000 + 0x20 * n
/-- SLC_NODE_ARR (11, R269). -/
abbrev slcNodeArr (n : Nat) : Nat := 0x124004 + 0x20 * n
/-- SLC_NODE_TCORR (11, R269). -/
abbrev slcNodeTcorr (n : Nat) : Nat := 0x124008 + 0x20 * n
/-- SLC_NODE_EMPTY_CNT (11, R286). -/
abbrev slcNodeEmptyCnt (n : Nat) : Nat := 0x12400C + 0x20 * n
/-- SLC_NODE_MISS (11, R286). -/
abbrev slcNodeMiss (n : Nat) : Nat := 0x124010 + 0x20 * n
/-- SLC_NODE_EDGE_CNT (11, R286). -/
abbrev slcNodeEdgeCnt (n : Nat) : Nat := 0x124014 + 0x20 * n
/-- SLC_NODE_BAD (11, R286). -/
abbrev slcNodeBad (n : Nat) : Nat := 0x124018 + 0x20 * n
/-- SLC_NODE_DIAG (11, R286). -/
abbrev slcNodeDiag (n : Nat) : Nat := 0x12401C + 0x20 * n
/-- SLC_SLOT_TAB (11, R263). -/
abbrev slcSlotTab (n : Nat) : Nat := 0x130000 + 0x4 * n
/-- SLC_REC_MAP (11, R264). -/
abbrev slcRecMap (n : Nat) : Nat := 0x134000 + 0x4 * n
/-- SLC_NODE_TAB (11, R265). -/
abbrev slcNodeTab (n : Nat) : Nat := 0x138000 + 0x4 * n
/-- FBR_CFG (13, R333). -/
abbrev fbrCfg : Nat := 0x140000
/-- FBR_STATUS (13, R333). -/
abbrev fbrStatus : Nat := 0x140004
/-- FBR_MEMBER_MAP_LO (13, R333). -/
abbrev fbrMemberMapLo : Nat := 0x140008
/-- FBR_MEMBER_MAP_HI (13, R333). -/
abbrev fbrMemberMapHi : Nat := 0x14000C
/-- FBR_MISMATCH_MAP_LO (13, R333). -/
abbrev fbrMismatchMapLo : Nat := 0x140010
/-- FBR_MISMATCH_MAP_HI (13, R333). -/
abbrev fbrMismatchMapHi : Nat := 0x140014
/-- FBR_STALE_MAP_LO (13, R333). -/
abbrev fbrStaleMapLo : Nat := 0x140018
/-- FBR_STALE_MAP_HI (13, R333). -/
abbrev fbrStaleMapHi : Nat := 0x14001C
/-- FBR_EPOCH (13, R326). -/
abbrev fbrEpoch : Nat := 0x140020
/-- FBR_EPOCH_STAT (13, R327). -/
abbrev fbrEpochStat : Nat := 0x140024
/-- FBR_EPOCH_ACT_LO (13, R329). -/
abbrev fbrEpochActLo : Nat := 0x140028
/-- FBR_EPOCH_ACT_HI (13, R329). -/
abbrev fbrEpochActHi : Nat := 0x14002C
/-- FBR_CANDLE (13, R325). -/
abbrev fbrCandle (n : Nat) : Nat := 0x140040 + 0x4 * n
/-- FBR_CHECK_ERR_CNT (13, R333). -/
abbrev fbrCheckErrCnt : Nat := 0x140060
/-- FBR_CYCLE_SKEW_CNT (13, R333). -/
abbrev fbrCycleSkewCnt : Nat := 0x140064
/-- FBR_WRAP_CNT (13, R333). -/
abbrev fbrWrapCnt : Nat := 0x140068
/-- FBR_TOPO_CNT (13, R333). -/
abbrev fbrTopoCnt : Nat := 0x14006C
/-- FBR_HELD_CNT (13, R333). -/
abbrev fbrHeldCnt : Nat := 0x140070
/-- FBR_ROUTE (13, R319). -/
abbrev fbrRoute (n : Nat) : Nat := 0x140100 + 0x4 * n
/-- FBR_FSLOT_START (13, R320). -/
abbrev fbrFslotStart (n : Nat) : Nat := 0x140200 + 0x8 * n
/-- FBR_FSLOT_LEN (13, R320). -/
abbrev fbrFslotLen (n : Nat) : Nat := 0x140204 + 0x8 * n
/-- TWU_CFG (14, R334). -/
abbrev twuCfg : Nat := 0x150000
/-- TWU_STATUS (14, R337). -/
abbrev twuStatus : Nat := 0x150004
/-- TWU_PARTNER_LO (14, R353). -/
abbrev twuPartnerLo : Nat := 0x150008
/-- TWU_PARTNER_HI (14, R353). -/
abbrev twuPartnerHi : Nat := 0x15000C
/-- TWU_PEER_LO (14, R353). -/
abbrev twuPeerLo : Nat := 0x150010
/-- TWU_PEER_HI (14, R353). -/
abbrev twuPeerHi : Nat := 0x150014
/-- TWU_PROBATION (14, R353). -/
abbrev twuProbation : Nat := 0x150018
/-- TWU_CTRL (14, R349). -/
abbrev twuCtrl : Nat := 0x15001C
/-- TWU_ACCEPT (14, R353). -/
abbrev twuAccept : Nat := 0x150020
/-- TWU_TAKEOVER_CNT (14, R358). -/
abbrev twuTakeoverCnt : Nat := 0x150030
/-- TWU_MISMATCH_CNT (14, R358). -/
abbrev twuMismatchCnt : Nat := 0x150034
/-- TWU_RESYNC_CNT (14, R358). -/
abbrev twuResyncCnt : Nat := 0x150038
/-- TWU_WICK_FAULT_CNT (14, R358). -/
abbrev twuWickFaultCnt : Nat := 0x15003C
/-- TWU_INPUT_DIFF_CNT (14, R358). -/
abbrev twuInputDiffCnt : Nat := 0x150040
/-- TWU_LATE_DIFF_CNT (14, R358). -/
abbrev twuLateDiffCnt : Nat := 0x150044
/-- TWU_LAST_MISMATCH (14, R341). -/
abbrev twuLastMismatch : Nat := 0x150050
/-- TWU_LAST_TAKEOVER (14, R337). -/
abbrev twuLastTakeover : Nat := 0x150054
/-- SFI_STATUS (15, R389). -/
abbrev sfiStatus : Nat := 0x160000
/-- SFI_PARAM_ID (15, R389). -/
abbrev sfiParamId : Nat := 0x160004
/-- SFI_IN_STATE (15, R389). -/
abbrev sfiInState : Nat := 0x160008
/-- SFI_OUT_STATE (15, R389). -/
abbrev sfiOutState : Nat := 0x16000C
/-- SFI_STO_MAP (15, R366). -/
abbrev sfiStoMap (n : Nat) : Nat := 0x160020 + 0x4 * n
/-- SFI_CONN_LOST_MAP (15, R375). -/
abbrev sfiConnLostMap (n : Nat) : Nat := 0x160040 + 0x4 * n
/-- SFI_CRC_ERR_CNT (15, R389). -/
abbrev sfiCrcErrCnt : Nat := 0x160080
/-- SFI_SEQ_ERR_CNT (15, R389). -/
abbrev sfiSeqErrCnt : Nat := 0x160084
/-- SFI_WD_EXP_CNT (15, R389). -/
abbrev sfiWdExpCnt : Nat := 0x160088
/-- SFI_DISC_CNT (15, R389). -/
abbrev sfiDiscCnt : Nat := 0x16008C
/-- SFI_RB_ERR_CNT (15, R389). -/
abbrev sfiRbErrCnt : Nat := 0x160090
/-- SFI_RESET_OK_CNT (15, R389). -/
abbrev sfiResetOkCnt : Nat := 0x160094
/-- SFI_RESET_REJ_CNT (15, R389). -/
abbrev sfiResetRejCnt : Nat := 0x160098
/-- SFI_LAST_FAULT (15, R389). -/
abbrev sfiLastFault : Nat := 0x1600A0
/-- SFI_MON_STAT (15, R367). -/
abbrev sfiMonStat (n : Nat) : Nat := 0x160100 + 0x8 * n
/-- SFI_MON_SPEED (15, R367). -/
abbrev sfiMonSpeed (n : Nat) : Nat := 0x160104 + 0x8 * n
/-- MBX_CFG (15, R385). -/
abbrev mbxCfg : Nat := 0x170000
/-- MBX_PCIE_STATUS (18, R454). -/
abbrev mbxPcieStatus : Nat := 0x170004
/-- MBX_BAR2_BASE_LO (18, R438). -/
abbrev mbxBar2BaseLo : Nat := 0x170008
/-- MBX_BAR2_BASE_HI (18, R438). -/
abbrev mbxBar2BaseHi : Nat := 0x17000C
/-- MBX_DB_IN (18, R448). -/
abbrev mbxDbIn : Nat := 0x170010
/-- MBX_DB_IN_SET (18, R448). -/
abbrev mbxDbInSet : Nat := 0x170014
/-- MBX_DB_OUT (18, R448). -/
abbrev mbxDbOut : Nat := 0x170018
/-- MBX_DB_OUT_SET (18, R448). -/
abbrev mbxDbOutSet : Nat := 0x17001C
/-- MBX_DB_OUT_CLR (18, R448). -/
abbrev mbxDbOutClr : Nat := 0x170020
/-- MBX_DB_OUT_MASK (18, R448). -/
abbrev mbxDbOutMask (n : Nat) : Nat := 0x170030 + 0x4 * n
/-- MBX_BAR0_ERR_CNT (18, R456). -/
abbrev mbxBar0ErrCnt : Nat := 0x170040
/-- MBX_BAR2_ERR_CNT (18, R456). -/
abbrev mbxBar2ErrCnt : Nat := 0x170044
/-- MBX_PROTO_ERR_CNT (18, R456). -/
abbrev mbxProtoErrCnt : Nat := 0x170048
/-- MBX_POISON_CNT (18, R456). -/
abbrev mbxPoisonCnt : Nat := 0x17004C
/-- MBX_LAST_BAR_ERR (18, R440). -/
abbrev mbxLastBarErr : Nat := 0x170050
/-- MBX_CH_BUF (18, R443). -/
abbrev mbxChBuf (n m : Nat) : Nat := 0x171000 + 0x1000 * n + 0x4 * m
/-- MBX_CH_CTRL (18, R444). -/
abbrev mbxChCtrl (n : Nat) : Nat := 0x171100 + 0x1000 * n
/-- MBX_CH_STAT (18, R444). -/
abbrev mbxChStat (n : Nat) : Nat := 0x171104 + 0x1000 * n
/-- MBX_CH_ACK (18, R444). -/
abbrev mbxChAck (n : Nat) : Nat := 0x171108 + 0x1000 * n
/-- MSIX_ADDR_LO (18, R441). -/
abbrev msixAddrLo (n : Nat) : Nat := 0x17E000 + 0x10 * n
/-- MSIX_ADDR_HI (18, R441). -/
abbrev msixAddrHi (n : Nat) : Nat := 0x17E004 + 0x10 * n
/-- MSIX_DATA (18, R441). -/
abbrev msixData (n : Nat) : Nat := 0x17E008 + 0x10 * n
/-- MSIX_CTL (18, R441). -/
abbrev msixCtl (n : Nat) : Nat := 0x17E00C + 0x10 * n
/-- MSIX_PBA (18, R441). -/
abbrev msixPba : Nat := 0x17F000
/-- EVR_CFG (18, R449). -/
abbrev evrCfg : Nat := 0x180000
/-- EVR_BAD_COMPLETE_CNT (18, R452). -/
abbrev evrBadCompleteCnt : Nat := 0x180010
/-- EVR_LAST_BAD_COMPLETE (18, R452). -/
abbrev evrLastBadComplete : Nat := 0x180014
/-- EVR_MASK_SET (18, R449). -/
abbrev evrMaskSet (n : Nat) : Nat := 0x180100 + 0x4 * n
/-- EVR_MASK_CLR (18, R449). -/
abbrev evrMaskClr (n : Nat) : Nat := 0x180140 + 0x4 * n
/-- EVR_PEND_SET (18, R450). -/
abbrev evrPendSet (n : Nat) : Nat := 0x180200 + 0x4 * n
/-- EVR_PEND_CLR (18, R450). -/
abbrev evrPendClr (n : Nat) : Nat := 0x180240 + 0x4 * n
/-- EVR_ACTIVE (18, R451). -/
abbrev evrActive (n : Nat) : Nat := 0x180280 + 0x4 * n
/-- EVR_SRC_CFG (18, R449). -/
abbrev evrSrcCfg (n : Nat) : Nat := 0x181000 + 0x8 * n
/-- EVR_SRC_CNT (18, R450). -/
abbrev evrSrcCnt (n : Nat) : Nat := 0x181004 + 0x8 * n
/-- EVR_CLAIM (18, R451). -/
abbrev evrClaim (n : Nat) : Nat := 0x188000 + 0x1000 * n
/-- EVR_COMPLETE (18, R452). -/
abbrev evrComplete (n : Nat) : Nat := 0x188004 + 0x1000 * n
/-- EVR_SPURIOUS_CNT (18, R451). -/
abbrev evrSpuriousCnt (n : Nat) : Nat := 0x188008 + 0x1000 * n
/-- EVR_CLAIM_V (18, R451). -/
abbrev evrClaimV (n m : Nat) : Nat := 0x188020 + 0x1000 * n + 0x4 * m
/-- WKS_STATUS (19, R476). -/
abbrev wksStatus : Nat := 0x190000
/-- WKS_ITEM_CNT (19, R476). -/
abbrev wksItemCnt : Nat := 0x190010
/-- WKS_PREEMPT_CNT (19, R476). -/
abbrev wksPreemptCnt : Nat := 0x190014
/-- WKS_LATE_CNT (19, R476). -/
abbrev wksLateCnt : Nat := 0x190018
/-- WKS_RING_ERR_CNT (19, R476). -/
abbrev wksRingErrCnt : Nat := 0x19001C
/-- WKS_STALL_CNT (19, R476). -/
abbrev wksStallCnt : Nat := 0x190020
/-- WKS_RING_BASE_LO (19, R457). -/
abbrev wksRingBaseLo (n : Nat) : Nat := 0x190800 + 0x1000 * n
/-- WKS_RING_BASE_HI (19, R457). -/
abbrev wksRingBaseHi (n : Nat) : Nat := 0x190804 + 0x1000 * n
/-- WKS_RING_CFG (19, R457). -/
abbrev wksRingCfg (n : Nat) : Nat := 0x190808 + 0x1000 * n
/-- WKS_RING_PROD (19, R457). -/
abbrev wksRingProd (n : Nat) : Nat := 0x19080C + 0x1000 * n
/-- WKS_RING_CONS (19, R457). -/
abbrev wksRingCons (n : Nat) : Nat := 0x190810 + 0x1000 * n
/-- WKS_RING_THRESH (19, R457). -/
abbrev wksRingThresh (n : Nat) : Nat := 0x190814 + 0x1000 * n
/-- WKS_RING_STAT (19, R457). -/
abbrev wksRingStat (n : Nat) : Nat := 0x190818 + 0x1000 * n
/-- CAP_CFG (20, R485). -/
abbrev capCfg : Nat := 0x1A0000
/-- CAP_BASE_LO (20, R498). -/
abbrev capBaseLo : Nat := 0x1A0004
/-- CAP_BASE_HI (20, R498). -/
abbrev capBaseHi : Nat := 0x1A0008
/-- CAP_ARMED_MAP (20, R498). -/
abbrev capArmedMap : Nat := 0x1A000C
/-- CAP_HELD_MAP (20, R498). -/
abbrev capHeldMap : Nat := 0x1A0010
/-- CAP_DONE_CNT (20, R498). -/
abbrev capDoneCnt : Nat := 0x1A0020
/-- CAP_MISSED_CNT (20, R498). -/
abbrev capMissedCnt : Nat := 0x1A0024
/-- CAP_LOST_CNT (20, R498). -/
abbrev capLostCnt : Nat := 0x1A0028
/-- CAP_FORCED_CNT (20, R498). -/
abbrev capForcedCnt : Nat := 0x1A002C
/-- CAP_CH_CFG (20, R477). -/
abbrev capChCfg (n : Nat) : Nat := 0x1A0100 + 0x10 * n
/-- CAP_CH_SRC (20, R477). -/
abbrev capChSrc (n : Nat) : Nat := 0x1A0104 + 0x10 * n
/-- CAP_CH_MASK (20, R477). -/
abbrev capChMask (n : Nat) : Nat := 0x1A0108 + 0x10 * n
/-- CAP_CH_STAT (20, R477). -/
abbrev capChStat (n : Nat) : Nat := 0x1A010C + 0x10 * n
/-- ELG_CFG (20, R490). -/
abbrev elgCfg : Nat := 0x1B0000
/-- ELG_BASE_LO (20, R498). -/
abbrev elgBaseLo : Nat := 0x1B0004
/-- ELG_BASE_HI (20, R498). -/
abbrev elgBaseHi : Nat := 0x1B0008
/-- ELG_STATUS (20, R498). -/
abbrev elgStatus : Nat := 0x1B000C
/-- ELG_WR_IDX (20, R498). -/
abbrev elgWrIdx : Nat := 0x1B0010
/-- ELG_CURSOR (20, R494). -/
abbrev elgCursor : Nat := 0x1B0014
/-- ELG_FILL_THRESH (20, R497). -/
abbrev elgFillThresh : Nat := 0x1B0018
/-- ELG_CTRL (20, R492). -/
abbrev elgCtrl : Nat := 0x1B001C
/-- ELG_SEQ (20, R487). -/
abbrev elgSeq : Nat := 0x1B0020
/-- ELG_DROP_CNT (20, R498). -/
abbrev elgDropCnt : Nat := 0x1B0030
/-- ELG_QDROP_CNT (20, R498). -/
abbrev elgQdropCnt : Nat := 0x1B0034
/-- ELG_SUPPR_CNT (20, R498). -/
abbrev elgSupprCnt : Nat := 0x1B0038
/-- ELG_EARLY_DROP_CNT (20, R498). -/
abbrev elgEarlyDropCnt : Nat := 0x1B003C
/-- ELG_WIN (20, R494). -/
abbrev elgWin (n : Nat) : Nat := 0x1B0040 + 0x4 * n
/-- ELG_LIM_CFG (20, R491). -/
abbrev elgLimCfg (n : Nat) : Nat := 0x1B0100 + 0x10 * n
/-- ELG_LIM_STAT (20, R491). -/
abbrev elgLimStat (n : Nat) : Nat := 0x1B0104 + 0x10 * n
/-- ELG_LIM_SUPPR_CNT (20, R491). -/
abbrev elgLimSupprCnt (n : Nat) : Nat := 0x1B0108 + 0x10 * n
/-- HLM_STATUS (21, R519). -/
abbrev hlmStatus : Nat := 0x1C0000
/-- HLM_CFG (21, R519). -/
abbrev hlmCfg : Nat := 0x1C0004
/-- HLM_CFG2 (21, R519). -/
abbrev hlmCfg2 : Nat := 0x1C0008
/-- HLM_THERM_CFG (21, R519). -/
abbrev hlmThermCfg : Nat := 0x1C000C
/-- HLM_ROWS (21, R519). -/
abbrev hlmRows : Nat := 0x1C0010
/-- HLM_PAGES (21, R519). -/
abbrev hlmPages : Nat := 0x1C0014
/-- HLM_CORES (21, R504). -/
abbrev hlmCores : Nat := 0x1C0018
/-- HLM_CE_CNT (21, R519). -/
abbrev hlmCeCnt : Nat := 0x1C0020
/-- HLM_UE_CNT (21, R519). -/
abbrev hlmUeCnt : Nat := 0x1C0024
/-- HLM_ROW_REPAIR_CNT (21, R519). -/
abbrev hlmRowRepairCnt : Nat := 0x1C0028
/-- HLM_PAGE_RETIRE_CNT (21, R519). -/
abbrev hlmPageRetireCnt : Nat := 0x1C002C
/-- HLM_SPARE_IN_CNT (21, R519). -/
abbrev hlmSpareInCnt : Nat := 0x1C0030
/-- HLM_HEALTH_DROP_CNT (21, R519). -/
abbrev hlmHealthDropCnt : Nat := 0x1C0034
/-- HLM_THERM (21, R510). -/
abbrev hlmTherm (n : Nat) : Nat := 0x1C0100 + 0x4 * n
/-- HLM_WEAR (21, R509). -/
abbrev hlmWear (n : Nat) : Nat := 0x1C0200 + 0x4 * n
/-- HLM_REPORT (21, R511). -/
abbrev hlmReport (n : Nat) : Nat := 0x1C0300 + 0x4 * n
/-- HLM_PARTNER (21, R511). -/
abbrev hlmPartner (n : Nat) : Nat := 0x1C0340 + 0x4 * n
/-- HLM_INJ_CTRL (21, R513). -/
abbrev hlmInjCtrl (n : Nat) : Nat := 0x1C0400 + 0x10 * n
/-- HLM_INJ_N (21, R513). -/
abbrev hlmInjN (n : Nat) : Nat := 0x1C0404 + 0x10 * n
/-- HLM_INJ_HITS (21, R513). -/
abbrev hlmInjHits (n : Nat) : Nat := 0x1C0408 + 0x10 * n
/-- HLM_PEER (21, R511). -/
abbrev hlmPeer (n m : Nat) : Nat := 0x1C1000 + 0x40 * n + 0x4 * m

end Reg

/-- The banks of Glb. -/
def banksGlb : List Bank := [
  ⟨0x000000, 0x1000000, 1, 0x1000000, 1, 0x0, 0x0, 0x0, 0x0, 0x0, 0x0⟩,  -- GLB_ID
  ⟨0x000004, 0x1000000, 1, 0x1000000, 1, 0x0, 0x0, 0x0, 0x0, 0x0, 0x0⟩,  -- GLB_SERIAL_LO
  ⟨0x000008, 0x1000000, 1, 0x1000000, 1, 0x0, 0x0, 0x0, 0x0, 0x0, 0x0⟩,  -- GLB_SERIAL_HI
  ⟨0x00000C, 0x1000000, 1, 0x1000000, 1, 0x0, 0x0, 0x0, 0x0, 0x0, 0x401⟩,  -- GLB_STATE
  ⟨0x000010, 0x1000000, 1, 0x1000000, 1, 0x0, 0x0, 0x0, 0x0, 0x0, 0x0⟩,  -- GLB_STATE_CAUSE
  ⟨0x000014, 0x1000000, 1, 0x1000000, 1, 0x0, 0x0, 0x0, 0x0, 0x0, 0x0⟩,  -- GLB_CYCLE_LO
  ⟨0x000018, 0x1000000, 1, 0x1000000, 1, 0x0, 0x0, 0x0, 0x0, 0x0, 0x0⟩,  -- GLB_CYCLE_HI
  ⟨0x00001C, 0x1000000, 1, 0x1000000, 1, 0xFFFFFFFF, 0x0, 0x0, 0x0, 0x0, 0x0⟩  -- GLB_SCRATCH
]

/-- The banks of Pem. -/
def banksPem : List Bank := [
  ⟨0x010000, 0x1000000, 1, 0x1000000, 1, 0x0, 0x0, 0x0, 0x0, 0x0, 0x9C002EE0⟩,  -- PEM_STATUS
  ⟨0x010004, 0x1000000, 1, 0x1000000, 1, 0x0, 0x0, 0x0, 0x0, 0x0, 0x1⟩,  -- PEM_RESET_CAUSE
  ⟨0x010008, 0x1000000, 1, 0x1000000, 1, 0x0, 0x0, 0x0, 0xFFFFFFFF, 0x0, 0x0⟩,  -- PEM_RESET
  ⟨0x01000C, 0x1000000, 1, 0x1000000, 1, 0x0, 0x0, 0x0, 0x0, 0x0, 0x1E⟩,  -- PEM_LEDGER_CFG
  ⟨0x010010, 0x1000000, 1, 0x1000000, 1, 0x0, 0x0, 0x0, 0x0, 0x0, 0x0⟩,  -- PEM_LEDGER_STATUS
  ⟨0x010014, 0x1000000, 1, 0x1000000, 1, 0x0, 0xFF0000, 0x0, 0x0, 0x0, 0x0⟩,  -- PEM_ENC_STATUS
  ⟨0x010018, 0x1000000, 1, 0x1000000, 1, 0x0, 0x0, 0xFF, 0x0, 0x0, 0x0⟩,  -- PEM_ENC_CTRL
  ⟨0x010020, 0x1000000, 1, 0x1000000, 1, 0x0, 0x0, 0x0, 0x0, 0xFFFFFFFF, 0x0⟩,  -- PEM_LEDGER_WAIT_CNT
  ⟨0x010024, 0x1000000, 1, 0x1000000, 1, 0x0, 0x0, 0x0, 0x0, 0xFFFFFFFF, 0x0⟩,  -- PEM_ENC_CUT_CNT
  ⟨0x010028, 0x1000000, 1, 0x1000000, 1, 0x0, 0x0, 0x0, 0x0, 0xFFFFFFFF, 0x0⟩,  -- PEM_VIN_LOW_CNT
  ⟨0x010040, 0x4, 8, 0x1000000, 1, 0x0, 0x0, 0x0, 0x0, 0x0, 0x0⟩  -- PEM_ENC_MA
]

/-- The banks of Lcu. -/
def banksLcu : List Bank := [
  ⟨0x020000, 0x1000000, 1, 0x1000000, 1, 0x0, 0x0, 0x0, 0x0, 0x0, 0x0⟩,  -- LCU_STATE
  ⟨0x020004, 0x1000000, 1, 0x1000000, 1, 0x0, 0x0, 0x0, 0x0, 0x0, 0x0⟩,  -- LCU_SVN
  ⟨0x020008, 0x1000000, 1, 0x1000000, 1, 0x0, 0x0, 0x0, 0x0, 0x0, 0xF0000000⟩,  -- LCU_BOOT
  ⟨0x020010, 0x4, 8, 0x1000000, 1, 0x0, 0x0, 0x0, 0x0, 0x0, 0x0⟩,  -- LCU_NONCE
  ⟨0x020030, 0x1000000, 1, 0x1000000, 1, 0x0, 0x0, 0x1, 0x0, 0x0, 0x0⟩,  -- LCU_CTRL
  ⟨0x020034, 0x1000000, 1, 0x1000000, 1, 0x0, 0x0, 0x0, 0x0, 0x0, 0x0⟩,  -- LCU_TOKEN_RESULT
  ⟨0x020038, 0x1000000, 1, 0x1000000, 1, 0x0, 0x0, 0x0, 0x0, 0x0, 0x0⟩,  -- LCU_WIPE
  ⟨0x020100, 0x4, 52, 0x1000000, 1, 0x0, 0x0, 0x0, 0xFFFFFFFF, 0x0, 0x0⟩  -- LCU_TOKEN
]

/-- The banks of Cfl. -/
def banksCfl : List Bank := [
  ⟨0x030000, 0x1000000, 1, 0x1000000, 1, 0x0, 0x0, 0x0, 0x0, 0x0, 0x0⟩,  -- CFL_STATUS
  ⟨0x030010, 0x8, 4, 0x1000000, 1, 0x0, 0x0, 0x0, 0x0, 0x0, 0x0⟩,  -- CFL_SLOT_INFO
  ⟨0x030014, 0x8, 4, 0x1000000, 1, 0x0, 0x0, 0x0, 0x0, 0x0, 0x0⟩,  -- CFL_SLOT_EPOCH
  ⟨0x030030, 0x1000000, 1, 0x1000000, 1, 0x0, 0x0, 0x0, 0x0, 0x0, 0x0⟩,  -- CFL_REFUSE
  ⟨0x030034, 0x1000000, 1, 0x1000000, 1, 0x0, 0x0, 0x0, 0x0, 0x0, 0x0⟩,  -- CFL_REFUSE_DETAIL
  ⟨0x030040, 0x1000000, 1, 0x1000000, 1, 0x38000000, 0x0, 0x80000000, 0x0, 0x0, 0x0⟩,  -- CFL_FLASH_CTRL
  ⟨0x030044, 0x1000000, 1, 0x1000000, 1, 0xFFFFFFFF, 0x0, 0x0, 0x0, 0x0, 0x0⟩,  -- CFL_FLASH_SRC_LO
  ⟨0x030048, 0x1000000, 1, 0x1000000, 1, 0xFFFFFFFF, 0x0, 0x0, 0x0, 0x0, 0x0⟩,  -- CFL_FLASH_SRC_HI
  ⟨0x03004C, 0x1000000, 1, 0x1000000, 1, 0xFFFFFFFF, 0x0, 0x0, 0x0, 0x0, 0x0⟩,  -- CFL_FLASH_LEN
  ⟨0x030060, 0x1000000, 1, 0x1000000, 1, 0x0, 0x0, 0x0, 0x0, 0xFFFFFFFF, 0x0⟩,  -- CFL_REFUSE_CNT
  ⟨0x030064, 0x1000000, 1, 0x1000000, 1, 0x0, 0x0, 0x0, 0x0, 0xFFFFFFFF, 0x0⟩,  -- CFL_ADOPT_CNT
  ⟨0x030068, 0x1000000, 1, 0x1000000, 1, 0x0, 0x0, 0x0, 0x0, 0xFFFFFFFF, 0x0⟩  -- CFL_PEER_FAIL_CNT
]

/-- The banks of Tbu. -/
def banksTbu : List Bank := [
  ⟨0x040000, 0x1000000, 1, 0x1000000, 1, 0x0, 0x0, 0x0, 0x0, 0x0, 0x0⟩,  -- TBU_TIME0
  ⟨0x040004, 0x1000000, 1, 0x1000000, 1, 0x0, 0x0, 0x0, 0x0, 0x0, 0x0⟩,  -- TBU_TIME1
  ⟨0x040008, 0x1000000, 1, 0x1000000, 1, 0x0, 0x0, 0x0, 0x0, 0x0, 0x0⟩,  -- TBU_TIME2
  ⟨0x04000C, 0x1000000, 1, 0x1000000, 1, 0x0, 0x0, 0x0, 0x0, 0x0, 0x30⟩,  -- TBU_STATE
  ⟨0x040010, 0x1000000, 1, 0x1000000, 1, 0x0, 0x0, 0x0, 0x0, 0x0, 0x0⟩,  -- TBU_INCR_LO
  ⟨0x040014, 0x1000000, 1, 0x1000000, 1, 0x0, 0x0, 0x0, 0x0, 0x0, 0x14000⟩,  -- TBU_INCR_HI
  ⟨0x040018, 0x1000000, 1, 0x1000000, 1, 0x0, 0x0, 0x0, 0x0, 0x0, 0x0⟩,  -- TBU_OFFSET
  ⟨0x04001C, 0x1000000, 1, 0x1000000, 1, 0x0, 0x0, 0x0, 0x0, 0x0, 0x3DC90000⟩,  -- TBU_PTP_CFG
  ⟨0x040020, 0x1000000, 1, 0x1000000, 1, 0x0, 0x0, 0x0, 0x0, 0x0, 0x8080F8FE⟩,  -- TBU_BMC
  ⟨0x040024, 0x1000000, 1, 0x1000000, 1, 0x0, 0x0, 0x0, 0x0, 0x0, 0x5000C8⟩,  -- TBU_TOL
  ⟨0x040028, 0x1000000, 1, 0x1000000, 1, 0x0, 0x0, 0x0, 0x0, 0x0, 0x0⟩,  -- TBU_LANTERN_LO
  ⟨0x04002C, 0x1000000, 1, 0x1000000, 1, 0x0, 0x0, 0x0, 0x0, 0x0, 0x0⟩,  -- TBU_LANTERN_HI
  ⟨0x040040, 0x1000000, 1, 0x1000000, 1, 0x0, 0x0, 0x0, 0x0, 0x0, 0x0⟩,  -- TBU_PPS_CFG
  ⟨0x040044, 0x1000000, 1, 0x1000000, 1, 0x0, 0x0, 0x0, 0x0, 0x0, 0x60FA0⟩,  -- TBU_PPS_PARAM
  ⟨0x040048, 0x1000000, 1, 0x1000000, 1, 0x0, 0x0, 0x0, 0x0, 0x0, 0x0⟩,  -- TBU_PPS_TS0
  ⟨0x04004C, 0x1000000, 1, 0x1000000, 1, 0x0, 0x0, 0x0, 0x0, 0x0, 0x0⟩,  -- TBU_PPS_TS1
  ⟨0x040050, 0x1000000, 1, 0x1000000, 1, 0x0, 0x0, 0x0, 0x0, 0x0, 0x0⟩,  -- TBU_PPS_TS2
  ⟨0x040054, 0x1000000, 1, 0x1000000, 1, 0x0, 0x0, 0x0, 0x0, 0x0, 0x0⟩,  -- TBU_PPS_ERR
  ⟨0x040058, 0x1000000, 1, 0x1000000, 1, 0x0, 0x0, 0x0, 0x0, 0x0, 0x0⟩,  -- TBU_PLANT_OFS_LO
  ⟨0x04005C, 0x1000000, 1, 0x1000000, 1, 0x0, 0x0, 0x0, 0x0, 0x0, 0x0⟩,  -- TBU_PLANT_OFS_HI
  ⟨0x040060, 0x1000000, 1, 0x1000000, 1, 0x0, 0x0, 0x0, 0x0, 0xFFFFFFFF, 0x0⟩,  -- TBU_UNSYNC_CNT
  ⟨0x040064, 0x1000000, 1, 0x1000000, 1, 0x0, 0x0, 0x0, 0x0, 0xFFFFFFFF, 0x0⟩,  -- TBU_HOLDOVER_CNT
  ⟨0x040068, 0x1000000, 1, 0x1000000, 1, 0x0, 0x0, 0x0, 0x0, 0xFFFFFFFF, 0x0⟩,  -- TBU_LANTERN_CNT
  ⟨0x04006C, 0x1000000, 1, 0x1000000, 1, 0x0, 0x0, 0x0, 0x0, 0xFFFFFFFF, 0x0⟩,  -- TBU_PPS_REJ_CNT
  ⟨0x040070, 0x1000000, 1, 0x1000000, 1, 0x0, 0x0, 0x0, 0x0, 0xFFFFFFFF, 0x0⟩,  -- TBU_PDELAY_FAIL_CNT
  ⟨0x040074, 0x1000000, 1, 0x1000000, 1, 0x0, 0x0, 0x0, 0x0, 0xFFFFFFFF, 0x0⟩,  -- TBU_MGMT_MSG_CNT
  ⟨0x040100, 0x20, 3, 0x1000000, 1, 0x0, 0x0, 0x0, 0x0, 0x0, 0x0⟩,  -- TBU_PORT_STAT
  ⟨0x040104, 0x20, 3, 0x1000000, 1, 0x0, 0x0, 0x0, 0x0, 0x0, 0x0⟩,  -- TBU_PORT_MPD
  ⟨0x040108, 0x20, 3, 0x1000000, 1, 0x0, 0x0, 0x0, 0x0, 0x0, 0x0⟩,  -- TBU_PORT_ASYM_STATIC
  ⟨0x04010C, 0x20, 3, 0x1000000, 1, 0x0, 0x0, 0x0, 0x0, 0x0, 0x0⟩,  -- TBU_PORT_ASYM_LIVE
  ⟨0x040110, 0x20, 3, 0x1000000, 1, 0x0, 0x0, 0x0, 0x0, 0x0, 0x0⟩,  -- TBU_PORT_TX_LAT
  ⟨0x040114, 0x20, 3, 0x1000000, 1, 0x0, 0x0, 0x0, 0x0, 0x0, 0x0⟩,  -- TBU_PORT_RX_LAT
  ⟨0x040118, 0x20, 3, 0x1000000, 1, 0x0, 0x0, 0x0, 0x0, 0x0, 0x0⟩  -- TBU_PORT_OFS
]

/-- The banks of Cyc. -/
def banksCyc : List Bank := [
  ⟨0x050000, 0x1000000, 1, 0x1000000, 1, 0x0, 0x0, 0x0, 0x0, 0x0, 0x0⟩,  -- CYC_CONFIG
  ⟨0x050004, 0x1000000, 1, 0x1000000, 1, 0x0, 0x0, 0x0, 0x0, 0x0, 0x0⟩,  -- CYC_PERIOD
  ⟨0x050008, 0x1000000, 1, 0x1000000, 1, 0x0, 0x0, 0x0, 0x0, 0x0, 0x0⟩,  -- CYC_UL_START
  ⟨0x05000C, 0x1000000, 1, 0x1000000, 1, 0x0, 0x0, 0x0, 0x0, 0x0, 0x0⟩,  -- CYC_UL_END
  ⟨0x050010, 0x1000000, 1, 0x1000000, 1, 0x0, 0x0, 0x0, 0x0, 0x0, 0x0⟩,  -- CYC_DL_START
  ⟨0x050014, 0x1000000, 1, 0x1000000, 1, 0x0, 0x0, 0x0, 0x0, 0x0, 0x0⟩,  -- CYC_DL_END
  ⟨0x050018, 0x1000000, 1, 0x1000000, 1, 0x0, 0x0, 0x0, 0x0, 0x0, 0x0⟩,  -- CYC_ACT
  ⟨0x05001C, 0x1000000, 1, 0x1000000, 1, 0x0, 0x0, 0x0, 0x0, 0x0, 0x0⟩,  -- CYC_STATUS
  ⟨0x050020, 0x1000000, 1, 0x1000000, 1, 0x0, 0x0, 0x0, 0x0, 0x0, 0xFFFFFFFF⟩,  -- CYC_LAST_LAND
  ⟨0x050024, 0x1000000, 1, 0x1000000, 1, 0x0, 0x0, 0x0, 0x0, 0x0, 0xFFFFFFFF⟩,  -- CYC_LAST_DONE
  ⟨0x050028, 0x1000000, 1, 0x1000000, 1, 0x0, 0x0, 0x0, 0x0, 0x0, 0xFFFFFFFF⟩,  -- CYC_MIN_SLACK
  ⟨0x05002C, 0x1000000, 1, 0x1000000, 1, 0xFFFFFFFF, 0x0, 0x0, 0x0, 0x0, 0x7D00⟩,  -- CYC_SLACK_THRESH
  ⟨0x050030, 0x1000000, 1, 0x1000000, 1, 0x0, 0x0, 0x0, 0x0, 0x0, 0x0⟩,  -- CYC_LOAD
  ⟨0x050034, 0x1000000, 1, 0x1000000, 1, 0x0, 0x0, 0x3, 0x0, 0x0, 0x0⟩,  -- CYC_CTRL
  ⟨0x050038, 0x1000000, 1, 0x1000000, 1, 0x0, 0x0, 0x0, 0x0, 0xFFFFFFFF, 0x0⟩,  -- CYC_OVERRUN_CNT
  ⟨0x05003C, 0x1000000, 1, 0x1000000, 1, 0x0, 0x0, 0x0, 0x0, 0xFFFFFFFF, 0x0⟩,  -- CYC_SKIP_CNT
  ⟨0x050040, 0x1000000, 1, 0x1000000, 1, 0x0, 0x0, 0x0, 0x0, 0xFFFFFFFF, 0x0⟩,  -- CYC_EXTRAP_CNT
  ⟨0x050044, 0x1000000, 1, 0x1000000, 1, 0x0, 0x0, 0x0, 0x0, 0x0, 0x0⟩  -- CYC_LATE_INFO
]

/-- The banks of Axm. -/
def banksAxm : List Bank := [
  ⟨0x060000, 0x1000000, 1, 0x1000000, 1, 0x0, 0x0, 0x0, 0x0, 0x0, 0x8⟩,  -- AXM_ADMIT_CFG
  ⟨0x060004, 0x1000000, 1, 0x1000000, 1, 0x0, 0x0, 0x0, 0x0, 0x0, 0x7D001F4⟩,  -- AXM_ADMIT_TIMES
  ⟨0x060008, 0x1000000, 1, 0x1000000, 1, 0x0, 0x0, 0x0, 0x0, 0x0, 0x0⟩,  -- AXM_ADMIT_STATUS
  ⟨0x060010, 0x4, 10, 0x1000000, 1, 0x0, 0x0, 0x0, 0x0, 0x0, 0x0⟩,  -- AXM_STATE_COUNT
  ⟨0x060040, 0x4, 8, 0x1000000, 1, 0x0, 0x0, 0x0, 0x0, 0x0, 0x0⟩,  -- AXM_FAULT_MAP
  ⟨0x060060, 0x4, 8, 0x1000000, 1, 0x0, 0xFFFFFFFF, 0x0, 0x0, 0x0, 0x0⟩,  -- AXM_CHANGE_MAP
  ⟨0x060080, 0x1000000, 1, 0x1000000, 1, 0x0, 0x0, 0x0, 0x0, 0xFFFFFFFF, 0x0⟩,  -- AXM_HANDLE_ERR_CNT
  ⟨0x060084, 0x1000000, 1, 0x1000000, 1, 0x0, 0x0, 0x0, 0x0, 0xFFFFFFFF, 0x0⟩  -- AXM_ADMIT_TIMEOUT_CNT
]

/-- The banks of Eiu. -/
def banksEiu : List Bank := [
  ⟨0x080000, 0x1000, 8, 0x1000000, 1, 0x0, 0x0, 0x80000000, 0x0, 0x0, 0xF0000⟩,  -- EIU_MODE
  ⟨0x080004, 0x1000, 8, 0x1000000, 1, 0x0, 0x0, 0x0, 0x0, 0x0, 0x40C80008⟩,  -- EIU_QCFG
  ⟨0x080008, 0x1000, 8, 0x1000000, 1, 0x0, 0x0, 0x0, 0x0, 0x0, 0x4000000⟩,  -- EIU_LINES
  ⟨0x080010, 0x1000, 8, 0x1000000, 1, 0x0, 0x0, 0x0, 0x0, 0x0, 0x0⟩,  -- EIU_POS_LO
  ⟨0x080014, 0x1000, 8, 0x1000000, 1, 0x0, 0x0, 0x0, 0x0, 0x0, 0x0⟩,  -- EIU_POS_HI
  ⟨0x080018, 0x1000, 8, 0x1000000, 1, 0x0, 0x0, 0x0, 0x0, 0x0, 0x0⟩,  -- EIU_SPEED_LO
  ⟨0x08001C, 0x1000, 8, 0x1000000, 1, 0x0, 0x0, 0x0, 0x0, 0x0, 0x0⟩,  -- EIU_SPEED_HI
  ⟨0x080020, 0x1000, 8, 0x1000000, 1, 0x0, 0x7F00, 0x0, 0x0, 0x0, 0x0⟩,  -- EIU_STATUS
  ⟨0x080024, 0x1000, 8, 0x1000000, 1, 0x0, 0x0, 0x0, 0x0, 0x0, 0x40102710⟩,  -- EIU_SPEED_CFG
  ⟨0x080028, 0x1000, 8, 0x1000000, 1, 0x0, 0x0, 0x0, 0x0, 0x0, 0x0⟩,  -- EIU_IDX_POS_LO
  ⟨0x08002C, 0x1000, 8, 0x1000000, 1, 0x0, 0x0, 0x0, 0x0, 0x0, 0x0⟩,  -- EIU_IDX_POS_HI
  ⟨0x080030, 0x1000, 8, 0x1000000, 1, 0x0, 0x0, 0x0, 0x0, 0xFFFFFFFF, 0x0⟩,  -- EIU_ILLEGAL_CNT
  ⟨0x080034, 0x1000, 8, 0x1000000, 1, 0x0, 0x0, 0x0, 0x0, 0xFFFFFFFF, 0x0⟩,  -- EIU_IDX_ERR_CNT
  ⟨0x080038, 0x1000, 8, 0x1000000, 1, 0x0, 0x0, 0x0, 0x0, 0xFFFFFFFF, 0x0⟩,  -- EIU_SER_ERR_CNT
  ⟨0x080040, 0x1000, 8, 0x1000000, 1, 0x380F380F, 0x0, 0xC000C000, 0x0, 0x0, 0x0⟩,  -- EIU_PROBE_CTRL
  ⟨0x080044, 0x1000, 8, 0x1000000, 1, 0x0, 0x0, 0x0, 0x0, 0x0, 0x0⟩,  -- EIU_PROBE_STATUS
  ⟨0x080050, 0x1000, 8, 0x20, 2, 0x0, 0x0, 0x0, 0x0, 0x0, 0x0⟩,  -- EIU_PROBE_POS_LO
  ⟨0x080054, 0x1000, 8, 0x20, 2, 0x0, 0x0, 0x0, 0x0, 0x0, 0x0⟩,  -- EIU_PROBE_POS_HI
  ⟨0x080058, 0x1000, 8, 0x20, 2, 0x0, 0x0, 0x0, 0x0, 0x0, 0x0⟩,  -- EIU_PROBE_TIME0
  ⟨0x08005C, 0x1000, 8, 0x20, 2, 0x0, 0x0, 0x0, 0x0, 0x0, 0x0⟩,  -- EIU_PROBE_TIME1
  ⟨0x080060, 0x1000, 8, 0x20, 2, 0x0, 0x0, 0x0, 0x0, 0x0, 0x0⟩,  -- EIU_PROBE_TIME2
  ⟨0x080090, 0x1000, 8, 0x1000000, 1, 0x0, 0x0, 0x0, 0x0, 0x0, 0x0⟩,  -- EIU_SC_OS_SIN
  ⟨0x080094, 0x1000, 8, 0x1000000, 1, 0x0, 0x0, 0x0, 0x0, 0x0, 0x0⟩,  -- EIU_SC_OS_COS
  ⟨0x080098, 0x1000, 8, 0x1000000, 1, 0x0, 0x0, 0x0, 0x0, 0x0, 0x40000000⟩,  -- EIU_SC_GAIN
  ⟨0x08009C, 0x1000, 8, 0x1000000, 1, 0x0, 0x0, 0x0, 0x0, 0x0, 0x0⟩,  -- EIU_SC_PHASE
  ⟨0x0800A0, 0x1000, 8, 0x1000000, 1, 0x0, 0x0, 0x0, 0x0, 0xFFFFFFFF, 0x0⟩,  -- EIU_SC_FIT
  ⟨0x0800B0, 0x1000, 8, 0x1000000, 1, 0x0, 0x0, 0x0, 0x0, 0x0, 0x0⟩,  -- EIU_SER_CFG
  ⟨0x0800B4, 0x1000, 8, 0x1000000, 1, 0x0, 0x0, 0x0, 0x0, 0x0, 0x0⟩,  -- EIU_SER_TIMING
  ⟨0x0800BC, 0x1000, 8, 0x1000000, 1, 0x0, 0x0, 0x0, 0x0, 0x0, 0x80060003⟩,  -- EIU_SER_CRC
  ⟨0x0800C0, 0x1000, 8, 0x1000000, 1, 0x1E007FFF, 0x0, 0x80000000, 0x0, 0x0, 0x0⟩  -- EIU_BISS_CMD
]

/-- The banks of Dio. -/
def banksDio : List Bank := [
  ⟨0x0A0000, 0x10, 16, 0x1000000, 1, 0x0, 0x0, 0x0, 0x0, 0x0, 0x800000⟩,  -- DIO_IN_CFG
  ⟨0x0A0004, 0x10, 16, 0x1000000, 1, 0x0, 0x0, 0x0, 0x0, 0x0, 0xA⟩,  -- DIO_IN_TIME
  ⟨0x0A0008, 0x10, 16, 0x1000000, 1, 0x0, 0x0, 0x0, 0x0, 0x0, 0xA14⟩,  -- DIO_IN_RATE
  ⟨0x0A000C, 0x10, 16, 0x1000000, 1, 0x0, 0x0, 0x0, 0x0, 0x0, 0x0⟩,  -- DIO_IN_HYST
  ⟨0x0A0100, 0x1000000, 1, 0x1000000, 1, 0x0, 0x0, 0x0, 0x0, 0x0, 0x0⟩,  -- DIO_IN_LEVEL
  ⟨0x0A0104, 0x1000000, 1, 0x1000000, 1, 0x0, 0x0, 0x0, 0x0, 0x0, 0x0⟩,  -- DIO_IN_MASK
  ⟨0x0A0108, 0x1000000, 1, 0x1000000, 1, 0x0, 0xFFFF, 0x0, 0x0, 0x0, 0x0⟩,  -- DIO_IN_STUCK
  ⟨0x0A010C, 0x1000000, 1, 0x1000000, 1, 0x0, 0xFFFFFFFF, 0x0, 0x0, 0x0, 0x0⟩,  -- DIO_IN_RATE_FLAGS
  ⟨0x0A0110, 0x1000000, 1, 0x1000000, 1, 0x0, 0x0, 0x0, 0x0, 0x0, 0x0⟩,  -- DIO_LIM_LATCH
  ⟨0x0A0114, 0x1000000, 1, 0x1000000, 1, 0x0, 0x0, 0x0, 0x0, 0xFFFFFFFF, 0x0⟩,  -- DIO_STUCK_CNT
  ⟨0x0A0118, 0x1000000, 1, 0x1000000, 1, 0x0, 0x0, 0x0, 0x0, 0xFFFFFFFF, 0x0⟩,  -- DIO_OVERRATE_CNT
  ⟨0x0A011C, 0x1000000, 1, 0x1000000, 1, 0x0, 0x0, 0x0, 0x0, 0xFFFFFFFF, 0x0⟩,  -- DIO_CHATTER_CNT
  ⟨0x0A0200, 0x4, 16, 0x1000000, 1, 0x0, 0x0, 0x0, 0x0, 0x0, 0x0⟩,  -- DIO_OUT_CFG
  ⟨0x0A0240, 0x1000000, 1, 0x1000000, 1, 0x0, 0x0, 0x0, 0xFFFF, 0x0, 0x0⟩,  -- DIO_OUT_SET
  ⟨0x0A0244, 0x1000000, 1, 0x1000000, 1, 0x0, 0x0, 0x0, 0xFFFF, 0x0, 0x0⟩,  -- DIO_OUT_CLR
  ⟨0x0A0248, 0x1000000, 1, 0x1000000, 1, 0x0, 0x0, 0x0, 0x0, 0x0, 0x0⟩,  -- DIO_OUT_STATE
  ⟨0x0A024C, 0x1000000, 1, 0x1000000, 1, 0x0, 0x0, 0x0, 0x0, 0xFFFFFFFF, 0x0⟩,  -- DIO_OUT_LATE_CNT
  ⟨0x0A0250, 0x1000000, 1, 0x1000000, 1, 0x0, 0x0, 0x0, 0x0, 0xFFFFFFFF, 0x0⟩,  -- DIO_OUT_SHIFT_CNT
  ⟨0x0A0254, 0x1000000, 1, 0x1000000, 1, 0x0, 0x0, 0x0, 0x0, 0xFFFFFFFF, 0x0⟩  -- DIO_OUT_QFULL_CNT
]

/-- The banks of Lau. -/
def banksLau : List Bank := [
  ⟨0x0B0000, 0x1000000, 1, 0x1000000, 1, 0x0, 0x0, 0x0, 0x0, 0x0, 0x0⟩,  -- LAU_CFG
  ⟨0x0B0004, 0x1000000, 1, 0x1000000, 1, 0x0, 0x0, 0x0, 0x0, 0x0, 0x0⟩,  -- LAU_CAM_BASE_LO
  ⟨0x0B0008, 0x1000000, 1, 0x1000000, 1, 0x0, 0x0, 0x0, 0x0, 0x0, 0x0⟩,  -- LAU_CAM_BASE_HI
  ⟨0x0B0020, 0x4, 8, 0x1000000, 1, 0x0, 0x0, 0x0, 0x0, 0x0, 0x0⟩,  -- LAU_LINK_MAP
  ⟨0x0B0040, 0x4, 8, 0x1000000, 1, 0x0, 0x0, 0x0, 0x0, 0x0, 0x0⟩,  -- LAU_CAM_MAP
  ⟨0x0B0060, 0x4, 4, 0x1000000, 1, 0x0, 0x0, 0x0, 0x0, 0x0, 0x0⟩,  -- LAU_CMP_ARMED_MAP
  ⟨0x0B0070, 0x4, 4, 0x1000000, 1, 0x0, 0xFFFFFFFF, 0x0, 0x0, 0x0, 0x0⟩,  -- LAU_CMP_FIRED_MAP
  ⟨0x0B0080, 0x1000000, 1, 0x1000000, 1, 0x0, 0x0, 0x0, 0x0, 0xFFFFFFFF, 0x0⟩,  -- LAU_SRC_LOST_CNT
  ⟨0x0B0084, 0x1000000, 1, 0x1000000, 1, 0x0, 0x0, 0x0, 0x0, 0xFFFFFFFF, 0x0⟩,  -- LAU_REMOTE_LATE_CNT
  ⟨0x0B0088, 0x1000000, 1, 0x1000000, 1, 0x0, 0x0, 0x0, 0x0, 0xFFFFFFFF, 0x0⟩,  -- LAU_EVT_LATE_CNT
  ⟨0x0B008C, 0x1000000, 1, 0x1000000, 1, 0x0, 0x0, 0x0, 0x0, 0xFFFFFFFF, 0x0⟩,  -- LAU_EVT_LOST_CNT
  ⟨0x0B0090, 0x1000000, 1, 0x1000000, 1, 0x0, 0x0, 0x0, 0x0, 0xFFFFFFFF, 0x0⟩,  -- LAU_CAM_STAGE_CNT
  ⟨0x0B0094, 0x1000000, 1, 0x1000000, 1, 0x0, 0x0, 0x0, 0x0, 0xFFFFFFFF, 0x0⟩,  -- LAU_GEAR_VLIM_CNT
  ⟨0x0B0098, 0x1000000, 1, 0x1000000, 1, 0x0, 0x0, 0x0, 0x0, 0xFFFFFFFF, 0x0⟩,  -- LAU_EDGE_REJ_CNT
  ⟨0x0B0100, 0x20, 16, 0x1000000, 1, 0x0, 0x0, 0x0, 0x0, 0x0, 0x0⟩,  -- LAU_LA_CFG
  ⟨0x0B0104, 0x20, 16, 0x1000000, 1, 0x0, 0x0, 0x0, 0x0, 0x0, 0x0⟩,  -- LAU_LA_STATUS
  ⟨0x0B0108, 0x20, 16, 0x1000000, 1, 0x0, 0x0, 0x0, 0x0, 0x0, 0x0⟩,  -- LAU_LA_ANGLE_LO
  ⟨0x0B010C, 0x20, 16, 0x1000000, 1, 0x0, 0x0, 0x0, 0x0, 0x0, 0x0⟩,  -- LAU_LA_ANGLE_HI
  ⟨0x0B0110, 0x20, 16, 0x1000000, 1, 0x0, 0x0, 0x0, 0x0, 0x0, 0x0⟩,  -- LAU_LA_VEL_LO
  ⟨0x0B0114, 0x20, 16, 0x1000000, 1, 0x0, 0x0, 0x0, 0x0, 0x0, 0x0⟩,  -- LAU_LA_VEL_HI
  ⟨0x0B0118, 0x20, 16, 0x1000000, 1, 0x0, 0x0, 0x0, 0x0, 0x0, 0x0⟩,  -- LAU_LA_CORR_LO
  ⟨0x0B011C, 0x20, 16, 0x1000000, 1, 0x0, 0x0, 0x0, 0x0, 0x0, 0x0⟩,  -- LAU_LA_CORR_HI
  ⟨0x0B1000, 0x20, 128, 0x1000000, 1, 0x0, 0x0, 0x0, 0x0, 0x0, 0x0⟩,  -- LAU_UNIT_RES_LO
  ⟨0x0B1004, 0x20, 128, 0x1000000, 1, 0x0, 0x0, 0x0, 0x0, 0x0, 0x0⟩,  -- LAU_UNIT_RES_HI
  ⟨0x0B1008, 0x20, 128, 0x1000000, 1, 0x0, 0x0, 0x0, 0x0, 0x0, 0x0⟩,  -- LAU_UNIT_RES_STAMP
  ⟨0x0B100C, 0x20, 128, 0x1000000, 1, 0x0, 0x0, 0x0, 0x0, 0x0, 0x0⟩,  -- LAU_UNIT_RES_CYCLE
  ⟨0x0B1010, 0x20, 128, 0x1000000, 1, 0x0, 0x0, 0x0, 0x0, 0x0, 0x0⟩,  -- LAU_UNIT_ARM_CYCLE
  ⟨0x0B1014, 0x20, 128, 0x1000000, 1, 0x0, 0x0, 0x0, 0x0, 0x0, 0x0⟩  -- LAU_UNIT_STAT
]

/-- The banks of Pgn. -/
def banksPgn : List Bank := [
  ⟨0x0C0000, 0x1000000, 1, 0x1000000, 1, 0x0, 0x0, 0x0, 0x0, 0x0, 0x0⟩,  -- PGN_CFG
  ⟨0x0C0020, 0x4, 8, 0x1000000, 1, 0x0, 0x0, 0x0, 0x0, 0x0, 0x0⟩,  -- PGN_HOLD_MAP
  ⟨0x0C0040, 0x4, 8, 0x1000000, 1, 0x0, 0x0, 0x0, 0x0, 0x0, 0x0⟩,  -- PGN_LIMSTOP_MAP
  ⟨0x0C0060, 0x4, 8, 0x1000000, 1, 0x0, 0x0, 0x0, 0x0, 0x0, 0x0⟩,  -- PGN_HOMED_MAP
  ⟨0x0C0080, 0x1000000, 1, 0x1000000, 1, 0x0, 0x0, 0x0, 0x0, 0xFFFFFFFF, 0x0⟩,  -- PGN_SEG_CNT
  ⟨0x0C0084, 0x1000000, 1, 0x1000000, 1, 0x0, 0x0, 0x0, 0x0, 0xFFFFFFFF, 0x0⟩,  -- PGN_QFULL_CNT
  ⟨0x0C0088, 0x1000000, 1, 0x1000000, 1, 0x0, 0x0, 0x0, 0x0, 0xFFFFFFFF, 0x0⟩,  -- PGN_REFUSE_CNT
  ⟨0x0C008C, 0x1000000, 1, 0x1000000, 1, 0x0, 0x0, 0x0, 0x0, 0xFFFFFFFF, 0x0⟩,  -- PGN_LIMSTOP_CNT
  ⟨0x0C0090, 0x1000000, 1, 0x1000000, 1, 0x0, 0x0, 0x0, 0x0, 0xFFFFFFFF, 0x0⟩,  -- PGN_HOMEFAULT_CNT
  ⟨0x0C0094, 0x1000000, 1, 0x1000000, 1, 0x0, 0x0, 0x0, 0x0, 0xFFFFFFFF, 0x0⟩,  -- PGN_HELD_CNT
  ⟨0x0C00A0, 0x1000000, 1, 0x1000000, 1, 0x0, 0x0, 0x0, 0x0, 0x0, 0x0⟩  -- PGN_LAST_STOP
]

/-- The banks of Cea. -/
def banksCea : List Bank := [
  ⟨0x0D0000, 0x1000000, 1, 0x1000000, 1, 0x0, 0x0, 0x0, 0x0, 0x0, 0x1812⟩,  -- CEA_CFG
  ⟨0x0D0004, 0x1000000, 1, 0x1000000, 1, 0x0, 0x0, 0x0, 0x0, 0x0, 0x0⟩,  -- CEA_CODE
  ⟨0x0D0008, 0x1000000, 1, 0x1000000, 1, 0x0, 0x0, 0x0, 0x0, 0x0, 0x0⟩,  -- CEA_SVC_MAP
  ⟨0x0D000C, 0x1000000, 1, 0x1000000, 1, 0x0, 0x0, 0x0, 0x0, 0x0, 0x0⟩,  -- CEA_SPARE_MAP
  ⟨0x0D0010, 0x1000000, 1, 0x1000000, 1, 0x0, 0x0, 0x0, 0x0, 0x0, 0x0⟩,  -- CEA_BUSY_MAP
  ⟨0x0D0014, 0x1000000, 1, 0x1000000, 1, 0x0, 0x3FFFF, 0x0, 0x0, 0x0, 0x0⟩,  -- CEA_FAULT_MAP
  ⟨0x0D0018, 0x1000000, 1, 0x1000000, 1, 0x0, 0x0, 0x1, 0x0, 0x0, 0x0⟩,  -- CEA_CTRL
  ⟨0x0D001C, 0x1000000, 1, 0x1000000, 1, 0x0, 0x0, 0x0, 0x0, 0x0, 0x0⟩,  -- CEA_LAST_FAULT
  ⟨0x0D0020, 0x1000000, 1, 0x1000000, 1, 0x0, 0x0, 0x0, 0x0, 0xFFFFFFFF, 0x0⟩,  -- CEA_FAULT_CNT
  ⟨0x0D0024, 0x1000000, 1, 0x1000000, 1, 0x0, 0x0, 0x0, 0x0, 0xFFFFFFFF, 0x0⟩,  -- CEA_HALT_CNT
  ⟨0x0D0028, 0x1000000, 1, 0x1000000, 1, 0x0, 0x0, 0x0, 0x0, 0xFFFFFFFF, 0x0⟩,  -- CEA_ABORT_CNT
  ⟨0x0D002C, 0x1000000, 1, 0x1000000, 1, 0x0, 0x0, 0x0, 0x0, 0xFFFFFFFF, 0x0⟩,  -- CEA_URGENT_CNT
  ⟨0x0D0030, 0x1000000, 1, 0x1000000, 1, 0x0, 0x0, 0x0, 0x0, 0xFFFFFFFF, 0x0⟩,  -- CEA_STAGE_MISS_CNT
  ⟨0x0D0034, 0x1000000, 1, 0x1000000, 1, 0x0, 0x0, 0x0, 0x0, 0xFFFFFFFF, 0x0⟩,  -- CEA_COST_EXC_CNT
  ⟨0x0D0100, 0x4, 18, 0x1000000, 1, 0x0, 0x0, 0x0, 0x0, 0x0, 0x0⟩,  -- CEA_ENG_STAT
  ⟨0x0D0400, 0x4, 64, 0x1000000, 1, 0x0, 0x0, 0x0, 0x0, 0x0, 0x0⟩,  -- CEA_KSET_INFO
  ⟨0x0D0500, 0x4, 64, 0x1000000, 1, 0x0, 0x0, 0x0, 0x0, 0x0, 0x0⟩  -- CEA_KSET_OBS
]

/-- The banks of Cmu. -/
def banksCmu : List Bank := [
  ⟨0x100000, 0x1000000, 1, 0x1000000, 1, 0x0, 0x0, 0x0, 0x0, 0x0, 0x0⟩,  -- CMU_CFG
  ⟨0x100020, 0x4, 8, 0x1000000, 1, 0x0, 0x0, 0x0, 0x0, 0x0, 0x0⟩,  -- CMU_LOST_MAP
  ⟨0x100040, 0x4, 8, 0x1000000, 1, 0x0, 0x0, 0x0, 0x0, 0x0, 0x0⟩,  -- CMU_ASC_MAP
  ⟨0x100060, 0x4, 8, 0x1000000, 1, 0x0, 0x0, 0x0, 0x0, 0x0, 0x0⟩,  -- CMU_HELD_MAP
  ⟨0x100080, 0x1000000, 1, 0x1000000, 1, 0x0, 0x0, 0x0, 0x0, 0xFFFFFFFF, 0x0⟩,  -- CMU_LOST_CNT
  ⟨0x100084, 0x1000000, 1, 0x1000000, 1, 0x0, 0x0, 0x0, 0x0, 0xFFFFFFFF, 0x0⟩,  -- CMU_RECATCH_OK_CNT
  ⟨0x100088, 0x1000000, 1, 0x1000000, 1, 0x0, 0x0, 0x0, 0x0, 0xFFFFFFFF, 0x0⟩,  -- CMU_RECATCH_FAIL_CNT
  ⟨0x10008C, 0x1000000, 1, 0x1000000, 1, 0x0, 0x0, 0x0, 0x0, 0xFFFFFFFF, 0x0⟩,  -- CMU_START_RETRY_CNT
  ⟨0x100090, 0x1000000, 1, 0x1000000, 1, 0x0, 0x0, 0x0, 0x0, 0xFFFFFFFF, 0x0⟩,  -- CMU_START_FAIL_CNT
  ⟨0x100094, 0x1000000, 1, 0x1000000, 1, 0x0, 0x0, 0x0, 0x0, 0xFFFFFFFF, 0x0⟩,  -- CMU_CMD_BAD_CNT
  ⟨0x100098, 0x1000000, 1, 0x1000000, 1, 0x0, 0x0, 0x0, 0x0, 0xFFFFFFFF, 0x0⟩,  -- CMU_OFS_CNT
  ⟨0x1000A0, 0x1000000, 1, 0x1000000, 1, 0x0, 0x0, 0x0, 0x0, 0x0, 0x0⟩,  -- CMU_LAST_LOSS
  ⟨0x100100, 0x1000000, 1, 0x1000000, 1, 0x0, 0x0, 0x0, 0x0, 0x0, 0x1AC1AD1B⟩,  -- CMU_SWTAB00
  ⟨0x100104, 0x1000000, 1, 0x1000000, 1, 0x0, 0x0, 0x0, 0x0, 0x0, 0xCB1ED1E9⟩,  -- CMU_SWTAB01
  ⟨0x100108, 0x1000000, 1, 0x1000000, 1, 0x0, 0x0, 0x0, 0x0, 0x0, 0xB1DA1C91⟩,  -- CMU_SWTAB02
  ⟨0x10010C, 0x1000000, 1, 0x1000000, 1, 0x0, 0x0, 0x0, 0x0, 0x0, 0x19A19E1D⟩,  -- CMU_SWTAB03
  ⟨0x100110, 0x1000000, 1, 0x1000000, 1, 0x0, 0x0, 0x0, 0x0, 0x0, 0xE1BC⟩,  -- CMU_SWTAB04
  ⟨0x100114, 0x1000000, 1, 0x1000000, 1, 0x0, 0x0, 0x0, 0x0, 0x0, 0x0⟩,  -- CMU_SWTAB05
  ⟨0x100118, 0x1000000, 1, 0x1000000, 1, 0x0, 0x0, 0x0, 0x0, 0x0, 0x0⟩,  -- CMU_SWTAB06
  ⟨0x10011C, 0x1000000, 1, 0x1000000, 1, 0x0, 0x0, 0x0, 0x0, 0x0, 0x0⟩,  -- CMU_SWTAB07
  ⟨0x100120, 0x1000000, 1, 0x1000000, 1, 0x0, 0x0, 0x0, 0x0, 0x0, 0x0⟩,  -- CMU_SWTAB08
  ⟨0x100140, 0x40, 3, 0x4, 9, 0x0, 0x0, 0x0, 0x0, 0x0, 0x11111111⟩  -- CMU_SWTAB1
]

/-- The banks of Slc. -/
def banksSlc : List Bank := [
  ⟨0x120000, 0x1000000, 1, 0x1000000, 1, 0x0, 0x0, 0x0, 0x0, 0x0, 0x88B51000⟩,  -- SLC_CFG
  ⟨0x120004, 0x1000000, 1, 0x1000000, 1, 0x0, 0x0, 0x0, 0x0, 0x0, 0x10002808⟩,  -- SLC_TIMING
  ⟨0x120008, 0x1000000, 1, 0x1000000, 1, 0x0, 0x0, 0x0, 0x0, 0x0, 0x10⟩,  -- SLC_ASYM
  ⟨0x12000C, 0x1000000, 1, 0x1000000, 1, 0x0, 0x0, 0x0, 0x0, 0x0, 0x0⟩,  -- SLC_PLAN
  ⟨0x120010, 0x1000000, 1, 0x1000000, 1, 0x0, 0x0, 0x0, 0x0, 0x0, 0x0⟩,  -- SLC_STATUS
  ⟨0x120020, 0x4, 4, 0x1000000, 1, 0x0, 0x0, 0x0, 0x0, 0x0, 0x0⟩,  -- SLC_SPARE_FREE
  ⟨0x120040, 0x1000000, 1, 0x1000000, 1, 0x0, 0x0, 0x0, 0x0, 0xFFFFFFFF, 0x0⟩,  -- SLC_HDR_ERR_CNT
  ⟨0x120044, 0x1000000, 1, 0x1000000, 1, 0x0, 0x0, 0x0, 0x0, 0xFFFFFFFF, 0x0⟩,  -- SLC_FCS_ERR_CNT
  ⟨0x120048, 0x1000000, 1, 0x1000000, 1, 0x0, 0x0, 0x0, 0x0, 0xFFFFFFFF, 0x0⟩,  -- SLC_REC_ERR_CNT
  ⟨0x12004C, 0x1000000, 1, 0x1000000, 1, 0x0, 0x0, 0x0, 0x0, 0xFFFFFFFF, 0x0⟩,  -- SLC_EMPTY_CNT
  ⟨0x120050, 0x1000000, 1, 0x1000000, 1, 0x0, 0x0, 0x0, 0x0, 0xFFFFFFFF, 0x0⟩,  -- SLC_EDGE_CNT
  ⟨0x120054, 0x1000000, 1, 0x1000000, 1, 0x0, 0x0, 0x0, 0x0, 0xFFFFFFFF, 0x0⟩,  -- SLC_BABBLE_CNT
  ⟨0x120058, 0x1000000, 1, 0x1000000, 1, 0x0, 0x0, 0x0, 0x0, 0xFFFFFFFF, 0x0⟩,  -- SLC_FENCE_CNT
  ⟨0x12005C, 0x1000000, 1, 0x1000000, 1, 0x0, 0x0, 0x0, 0x0, 0xFFFFFFFF, 0x0⟩,  -- SLC_JOIN_CNT
  ⟨0x120060, 0x1000000, 1, 0x1000000, 1, 0x0, 0x0, 0x0, 0x0, 0xFFFFFFFF, 0x0⟩,  -- SLC_JOIN_REF_CNT
  ⟨0x120064, 0x1000000, 1, 0x1000000, 1, 0x0, 0x0, 0x0, 0x0, 0xFFFFFFFF, 0x0⟩,  -- SLC_CHDIFF_CNT
  ⟨0x120068, 0x1000000, 1, 0x1000000, 1, 0x0, 0x0, 0x0, 0x0, 0xFFFFFFFF, 0x0⟩,  -- SLC_LATE_REC_CNT
  ⟨0x12006C, 0x1000000, 1, 0x1000000, 1, 0x0, 0x0, 0x0, 0x0, 0xFFFFFFFF, 0x0⟩,  -- SLC_FOREIGN_CNT
  ⟨0x120070, 0x1000000, 1, 0x1000000, 1, 0x0, 0x0, 0x0, 0x0, 0x0, 0x0⟩,  -- SLC_LAST_EDGE
  ⟨0x120100, 0x4, 8, 0x1000000, 1, 0x0, 0x0, 0x0, 0x0, 0x0, 0x0⟩,  -- SLC_PORT_STAT
  ⟨0x124000, 0x20, 256, 0x1000000, 1, 0x0, 0x0, 0x0, 0x0, 0x0, 0x0⟩,  -- SLC_NODE_STAT
  ⟨0x124004, 0x20, 256, 0x1000000, 1, 0x0, 0x0, 0x0, 0x0, 0x0, 0x0⟩,  -- SLC_NODE_ARR
  ⟨0x124008, 0x20, 256, 0x1000000, 1, 0x0, 0x0, 0x0, 0x0, 0x0, 0x0⟩,  -- SLC_NODE_TCORR
  ⟨0x12400C, 0x20, 256, 0x1000000, 1, 0x0, 0x0, 0x0, 0x0, 0xFFFFFFFF, 0x0⟩,  -- SLC_NODE_EMPTY_CNT
  ⟨0x124010, 0x20, 256, 0x1000000, 1, 0x0, 0x0, 0x0, 0x0, 0xFFFFFFFF, 0x0⟩,  -- SLC_NODE_MISS
  ⟨0x124014, 0x20, 256, 0x1000000, 1, 0x0, 0x0, 0x0, 0x0, 0xFFFFFFFF, 0x0⟩,  -- SLC_NODE_EDGE_CNT
  ⟨0x124018, 0x20, 256, 0x1000000, 1, 0x0, 0x0, 0x0, 0x0, 0xFFFFFFFF, 0x0⟩,  -- SLC_NODE_BAD
  ⟨0x12401C, 0x20, 256, 0x1000000, 1, 0x0, 0x0, 0x0, 0x0, 0x0, 0x0⟩  -- SLC_NODE_DIAG
]

/-- The banks of SlcT. -/
def banksSlcT : List Bank := [
  ⟨0x130000, 0x4, 4096, 0x1000000, 1, 0x0, 0x0, 0x0, 0x0, 0x0, 0x0⟩,  -- SLC_SLOT_TAB
  ⟨0x134000, 0x4, 4096, 0x1000000, 1, 0x0, 0x0, 0x0, 0x0, 0x0, 0x0⟩,  -- SLC_REC_MAP
  ⟨0x138000, 0x4, 1024, 0x1000000, 1, 0x0, 0x0, 0x0, 0x0, 0x0, 0x0⟩  -- SLC_NODE_TAB
]

/-- The banks of Fbr. -/
def banksFbr : List Bank := [
  ⟨0x140000, 0x1000000, 1, 0x1000000, 1, 0x0, 0x0, 0x0, 0x0, 0x0, 0x88B60432⟩,  -- FBR_CFG
  ⟨0x140004, 0x1000000, 1, 0x1000000, 1, 0x0, 0x0, 0x0, 0x0, 0x0, 0x0⟩,  -- FBR_STATUS
  ⟨0x140008, 0x1000000, 1, 0x1000000, 1, 0x0, 0x0, 0x0, 0x0, 0x0, 0x0⟩,  -- FBR_MEMBER_MAP_LO
  ⟨0x14000C, 0x1000000, 1, 0x1000000, 1, 0x0, 0x0, 0x0, 0x0, 0x0, 0x0⟩,  -- FBR_MEMBER_MAP_HI
  ⟨0x140010, 0x1000000, 1, 0x1000000, 1, 0x0, 0x0, 0x0, 0x0, 0x0, 0x0⟩,  -- FBR_MISMATCH_MAP_LO
  ⟨0x140014, 0x1000000, 1, 0x1000000, 1, 0x0, 0x0, 0x0, 0x0, 0x0, 0x0⟩,  -- FBR_MISMATCH_MAP_HI
  ⟨0x140018, 0x1000000, 1, 0x1000000, 1, 0x0, 0x0, 0x0, 0x0, 0x0, 0x0⟩,  -- FBR_STALE_MAP_LO
  ⟨0x14001C, 0x1000000, 1, 0x1000000, 1, 0x0, 0x0, 0x0, 0x0, 0x0, 0x0⟩,  -- FBR_STALE_MAP_HI
  ⟨0x140020, 0x1000000, 1, 0x1000000, 1, 0x0, 0x0, 0x0, 0x0, 0x0, 0x0⟩,  -- FBR_EPOCH
  ⟨0x140024, 0x1000000, 1, 0x1000000, 1, 0x0, 0x0, 0x0, 0x0, 0x0, 0x0⟩,  -- FBR_EPOCH_STAT
  ⟨0x140028, 0x1000000, 1, 0x1000000, 1, 0x0, 0x0, 0x0, 0x0, 0x0, 0x0⟩,  -- FBR_EPOCH_ACT_LO
  ⟨0x14002C, 0x1000000, 1, 0x1000000, 1, 0x0, 0x0, 0x0, 0x0, 0x0, 0x0⟩,  -- FBR_EPOCH_ACT_HI
  ⟨0x140040, 0x4, 8, 0x1000000, 1, 0x0, 0x0, 0x0, 0x0, 0x0, 0x0⟩,  -- FBR_CANDLE
  ⟨0x140060, 0x1000000, 1, 0x1000000, 1, 0x0, 0x0, 0x0, 0x0, 0xFFFFFFFF, 0x0⟩,  -- FBR_CHECK_ERR_CNT
  ⟨0x140064, 0x1000000, 1, 0x1000000, 1, 0x0, 0x0, 0x0, 0x0, 0xFFFFFFFF, 0x0⟩,  -- FBR_CYCLE_SKEW_CNT
  ⟨0x140068, 0x1000000, 1, 0x1000000, 1, 0x0, 0x0, 0x0, 0x0, 0xFFFFFFFF, 0x0⟩,  -- FBR_WRAP_CNT
  ⟨0x14006C, 0x1000000, 1, 0x1000000, 1, 0x0, 0x0, 0x0, 0x0, 0xFFFFFFFF, 0x0⟩,  -- FBR_TOPO_CNT
  ⟨0x140070, 0x1000000, 1, 0x1000000, 1, 0x0, 0x0, 0x0, 0x0, 0xFFFFFFFF, 0x0⟩,  -- FBR_HELD_CNT
  ⟨0x140100, 0x4, 64, 0x1000000, 1, 0x0, 0x0, 0x0, 0x0, 0x0, 0x0⟩,  -- FBR_ROUTE
  ⟨0x140200, 0x8, 64, 0x1000000, 1, 0x0, 0x0, 0x0, 0x0, 0x0, 0x0⟩,  -- FBR_FSLOT_START
  ⟨0x140204, 0x8, 64, 0x1000000, 1, 0x0, 0x0, 0x0, 0x0, 0x0, 0x0⟩  -- FBR_FSLOT_LEN
]

/-- The banks of Twu. -/
def banksTwu : List Bank := [
  ⟨0x150000, 0x1000000, 1, 0x1000000, 1, 0x0, 0x0, 0x0, 0x0, 0x0, 0x40400⟩,  -- TWU_CFG
  ⟨0x150004, 0x1000000, 1, 0x1000000, 1, 0x0, 0x0, 0x0, 0x0, 0x0, 0x10000400⟩,  -- TWU_STATUS
  ⟨0x150008, 0x1000000, 1, 0x1000000, 1, 0x0, 0x0, 0x0, 0x0, 0x0, 0x0⟩,  -- TWU_PARTNER_LO
  ⟨0x15000C, 0x1000000, 1, 0x1000000, 1, 0x0, 0x0, 0x0, 0x0, 0x0, 0x0⟩,  -- TWU_PARTNER_HI
  ⟨0x150010, 0x1000000, 1, 0x1000000, 1, 0x0, 0x0, 0x0, 0x0, 0x0, 0x0⟩,  -- TWU_PEER_LO
  ⟨0x150014, 0x1000000, 1, 0x1000000, 1, 0x0, 0x0, 0x0, 0x0, 0x0, 0x0⟩,  -- TWU_PEER_HI
  ⟨0x150018, 0x1000000, 1, 0x1000000, 1, 0x0, 0x0, 0x0, 0x0, 0x0, 0x0⟩,  -- TWU_PROBATION
  ⟨0x15001C, 0x1000000, 1, 0x1000000, 1, 0x0, 0x0, 0x3, 0x0, 0x0, 0x0⟩,  -- TWU_CTRL
  ⟨0x150020, 0x1000000, 1, 0x1000000, 1, 0x0, 0x0, 0x0, 0xFFFFFFFF, 0x0, 0x0⟩,  -- TWU_ACCEPT
  ⟨0x150030, 0x1000000, 1, 0x1000000, 1, 0x0, 0x0, 0x0, 0x0, 0xFFFFFFFF, 0x0⟩,  -- TWU_TAKEOVER_CNT
  ⟨0x150034, 0x1000000, 1, 0x1000000, 1, 0x0, 0x0, 0x0, 0x0, 0xFFFFFFFF, 0x0⟩,  -- TWU_MISMATCH_CNT
  ⟨0x150038, 0x1000000, 1, 0x1000000, 1, 0x0, 0x0, 0x0, 0x0, 0xFFFFFFFF, 0x0⟩,  -- TWU_RESYNC_CNT
  ⟨0x15003C, 0x1000000, 1, 0x1000000, 1, 0x0, 0x0, 0x0, 0x0, 0xFFFFFFFF, 0x0⟩,  -- TWU_WICK_FAULT_CNT
  ⟨0x150040, 0x1000000, 1, 0x1000000, 1, 0x0, 0x0, 0x0, 0x0, 0xFFFFFFFF, 0x0⟩,  -- TWU_INPUT_DIFF_CNT
  ⟨0x150044, 0x1000000, 1, 0x1000000, 1, 0x0, 0x0, 0x0, 0x0, 0xFFFFFFFF, 0x0⟩,  -- TWU_LATE_DIFF_CNT
  ⟨0x150050, 0x1000000, 1, 0x1000000, 1, 0x0, 0x0, 0x0, 0x0, 0x0, 0x0⟩,  -- TWU_LAST_MISMATCH
  ⟨0x150054, 0x1000000, 1, 0x1000000, 1, 0x0, 0x0, 0x0, 0x0, 0x0, 0x0⟩  -- TWU_LAST_TAKEOVER
]

/-- The banks of Sfi. -/
def banksSfi : List Bank := [
  ⟨0x160000, 0x1000000, 1, 0x1000000, 1, 0x0, 0x0, 0x0, 0x0, 0x0, 0x0⟩,  -- SFI_STATUS
  ⟨0x160004, 0x1000000, 1, 0x1000000, 1, 0x0, 0x0, 0x0, 0x0, 0x0, 0x0⟩,  -- SFI_PARAM_ID
  ⟨0x160008, 0x1000000, 1, 0x1000000, 1, 0x0, 0x0, 0x0, 0x0, 0x0, 0x0⟩,  -- SFI_IN_STATE
  ⟨0x16000C, 0x1000000, 1, 0x1000000, 1, 0x0, 0x0, 0x0, 0x0, 0x0, 0x0⟩,  -- SFI_OUT_STATE
  ⟨0x160020, 0x4, 8, 0x1000000, 1, 0x0, 0x0, 0x0, 0x0, 0x0, 0xFFFFFFFF⟩,  -- SFI_STO_MAP
  ⟨0x160040, 0x4, 16, 0x1000000, 1, 0x0, 0x0, 0x0, 0x0, 0x0, 0x0⟩,  -- SFI_CONN_LOST_MAP
  ⟨0x160080, 0x1000000, 1, 0x1000000, 1, 0x0, 0x0, 0x0, 0x0, 0x0, 0x0⟩,  -- SFI_CRC_ERR_CNT
  ⟨0x160084, 0x1000000, 1, 0x1000000, 1, 0x0, 0x0, 0x0, 0x0, 0x0, 0x0⟩,  -- SFI_SEQ_ERR_CNT
  ⟨0x160088, 0x1000000, 1, 0x1000000, 1, 0x0, 0x0, 0x0, 0x0, 0x0, 0x0⟩,  -- SFI_WD_EXP_CNT
  ⟨0x16008C, 0x1000000, 1, 0x1000000, 1, 0x0, 0x0, 0x0, 0x0, 0x0, 0x0⟩,  -- SFI_DISC_CNT
  ⟨0x160090, 0x1000000, 1, 0x1000000, 1, 0x0, 0x0, 0x0, 0x0, 0x0, 0x0⟩,  -- SFI_RB_ERR_CNT
  ⟨0x160094, 0x1000000, 1, 0x1000000, 1, 0x0, 0x0, 0x0, 0x0, 0x0, 0x0⟩,  -- SFI_RESET_OK_CNT
  ⟨0x160098, 0x1000000, 1, 0x1000000, 1, 0x0, 0x0, 0x0, 0x0, 0x0, 0x0⟩,  -- SFI_RESET_REJ_CNT
  ⟨0x1600A0, 0x1000000, 1, 0x1000000, 1, 0x0, 0x0, 0x0, 0x0, 0x0, 0x0⟩,  -- SFI_LAST_FAULT
  ⟨0x160100, 0x8, 64, 0x1000000, 1, 0x0, 0x0, 0x0, 0x0, 0x0, 0x0⟩,  -- SFI_MON_STAT
  ⟨0x160104, 0x8, 64, 0x1000000, 1, 0x0, 0x0, 0x0, 0x0, 0x0, 0x0⟩  -- SFI_MON_SPEED
]

/-- The banks of Mbx. -/
def banksMbx : List Bank := [
  ⟨0x170000, 0x1000000, 1, 0x1000000, 1, 0x0, 0x0, 0x0, 0x0, 0x0, 0x4⟩,  -- MBX_CFG
  ⟨0x170004, 0x1000000, 1, 0x1000000, 1, 0x0, 0x0, 0x0, 0x0, 0x0, 0x0⟩,  -- MBX_PCIE_STATUS
  ⟨0x170008, 0x1000000, 1, 0x1000000, 1, 0xFF000000, 0x0, 0x0, 0x0, 0x0, 0x4000000⟩,  -- MBX_BAR2_BASE_LO
  ⟨0x17000C, 0x1000000, 1, 0x1000000, 1, 0xFFFFFFFF, 0x0, 0x0, 0x0, 0x0, 0x0⟩,  -- MBX_BAR2_BASE_HI
  ⟨0x170010, 0x1000000, 1, 0x1000000, 1, 0x0, 0x0, 0x0, 0x0, 0x0, 0x0⟩,  -- MBX_DB_IN
  ⟨0x170014, 0x1000000, 1, 0x1000000, 1, 0x0, 0x0, 0xFFFF00, 0x0, 0x0, 0x0⟩,  -- MBX_DB_IN_SET
  ⟨0x170018, 0x1000000, 1, 0x1000000, 1, 0x0, 0x0, 0x0, 0x0, 0x0, 0x0⟩,  -- MBX_DB_OUT
  ⟨0x17001C, 0x1000000, 1, 0x1000000, 1, 0x0, 0x0, 0xFFFFFF00, 0x0, 0x0, 0x0⟩,  -- MBX_DB_OUT_SET
  ⟨0x170020, 0x1000000, 1, 0x1000000, 1, 0x0, 0xFFFFFF00, 0x0, 0x0, 0x0, 0x0⟩,  -- MBX_DB_OUT_CLR
  ⟨0x170030, 0x4, 4, 0x1000000, 1, 0xFFFFFFFF, 0x0, 0x0, 0x0, 0x0, 0x0⟩,  -- MBX_DB_OUT_MASK
  ⟨0x170040, 0x1000000, 1, 0x1000000, 1, 0x0, 0x0, 0x0, 0x0, 0xFFFFFFFF, 0x0⟩,  -- MBX_BAR0_ERR_CNT
  ⟨0x170044, 0x1000000, 1, 0x1000000, 1, 0x0, 0x0, 0x0, 0x0, 0xFFFFFFFF, 0x0⟩,  -- MBX_BAR2_ERR_CNT
  ⟨0x170048, 0x1000000, 1, 0x1000000, 1, 0x0, 0x0, 0x0, 0x0, 0xFFFFFFFF, 0x0⟩,  -- MBX_PROTO_ERR_CNT
  ⟨0x17004C, 0x1000000, 1, 0x1000000, 1, 0x0, 0x0, 0x0, 0x0, 0xFFFFFFFF, 0x0⟩,  -- MBX_POISON_CNT
  ⟨0x170050, 0x1000000, 1, 0x1000000, 1, 0x0, 0x0, 0x0, 0x0, 0x0, 0x0⟩,  -- MBX_LAST_BAR_ERR
  ⟨0x171000, 0x1000, 8, 0x4, 64, 0xFFFFFFFF, 0x0, 0x0, 0x0, 0x0, 0x0⟩,  -- MBX_CH_BUF
  ⟨0x171100, 0x1000, 8, 0x1000000, 1, 0x0, 0x0, 0x3, 0x0, 0x0, 0x0⟩,  -- MBX_CH_CTRL
  ⟨0x171104, 0x1000, 8, 0x1000000, 1, 0x0, 0x0, 0x0, 0x0, 0x0, 0x0⟩,  -- MBX_CH_STAT
  ⟨0x171108, 0x1000, 8, 0x1000000, 1, 0x0, 0x0, 0x0, 0x0, 0x0, 0x0⟩,  -- MBX_CH_ACK
  ⟨0x17E000, 0x10, 32, 0x1000000, 1, 0xFFFFFFFC, 0x0, 0x0, 0x0, 0x0, 0x0⟩,  -- MSIX_ADDR_LO
  ⟨0x17E004, 0x10, 32, 0x1000000, 1, 0xFFFFFFFF, 0x0, 0x0, 0x0, 0x0, 0x0⟩,  -- MSIX_ADDR_HI
  ⟨0x17E008, 0x10, 32, 0x1000000, 1, 0xFFFFFFFF, 0x0, 0x0, 0x0, 0x0, 0x0⟩,  -- MSIX_DATA
  ⟨0x17E00C, 0x10, 32, 0x1000000, 1, 0x1, 0x0, 0x0, 0x0, 0x0, 0x1⟩,  -- MSIX_CTL
  ⟨0x17F000, 0x1000000, 1, 0x1000000, 1, 0x0, 0x0, 0x0, 0x0, 0x0, 0x0⟩  -- MSIX_PBA
]

/-- The banks of Evr. -/
def banksEvr : List Bank := [
  ⟨0x180000, 0x1000000, 1, 0x1000000, 1, 0x0, 0x0, 0x0, 0x0, 0x0, 0x40200⟩,  -- EVR_CFG
  ⟨0x180010, 0x1000000, 1, 0x1000000, 1, 0x0, 0x0, 0x0, 0x0, 0xFFFFFFFF, 0x0⟩,  -- EVR_BAD_COMPLETE_CNT
  ⟨0x180014, 0x1000000, 1, 0x1000000, 1, 0x0, 0x0, 0x0, 0x0, 0x0, 0x0⟩,  -- EVR_LAST_BAD_COMPLETE
  ⟨0x180100, 0x4, 16, 0x1000000, 1, 0x0, 0x0, 0xFFFFFFFF, 0x0, 0x0, 0x0⟩,  -- EVR_MASK_SET
  ⟨0x180140, 0x4, 16, 0x1000000, 1, 0x0, 0xFFFFFFFF, 0x0, 0x0, 0x0, 0x0⟩,  -- EVR_MASK_CLR
  ⟨0x180200, 0x4, 16, 0x1000000, 1, 0x0, 0x0, 0xFFFFFFFF, 0x0, 0x0, 0x0⟩,  -- EVR_PEND_SET
  ⟨0x180240, 0x4, 16, 0x1000000, 1, 0x0, 0xFFFFFFFF, 0x0, 0x0, 0x0, 0x0⟩,  -- EVR_PEND_CLR
  ⟨0x180280, 0x4, 16, 0x1000000, 1, 0x0, 0x0, 0x0, 0x0, 0x0, 0x0⟩,  -- EVR_ACTIVE
  ⟨0x181000, 0x8, 512, 0x1000000, 1, 0xE7B, 0x0, 0x0, 0x0, 0x0, 0x0⟩,  -- EVR_SRC_CFG
  ⟨0x181004, 0x8, 512, 0x1000000, 1, 0x0, 0x0, 0x0, 0x0, 0xFFFFFFFF, 0x0⟩,  -- EVR_SRC_CNT
  ⟨0x188000, 0x1000, 4, 0x1000000, 1, 0x0, 0x0, 0x0, 0x0, 0x0, 0x3FF⟩,  -- EVR_CLAIM
  ⟨0x188004, 0x1000, 4, 0x1000000, 1, 0x0, 0x0, 0x0, 0xFFFFFFFF, 0x0, 0x0⟩,  -- EVR_COMPLETE
  ⟨0x188008, 0x1000, 4, 0x1000000, 1, 0x0, 0x0, 0x0, 0x0, 0xFFFFFFFF, 0x0⟩,  -- EVR_SPURIOUS_CNT
  ⟨0x188020, 0x1000, 4, 0x4, 8, 0x0, 0x0, 0x0, 0x0, 0x0, 0x3FF⟩  -- EVR_CLAIM_V
]

/-- The banks of Wks. -/
def banksWks : List Bank := [
  ⟨0x190000, 0x1000000, 1, 0x1000000, 1, 0x0, 0x0, 0x0, 0x0, 0x0, 0x0⟩,  -- WKS_STATUS
  ⟨0x190010, 0x1000000, 1, 0x1000000, 1, 0x0, 0x0, 0x0, 0x0, 0xFFFFFFFF, 0x0⟩,  -- WKS_ITEM_CNT
  ⟨0x190014, 0x1000000, 1, 0x1000000, 1, 0x0, 0x0, 0x0, 0x0, 0xFFFFFFFF, 0x0⟩,  -- WKS_PREEMPT_CNT
  ⟨0x190018, 0x1000000, 1, 0x1000000, 1, 0x0, 0x0, 0x0, 0x0, 0xFFFFFFFF, 0x0⟩,  -- WKS_LATE_CNT
  ⟨0x19001C, 0x1000000, 1, 0x1000000, 1, 0x0, 0x0, 0x0, 0x0, 0xFFFFFFFF, 0x0⟩,  -- WKS_RING_ERR_CNT
  ⟨0x190020, 0x1000000, 1, 0x1000000, 1, 0x0, 0x0, 0x0, 0x0, 0xFFFFFFFF, 0x0⟩,  -- WKS_STALL_CNT
  ⟨0x190800, 0x1000, 16, 0x1000000, 1, 0x0, 0x0, 0x0, 0x0, 0x0, 0x0⟩,  -- WKS_RING_BASE_LO
  ⟨0x190804, 0x1000, 16, 0x1000000, 1, 0x0, 0x0, 0x0, 0x0, 0x0, 0x0⟩,  -- WKS_RING_BASE_HI
  ⟨0x190808, 0x1000, 16, 0x1000000, 1, 0x0, 0x0, 0x0, 0x0, 0x0, 0x0⟩,  -- WKS_RING_CFG
  ⟨0x19080C, 0x1000, 16, 0x1000000, 1, 0xFFFFFFFF, 0x0, 0x0, 0x0, 0x0, 0x0⟩,  -- WKS_RING_PROD
  ⟨0x190810, 0x1000, 16, 0x1000000, 1, 0xFFFFFFFF, 0x0, 0x0, 0x0, 0x0, 0x0⟩,  -- WKS_RING_CONS
  ⟨0x190814, 0x1000, 16, 0x1000000, 1, 0x1FFFFF, 0x0, 0x0, 0x0, 0x0, 0x1⟩,  -- WKS_RING_THRESH
  ⟨0x190818, 0x1000, 16, 0x1000000, 1, 0x0, 0x0, 0x0, 0x0, 0x0, 0x0⟩  -- WKS_RING_STAT
]

/-- The banks of Cap. -/
def banksCap : List Bank := [
  ⟨0x1A0000, 0x1000000, 1, 0x1000000, 1, 0x0, 0x0, 0x0, 0x0, 0x0, 0x0⟩,  -- CAP_CFG
  ⟨0x1A0004, 0x1000000, 1, 0x1000000, 1, 0x0, 0x0, 0x0, 0x0, 0x0, 0x0⟩,  -- CAP_BASE_LO
  ⟨0x1A0008, 0x1000000, 1, 0x1000000, 1, 0x0, 0x0, 0x0, 0x0, 0x0, 0x0⟩,  -- CAP_BASE_HI
  ⟨0x1A000C, 0x1000000, 1, 0x1000000, 1, 0x0, 0x0, 0x0, 0x0, 0x0, 0x0⟩,  -- CAP_ARMED_MAP
  ⟨0x1A0010, 0x1000000, 1, 0x1000000, 1, 0x0, 0x0, 0x0, 0x0, 0x0, 0x0⟩,  -- CAP_HELD_MAP
  ⟨0x1A0020, 0x1000000, 1, 0x1000000, 1, 0x0, 0x0, 0x0, 0x0, 0xFFFFFFFF, 0x0⟩,  -- CAP_DONE_CNT
  ⟨0x1A0024, 0x1000000, 1, 0x1000000, 1, 0x0, 0x0, 0x0, 0x0, 0xFFFFFFFF, 0x0⟩,  -- CAP_MISSED_CNT
  ⟨0x1A0028, 0x1000000, 1, 0x1000000, 1, 0x0, 0x0, 0x0, 0x0, 0xFFFFFFFF, 0x0⟩,  -- CAP_LOST_CNT
  ⟨0x1A002C, 0x1000000, 1, 0x1000000, 1, 0x0, 0x0, 0x0, 0x0, 0xFFFFFFFF, 0x0⟩,  -- CAP_FORCED_CNT
  ⟨0x1A0100, 0x10, 32, 0x1000000, 1, 0x0, 0x0, 0x0, 0x0, 0x0, 0x0⟩,  -- CAP_CH_CFG
  ⟨0x1A0104, 0x10, 32, 0x1000000, 1, 0x0, 0x0, 0x0, 0x0, 0x0, 0x0⟩,  -- CAP_CH_SRC
  ⟨0x1A0108, 0x10, 32, 0x1000000, 1, 0x0, 0x0, 0x0, 0x0, 0x0, 0x0⟩,  -- CAP_CH_MASK
  ⟨0x1A010C, 0x10, 32, 0x1000000, 1, 0x0, 0x0, 0x0, 0x0, 0x0, 0x0⟩  -- CAP_CH_STAT
]

/-- The banks of Elg. -/
def banksElg : List Bank := [
  ⟨0x1B0000, 0x1000000, 1, 0x1000000, 1, 0x0, 0x0, 0x0, 0x0, 0x0, 0x0⟩,  -- ELG_CFG
  ⟨0x1B0004, 0x1000000, 1, 0x1000000, 1, 0x0, 0x0, 0x0, 0x0, 0x0, 0x0⟩,  -- ELG_BASE_LO
  ⟨0x1B0008, 0x1000000, 1, 0x1000000, 1, 0x0, 0x0, 0x0, 0x0, 0x0, 0x0⟩,  -- ELG_BASE_HI
  ⟨0x1B000C, 0x1000000, 1, 0x1000000, 1, 0x0, 0x0, 0x0, 0x0, 0x0, 0x0⟩,  -- ELG_STATUS
  ⟨0x1B0010, 0x1000000, 1, 0x1000000, 1, 0x0, 0x0, 0x0, 0x0, 0x0, 0x0⟩,  -- ELG_WR_IDX
  ⟨0x1B0014, 0x1000000, 1, 0x1000000, 1, 0xFFFFFFFF, 0x0, 0x0, 0x0, 0x0, 0x0⟩,  -- ELG_CURSOR
  ⟨0x1B0018, 0x1000000, 1, 0x1000000, 1, 0xFFFFFFFF, 0x0, 0x0, 0x0, 0x0, 0x0⟩,  -- ELG_FILL_THRESH
  ⟨0x1B001C, 0x1000000, 1, 0x1000000, 1, 0x0, 0x0, 0x1, 0x0, 0x0, 0x0⟩,  -- ELG_CTRL
  ⟨0x1B0020, 0x1000000, 1, 0x1000000, 1, 0x0, 0x0, 0x0, 0x0, 0x0, 0x0⟩,  -- ELG_SEQ
  ⟨0x1B0030, 0x1000000, 1, 0x1000000, 1, 0x0, 0x0, 0x0, 0x0, 0xFFFFFFFF, 0x0⟩,  -- ELG_DROP_CNT
  ⟨0x1B0034, 0x1000000, 1, 0x1000000, 1, 0x0, 0x0, 0x0, 0x0, 0xFFFFFFFF, 0x0⟩,  -- ELG_QDROP_CNT
  ⟨0x1B0038, 0x1000000, 1, 0x1000000, 1, 0x0, 0x0, 0x0, 0x0, 0xFFFFFFFF, 0x0⟩,  -- ELG_SUPPR_CNT
  ⟨0x1B003C, 0x1000000, 1, 0x1000000, 1, 0x0, 0x0, 0x0, 0x0, 0xFFFFFFFF, 0x0⟩,  -- ELG_EARLY_DROP_CNT
  ⟨0x1B0040, 0x4, 8, 0x1000000, 1, 0x0, 0x0, 0x0, 0x0, 0x0, 0x0⟩,  -- ELG_WIN
  ⟨0x1B0100, 0x10, 64, 0x1000000, 1, 0x0, 0x0, 0x0, 0x0, 0x0, 0x0⟩,  -- ELG_LIM_CFG
  ⟨0x1B0104, 0x10, 64, 0x1000000, 1, 0x0, 0x0, 0x0, 0x0, 0x0, 0x0⟩,  -- ELG_LIM_STAT
  ⟨0x1B0108, 0x10, 64, 0x1000000, 1, 0x0, 0x0, 0x0, 0x0, 0xFFFFFFFF, 0x0⟩  -- ELG_LIM_SUPPR_CNT
]

/-- The banks of Hlm. -/
def banksHlm : List Bank := [
  ⟨0x1C0000, 0x1000000, 1, 0x1000000, 1, 0x0, 0x0, 0x0, 0x0, 0x0, 0x0⟩,  -- HLM_STATUS
  ⟨0x1C0004, 0x1000000, 1, 0x1000000, 1, 0x0, 0x0, 0x0, 0x0, 0x0, 0x12C0023⟩,  -- HLM_CFG
  ⟨0x1C0008, 0x1000000, 1, 0x1000000, 1, 0x0, 0x0, 0x0, 0x0, 0x0, 0x1F40018⟩,  -- HLM_CFG2
  ⟨0x1C000C, 0x1000000, 1, 0x1000000, 1, 0x0, 0x0, 0x0, 0x0, 0x0, 0x348⟩,  -- HLM_THERM_CFG
  ⟨0x1C0010, 0x1000000, 1, 0x1000000, 1, 0x0, 0x0, 0x0, 0x0, 0x0, 0x0⟩,  -- HLM_ROWS
  ⟨0x1C0014, 0x1000000, 1, 0x1000000, 1, 0x0, 0x0, 0x0, 0x0, 0x0, 0x4000⟩,  -- HLM_PAGES
  ⟨0x1C0018, 0x1000000, 1, 0x1000000, 1, 0x0, 0x0, 0x0, 0x0, 0x0, 0x2249⟩,  -- HLM_CORES
  ⟨0x1C0020, 0x1000000, 1, 0x1000000, 1, 0x0, 0x0, 0x0, 0x0, 0xFFFFFFFF, 0x0⟩,  -- HLM_CE_CNT
  ⟨0x1C0024, 0x1000000, 1, 0x1000000, 1, 0x0, 0x0, 0x0, 0x0, 0xFFFFFFFF, 0x0⟩,  -- HLM_UE_CNT
  ⟨0x1C0028, 0x1000000, 1, 0x1000000, 1, 0x0, 0x0, 0x0, 0x0, 0xFFFFFFFF, 0x0⟩,  -- HLM_ROW_REPAIR_CNT
  ⟨0x1C002C, 0x1000000, 1, 0x1000000, 1, 0x0, 0x0, 0x0, 0x0, 0xFFFFFFFF, 0x0⟩,  -- HLM_PAGE_RETIRE_CNT
  ⟨0x1C0030, 0x1000000, 1, 0x1000000, 1, 0x0, 0x0, 0x0, 0x0, 0xFFFFFFFF, 0x0⟩,  -- HLM_SPARE_IN_CNT
  ⟨0x1C0034, 0x1000000, 1, 0x1000000, 1, 0x0, 0x0, 0x0, 0x0, 0xFFFFFFFF, 0x0⟩,  -- HLM_HEALTH_DROP_CNT
  ⟨0x1C0100, 0x4, 8, 0x1000000, 1, 0x0, 0x0, 0x0, 0x0, 0x0, 0x0⟩,  -- HLM_THERM
  ⟨0x1C0204, 0x4, 24, 0x1000000, 1, 0x0, 0x0, 0x0, 0x0, 0x0, 0x0⟩,  -- HLM_WEAR
  ⟨0x1C0300, 0x4, 16, 0x1000000, 1, 0x0, 0x0, 0x0, 0x0, 0x0, 0x0⟩,  -- HLM_REPORT
  ⟨0x1C0340, 0x4, 16, 0x1000000, 1, 0x0, 0x0, 0x0, 0x0, 0x0, 0x0⟩,  -- HLM_PARTNER
  ⟨0x1C0400, 0x10, 8, 0x1000000, 1, 0xB0FF00FF, 0x0, 0x0, 0x0, 0x0, 0x0⟩,  -- HLM_INJ_CTRL
  ⟨0x1C0404, 0x10, 8, 0x1000000, 1, 0xFFFF, 0x0, 0x0, 0x0, 0x0, 0x0⟩,  -- HLM_INJ_N
  ⟨0x1C0408, 0x10, 8, 0x1000000, 1, 0x0, 0x0, 0x0, 0x0, 0xFFFFFFFF, 0x0⟩,  -- HLM_INJ_HITS
  ⟨0x1C1000, 0x40, 64, 0x4, 16, 0x0, 0x0, 0x0, 0x0, 0x0, 0x0⟩  -- HLM_PEER
]

/-- The banks of the 64 KiB page that holds an address (the BAR0 map of chapter 01). -/
def banksAt (a : Nat) : List Bank :=
  match a / 0x10000 with
  | 0x0 => banksGlb
  | 0x1 => banksPem
  | 0x2 => banksLcu
  | 0x3 => banksCfl
  | 0x4 => banksTbu
  | 0x5 => banksCyc
  | 0x6 => banksAxm
  | 0x8 => banksEiu
  | 0xA => banksDio
  | 0xB => banksLau
  | 0xC => banksPgn
  | 0xD => banksCea
  | 0x10 => banksCmu
  | 0x12 => banksSlc
  | 0x13 => banksSlcT
  | 0x14 => banksFbr
  | 0x15 => banksTwu
  | 0x16 => banksSfi
  | 0x17 => banksMbx
  | 0x18 => banksEvr
  | 0x19 => banksWks
  | 0x1A => banksCap
  | 0x1B => banksElg
  | 0x1C => banksHlm
  | _ => []

/-- The bank of an address, if a register occupies it. -/
def bankOf (a : Nat) : Option Bank := (banksAt a).find? (·.has a)

/-- The value a register has after a reset (0 where no register is). -/
def regReset (a : Nat) : Word :=
  match bankOf a with
  | some b => BitVec.ofNat 32 b.reset
  | none => 0

end Sys2Proof.Machine
end

