-- ==== Sys2Proof/Machine/State.lean ====
section
/-! DEFINITION. Machine/State.lean: the whole state of the block, the reasons a step can stop, and the block right after
reset. -/

namespace Sys2Proof.Machine

/-- The block. `regs` is the register file of BAR0 keyed by address, `dram` the bytes of DRAM; an unlisted register reads
its reset value, an unlisted byte of DRAM 0. -/
structure State where
  /-- Commands that wait, first in, first out (the model's own field). -/
  pending : List Instr := []
  /-- Count of free values read (the model's own field). -/
  freeCtr : Nat := 0
  /-- What has left the block, newest first (the model's own field). -/
  wire    : List WireOut := []
  /-- SYS clocks since reset. -/
  clk     : Nat := 0
  /-- Fabric time in 2^-48 ns (R287). -/
  ft      : Nat := 0
  /-- The register file of BAR0. -/
  regs    : Tab Word := []
  /-- DRAM (R23, R24). -/
  dram    : List Host.Cell := []
  /-- Current handle generations, by TYPE * 65536 + index (R14); 1 where unlisted. -/
  gens    : Tab Nat := []
  /-- Local signals (R323) as they stand, and as at the end of the previous cycle (R37). -/
  sigs    : Tab Word := []
  /-- Local signals at the end of the previous cycle (R37). -/
  sigPrev : Tab Word := []
  /-- Imported global signals by 20-bit address (R323, R324). -/
  remote  : Tab Word := []
  /-- Imported global signals at the end of the previous cycle (R445). -/
  remotePrev : Tab Word := []
  fuses   : Fuses := {}
  glb     : Glb := {}
  pem     : Pem := {}
  lcu     : Lcu := {}
  cfl     : Cfl := {}
  tbu     : Tbu := {}
  cyc     : Cyc := {}
  axes    : Tab Axis := []
  axm     : Axm := {}
  eiu     : Tab EncCh := []
  dio     : Dio := {}
  lau     : Lau := {}
  /-- Virtual masters (R211), by line angle. -/
  vms     : Tab Pgn := []
  cea     : Cea := {}
  slc     : Slc := {}
  fbr     : Fbr := {}
  twu     : Twu := {}
  sfi     : Sfi := {}
  mbx     : Mbx := {}
  evr     : Evr := {}
  pcie    : Pcie := {}
  wks     : Wks := {}
  cap     : Cap := {}
  elg     : Elg := {}
  hlm     : Hlm := {}
deriving DecidableEq, Repr

/-- Why a run stops with a fault. -/
inductive Fault where
deriving DecidableEq, Repr

/-- Why a command has no meaning. -/
inductive Refusal where
  /-- Raised by Dispatch alone, for a row that has no meaning yet. Safe: no claim can be proved of it. -/
  | notModelled (mnemonic : String)
deriving DecidableEq, Repr

/-- The block right after reset (R391 to R395): BOOT, every register at its reset value, DRAM wiped. -/
def State.reset : State := {}

end Sys2Proof.Machine
end

