-- ==== Sys2Proof/Machine/Ops.lean ====
section
/-! DEFINITION. Machine/Ops.lean: the named operations over the block that every command shares: registers, maps and
counters, time, free values, DRAM, handles, the wire, the event router, capture triggers and the raising of events. -/

namespace Sys2Proof.Machine

/-! ### Registers (R3 to R7) -/

/-- The word of the register file at an address of BAR0. -/
def State.rd (s : State) (a : Nat) : Word := Tab.get (regReset a) s.regs a

/-- Puts a word into the register file. -/
def State.wr (s : State) (a : Nat) (v : Word) : State := { s with regs := Tab.set (regReset a) s.regs a v }

/-- Puts a field of a register. -/
def State.wrFld (s : State) (a hi lo v : Nat) : State := s.wr a (setFld (s.rd a) hi lo v)

/-- Puts one bit of a register. -/
def State.wrBit (s : State) (a i : Nat) (b : Bool) : State := s.wr a (setBit (s.rd a) i b)

/-- A field of a register. -/
def State.rdFld (s : State) (a hi lo : Nat) : Nat := fld (s.rd a) hi lo

/-- A bit of a register. -/
def State.rdBit (s : State) (a i : Nat) : Bool := bit (s.rd a) i

/-- Adds to a counter, which saturates at 0xFFFF_FFFF. -/
def State.countBy (s : State) (a n : Nat) : State := s.wr a (satAdd (s.rd a) n)

/-- Adds one to a counter. -/
def State.count (s : State) (a : Nat) : State := s.countBy a 1

/-- Bit `i` of a map of words that begins at `base`. -/
def State.mapBit (s : State) (base i : Nat) : Bool := bit (s.rd (base + 4 * (i / 32))) (i % 32)

/-- Puts bit `i` of a map of words that begins at `base`. -/
def State.setMap (s : State) (base i : Nat) (b : Bool) : State := s.wrBit (base + 4 * (i / 32)) (i % 32) b

/-- Puts the bit of controller `c` (0 to 63) of a map that begins at `base`. -/
def State.setCtrl (s : State) (base c : Nat) (b : Bool) : State := if c < 64 then s.setMap base c b else s

/-- The 64-bit value in a LO and HI pair. -/
def State.rd64 (s : State) (lo hi : Nat) : DWord := mk64 (s.rd hi) (s.rd lo)

/-- Puts a 64-bit value into a LO and HI pair. -/
def State.wr64 (s : State) (lo hi : Nat) (v : DWord) : State := (s.wr lo (loW v)).wr hi (hiW v)

/-! ### Time (R8, R10, R29 to R32, R287) -/

/-- Fabric time in 2^-16 ns. -/
def State.now (s : State) : Nat := s.ft / 2 ^ 32

/-- The base period T in 2^-16 ns. -/
def State.per (s : State) : Nat := (s.rd Reg.cycPeriod).toNat * 1024

/-- Time since the start of the present cycle, in 2^-16 ns. -/
def State.inCycle (s : State) : Nat := s.now - s.cyc.c0

/-- Now as a CO-stamp. -/
def State.co (s : State) : Nat := s.inCycle / 1024 % 2 ^ 32

/-- A timeline instant of the present cycle, in 2^-16 ns of fabric time. -/
def State.instant (s : State) (reg : Nat) : Nat := s.cyc.c0 + (s.rd reg).toNat * 1024

/-- The cycle number as events and messages carry it: 0 until it holds the fabric's (R28). -/
def State.cycleNo (s : State) : Nat := if s.glb.cycValid then s.cyc.n else 0

/-- A duration in ms as base cycles, rounded up. -/
def State.msCyc (s : State) (t : Nat) : Nat := if s.per = 0 then 0 else (t * msU + s.per - 1) / s.per

/-- A fabric time of 2^-16 ns as a TIME value (R10). -/
def timeOf (t : Nat) : BitVec 96 := mkTime (t / secTicks) (t % secTicks / 65536) (t % 65536)

/-! ### Free values -/

/-- A free value; the count of values read advances. -/
def State.free (s : State) : DWord × State := (Config.freeValue s.freeCtr, { s with freeCtr := s.freeCtr + 1 })

/-- `n` free values. -/
def State.frees (s : State) (n : Nat) : List DWord × State :=
  ((List.range n).map (fun k => Config.freeValue (s.freeCtr + k)), { s with freeCtr := s.freeCtr + n })

/-- The boundary of the present cycle stands: no clock has passed since it (R32, R33). -/
def State.atBoundary (s : State) : Bool := s.cyc.running && decide (s.clk = s.cyc.clk0)

/-! ### DRAM (R23, R24) -/

/-- Usable capacity of DRAM. -/
def State.dramSize (s : State) : Nat := if s.fuses.dram4 then 0xE0000000 else 0x70000000

/-- Reads one byte of DRAM. -/
def State.dramByte (s : State) (a : Nat) : Byte := Tab.get 0 s.dram a

/-- Reads bytes of DRAM. -/
def State.dramRead (s : State) (a : Nat) : Nat → List Byte
  | 0 => []
  | n + 1 => s.dramByte a :: State.dramRead s (a + 1) n

/-- Puts bytes into a memory at rising addresses. -/
def memPut (m : List Host.Cell) (a : Nat) : List Byte → List Host.Cell
  | [] => m
  | b :: t => memPut (Tab.set 0 m a b) (a + 1) t

/-- Writes bytes to DRAM; bytes beyond the usable capacity do not exist. -/
def State.dramWrite (s : State) (a : Nat) (bs : List Byte) : State :=
  { s with dram := memPut s.dram a (bs.take (s.dramSize - a)) }

/-- The canonical form of DRAM. -/
def Memory.wf (m : List Host.Cell) : Bool := Tab.wf 0 m

/-! ### Handles (R12 to R15) -/

/-- TYPE of a handle. -/
def hType (h : Word) : Nat := fld h 31 28
/-- GEN of a handle. -/
def hGen (h : Word) : Nat := fld h 27 16
/-- INDEX of a handle. -/
def hIdx (h : Word) : Nat := fld h 15 0

/-- A handle from its fields. -/
def mkHandle (t g i : Nat) : Word := w32 (t % 16 * 2 ^ 28 + g % 4096 * 2 ^ 16 + i % 65536)

/-- Number of indices of a handle type (R13). -/
def typeCount : Nat → Nat
  | 1 => 256
  | 2 => 16
  | 3 => 32
  | 4 => 512
  | 5 => 256
  | _ => 0

/-- Current generation of an object slot (R14). -/
def State.gen (s : State) (t i : Nat) : Nat := Tab.get 1 s.gens (t * 65536 + i)

/-- The current handle of an object slot. -/
def State.handleOf (s : State) (t i : Nat) : Word := mkHandle t (s.gen t i) i

/-- Retires the object of a slot: its generation goes on, from 0xFFF to 0x001 (R14). -/
def State.retire (s : State) (t i : Nat) : State :=
  let g := s.gen t i
  { s with gens := Tab.set 1 s.gens (t * 65536 + i) (if g = 0xFFF then 1 else g + 1) }

/-- The first two handle checks of R15: TYPE is accepted and INDEX in range. -/
def handleRange (types : List Nat) (h : Word) : Bool :=
  types.contains (hType h) && decide (hIdx h < typeCount (hType h))

/-- The third check: GEN is current. -/
def State.handleFresh (s : State) (h : Word) : Bool := decide (hGen h = s.gen (hType h) (hIdx h))

/-! ### What leaves the block -/

/-- Records something sent. -/
def State.send (s : State) (w : WireOut) : State := { s with wire := w :: s.wire }

/-- The host's accesses reach the block: it has power, and the function is not in D3hot (R436). -/
def State.hostUp (s : State) : Bool := decide (s.glb.st ≠ CtlSt.off) && !s.pcie.d3
/-- Accesses to the ranges that open with DISCOVER take effect (R26). -/
def State.hostOpen (s : State) : Bool := s.glb.opened && s.hostUp

/-! ### The event router (R449 to R452) and MSI-X messages (R442) -/

/-- A source. -/
def State.src (s : State) (n : Nat) : Src := Tab.get (Src.reset n) s.evr.srcs n

/-- Puts a source. -/
def State.setSrc (s : State) (n : Nat) (x : Src) : State :=
  { s with evr := { s.evr with srcs := Tab.set (Src.reset n) s.evr.srcs n x } }

/-- The source is eligible for target `k` (R449). -/
def Src.eligible (x : Src) (k : Nat) : Bool := x.pending && !x.masked && !x.active && x.targets.testBit k

/-- Some source is eligible on vector `v` of 0 to 31: of target v / 8, with VEC = v mod 8 (R442). -/
def Evr.assertedVec (e : Evr) (v : Nat) : Bool :=
  e.srcs.any (fun p => p.2.eligible (v / 8) && decide (p.2.vec = v % 8))

/-- A message of the vector is held: the vector or function is masked, Bus Master Enable is 0 or the table is not
enabled (R442). -/
def State.msixHeld (s : State) (v : Nat) : Bool :=
  s.rdBit (Reg.msixCtl v) 0 || s.pcie.funcMask || !s.pcie.busMaster || !s.pcie.msixEn

/-- A message of vector `v` falls due. -/
def State.msixDue (s : State) (v : Nat) : State :=
  if s.msixHeld v then
    { s with evr := { s.evr with pba := if s.evr.pba.contains v then s.evr.pba else v :: s.evr.pba } }
  else { s with evr := { s.evr with due := s.evr.due ++ [v] } }

/-- Follows a change of eligibility or of what holds messages (R442). -/
def State.evrUpdate (s : State) : State :=
  let on := (List.range 32).filter s.evr.assertedVec
  let rose := on.filter (fun v => !s.evr.asserted.contains v)
  let stuck := if s.pcie.busMaster && s.pcie.msixEn then [] else on
  let pba0 := s.evr.pba.filter on.contains
  let s1 := { s with evr := { s.evr with asserted := on, pba := pba0 } }
  let s2 := rose.foldl State.msixDue s1
  { s2 with evr := { s2.evr with pba := s2.evr.pba ++ stuck.filter (fun v => !s2.evr.pba.contains v) } }

/-- A source's input takes a level (R450). Answers the source and whether ARRIVALS reached 255. -/
def Src.drive (x : Src) (lvl : Bool) : Src × Bool :=
  if x.input = lvl then (x, false)
  else
    let arr := match x.sense with
      | .level => lvl
      | .rising => lvl
      | .falling => !lvl
      | .both => true
    let x1 := { x with input := lvl }
    let x2 := if arr then { x1 with pending := true, arrivals := min 255 (x.arrivals + 1) } else x1
    let x3 := if x.sense = .level ∧ ¬ x.active then { x2 with pending := lvl } else x2
    (x3, arr && decide (x.arrivals = 254))

/-- A source's input takes a level; answers whether ARRIVALS reached 255 and the source is one with settings. -/
def State.driveSrc (s : State) (n : Nat) (lvl : Bool) : State × Bool :=
  if srcReserved n ∨ 512 ≤ n then (s, false)
  else
    let r := (s.src n).drive lvl
    ((s.setSrc n r.1).evrUpdate, r.2)

/-- A one-clock pulse on a source's input; answers whether ARRIVALS reached 255. -/
def State.pulseSrc (s : State) (n : Nat) : State × Bool :=
  let r1 := s.driveSrc n true
  let r2 := r1.1.driveSrc n false
  (r2.1, r1.2 || r2.2)

/-! ### Events (R17, R18, R486 to R488) -/

/-- A 32-bit argument from an integer. -/
def EvArg.i (v : Int) : EvArg := .w (wInt v).toNat

/-- The half-words of ARGS filled so far, none for a free one. -/
def fillHalf (v : Nat) : List (Option Nat) → List (Option Nat)
  | [] => []
  | none :: t => some (v % 65536) :: t
  | some x :: t => some x :: fillHalf v t

/-- Fills the next free aligned word. -/
def fillWord (v : Nat) : List (Option Nat) → List (Option Nat)
  | none :: none :: t => some (v % 65536) :: some (v / 65536 % 65536) :: t
  | a :: b :: t => a :: b :: fillWord v t
  | l => l

/-- Packs arguments into the three words of ARGS (R488). -/
def packArgs (l : List EvArg) : List Word :=
  let f := l.foldl (fun acc a => match a with
    | .h v => fillHalf v acc
    | .w v => fillWord v acc) [none, none, none, none, none, none]
  let v := fun k => (f.getD k none).getD 0
  [w32 (v 0 + v 1 * 65536), w32 (v 2 + v 3 * 65536), w32 (v 4 + v 5 * 65536)]

/-- The event router source of a code (R19 and each block's own table). -/
def sourceOf (code : Nat) : Option Nat :=
  let b := code / 256
  let l := code % 256
  if b = 0x0C then
    if 0x10 ≤ l ∧ l ≤ 0x16 then some (0x0C5 + l - 0x10)
    else if 0xF0 ≤ l then some 0x0CC
    else if 1 ≤ l ∧ l ≤ 5 then some (0x0C0 + l - 1)
    else none
  else if b = 0x12 then some (0x124 + l - 1)
  else if b = 0x16 then if l = 1 then none else some (0x160 + l - 2)
  else some (16 * b + l - 1)

/-- An event as a block raises it. `at_` is the CO-stamp where it is not now. -/
structure EvReq where
  code : Nat
  args : List EvArg := []
  at_  : Option Nat := none
deriving DecidableEq, Repr

/-- Events raised in the same clock stand in ascending code order (R486). -/
def insertEv (e : Ev) : List Ev → List Ev
  | [] => [e]
  | h :: t => if h.at_ = e.at_ ∧ e.code < h.code then e :: h :: t else h :: insertEv e t

/-- ELG takes an event into its queue, or holds it before the log runs (R486, R493). -/
def State.enqueueEv (s : State) (q : EvReq) : State :=
  let ev : Ev := { code := q.code, args := packArgs q.args, cycle := s.cycleNo, stamp := w32 (q.at_.getD s.co), at_ := s.now }
  if s.elg.running then
    if s.elg.queue.length < 1024 then { s with elg := { s.elg with queue := insertEv ev s.elg.queue } }
    else ({ s with elg := { s.elg with qlost := true } }).count Reg.elgQdropCnt
  else if s.elg.early.length < 32 then
    { s with elg := { s.elg with early := s.elg.early ++ [{ ev with early := true, cycle := 0 }] } }
  else s.count Reg.elgEarlyDropCnt

/-- A capture channel. -/
def State.capCh (s : State) (c : Nat) : CapChan := Tab.get {} s.cap.chans c

/-- Puts one of the 32 capture channels, with the maps and the status word that show it (R498). -/
def State.setCapCh (s : State) (c : Nat) (x : CapChan) : State :=
  if 32 ≤ c then s
  else
    let s1 := { s with cap := { s.cap with chans := Tab.set {} s.cap.chans c x } }
    let s2 := s1.wrBit Reg.capArmedMap c (decide (x.st = .pre ∨ x.st = .post))
    let s3 := s2.wrBit Reg.capHeldMap c (decide (x.st = .held))
    s3.wr (Reg.capChStat c) (w32 (x.st.code * 2 ^ 30 + x.half * 2 ^ 29 + x.wpos % 2 ^ 21))

/-- A trigger of an instant, given as its cycle and CO-stamp, reaches channel `c` (R482, R483): in PRE the older of the two
last key sets becomes START; in HELD it is missed, as is one that reaches a GROUP partner (`grp`) in the cycle in which its POST ends
(R495). Answers the event to be raised. -/
def State.capTrig1 (s : State) (c : Nat) (grp forced : Bool) (at_ : Nat × Nat) : State × List EvReq :=
  let x := s.capCh c
  let missed := (s.count Reg.capMissedCnt, [({ code := 0x1502, args := [.h c] } : EvReq)])
  match x.st with
  | .pre =>
    if grp = true ∧ x.endCycle = some at_.1 then missed else
    let k := match x.keys with
      | _ :: b :: _ => b
      | [a] => a
      | [] => (x.total, at_.1)
    (s.setCapCh c { x with st := .post, start := k.1, startCyc := k.2, trigCycle := at_.1,
                           trigStamp := w32 at_.2, trigMark := true, forced := forced },
     if forced then [{ code := 0x1504, args := [.h c] }] else [])
  | .held => missed
  | .post => if grp = true ∧ x.trigCycle + x.post = at_.1 then missed else (s, [])
  | .idle => (s, [])

/-- The channels that follow channel `c`'s trigger (TRIG 5). -/
def State.capGroup (s : State) (c : Nat) : List Nat :=
  (s.cap.chans.filter (fun p => decide (p.2.trig = 5 ∧ p.2.tsel = c))).map (·.1)

/-- Triggers channels, and in the same clock those of their groups; a channel stands with whether its trigger is that of its group. -/
def State.capTrigger : Nat → List (Nat × Bool) → Nat × Nat → State → State × List EvReq
  | 0, _, _, s => (s, [])
  | _, [], _, s => (s, [])
  | f + 1, c :: t, at_, s =>
    let was := (s.capCh c.1).st
    let r := s.capTrig1 c.1 c.2 false at_
    let more := if was = .pre ∧ (r.1.capCh c.1).st = .post then (r.1.capGroup c.1).map (fun k => (k, true)) else []
    let r2 := State.capTrigger f (t ++ more) at_ r.1
    (r2.1, r.2 ++ r2.2)

/-- The channels that wait for an event code (TRIG 1). -/
def State.capOnCode (s : State) (code : Nat) : List Nat :=
  (s.cap.chans.filter (fun p => decide (p.2.trig = 1 ∧ p.2.tcode = code ∧ (p.2.st = .pre ∨ p.2.st = .held)))).map (·.1)

/-- Raises events in order: each reaches ELG, its event router source and the captures that wait for it. Saturated
arrivals and missed triggers raise events of their own; the count bounds a chain that feeds itself. -/
def State.raiseAll : Nat → List EvReq → State → State
  | 0, _, s => s
  | _, [], s => s
  | f + 1, q :: t, s =>
    let s1 := s.enqueueEv q
    let r := match sourceOf q.code with
      | some n => s1.pulseSrc n
      | none => (s1, false)
    let sat : List EvReq := match sourceOf q.code with
      | some n => if r.2 then [{ code := 0x1302, args := [.h n] }] else []
      | none => []
    let c := State.capTrigger 64 ((r.1.capOnCode q.code).map (fun k => (k, false))) (s.cycleNo, q.at_.getD s.co) r.1
    State.raiseAll f (sat ++ c.2 ++ t) c.1

/-- Raises one event. -/
def State.event (s : State) (code : Nat) (args : List EvArg) : State :=
  State.raiseAll 48 [{ code := code, args := args }] s

/-- Raises one event with the time of its cause. -/
def State.eventAt (s : State) (code : Nat) (args : List EvArg) (co : Nat) : State :=
  State.raiseAll 48 [{ code := code, args := args, at_ := some co }] s

/-- Pulses a source that carries no code (CYCLE_TICK, PPS_TICK, axis groups). -/
def State.tick (s : State) (n : Nat) : State :=
  let r := s.pulseSrc n
  if r.2 then r.1.event 0x1302 [.h n] else r.1

/-- Drives a level source (R448, R461, R497). -/
def State.level (s : State) (n : Nat) (lvl : Bool) : State :=
  let r := s.driveSrc n lvl
  if r.2 then r.1.event 0x1302 [.h n] else r.1

/-- Triggers capture channels at an instant (cycle, CO-stamp), with the events that follow. -/
def State.trigger (s : State) (cs : List Nat) (at_ : Nat × Nat) : State :=
  let r := State.capTrigger 64 (cs.map (fun k => (k, false))) at_ s
  State.raiseAll 48 r.2 r.1

/-! ### Folding an operation over a list -/

/-- Does `f` for each element in order. -/
def forAll {α : Type} (l : List α) (f : α → State → State) (s : State) : State := l.foldl (fun st x => f x st) s

end Sys2Proof.Machine
end

