-- ==== Sys2Proof/Machine/Flags.lean ====
section
/-! DEFINITION. Machine/Flags.lean: the status words that the block computes from its state: axis STATUS and STATE_WORD
(R64, R65), GLB_STATE (R28), CYC_STATUS (R51), the event router's words (R449 to R451), mailbox words (R444), the record
flags of ELG (R487) and of captures (R479), and the limiter words (R491). -/

namespace Sys2Proof.Machine

/-- A word whose bits are given from bit 0 up. -/
def bitsWord (l : List Bool) : Word := w32 (l.foldr (fun b n => b2n b + 2 * n) 0)

/-- STATUS of an axis (R65). -/
def Axis.statusWord (x : Axis) : Word :=
  bitsWord [x.posValid, x.homed, x.fbExtrap, x.lateBit, x.bound, x.still, x.limPos, x.limNeg, x.behind, x.revHeld,
    x.rotorLost, x.keLow, x.keHigh, decide (x.st = .fault), x.stoAct]

/-- STATE_WORD of an axis (R64). -/
def stateWord (d : AxisDesc) (st : AxSt) : Word :=
  w32 (st.code + d.kind.code * 16 + d.cls * 256 + d.phase * 4096)

/-- GLB_STATE. -/
def State.glbStateWord (s : State) : Word :=
  w32 (b2n s.glb.cycValid * 2 ^ 31 + b2n s.glb.idValid * 2 ^ 30 + s.glb.id % 64 * 2 ^ 24 + s.glb.role.code * 256
    + s.glb.st.code)

/-- Base-cycle phase: CYC_STATUS.PHASE. -/
def State.phaseNow (s : State) : Nat :=
  let t := s.inCycle / 1024
  let at_ := fun r => (s.rd r).toNat
  if t < at_ Reg.cycUlStart then 0
  else if t < at_ Reg.cycUlEnd then 1
  else if t < at_ Reg.cycDlStart then 2
  else if t < at_ Reg.cycDlEnd then 3
  else if t < at_ Reg.cycAct then 4
  else 5

/-- CYC_STATUS. -/
def State.cycStatusWord (s : State) : Word :=
  let n := (s.cea.engs.filter (fun p => decide (p.2.st = .inService))).length
  let half := s.rdBit Reg.cycConfig 7 && decide (s.per ≤ 2 * s.inCycle)
  w32 (b2n s.cyc.running * 2 ^ 31 + min n 16 * 256 + b2n half * 8 + (if s.cyc.running then s.phaseNow else 0))

/-- EVR_SRCs_CFG of a source (R449). -/
def Src.cfgWord (x : Src) : Word :=
  w32 (b2n x.active * 2 ^ 31 + x.owner % 4 * 2 ^ 29 + b2n x.pending * 2 ^ 28 + x.vec % 8 * 2 ^ 9
    + x.targets % 16 * 8 + x.sense.code)

/-- A word of 32 sources, bit i from source 32 w + i; reserved sources read 0 (R449). -/
def State.srcWord (s : State) (w : Nat) (f : Src → Bool) : Word :=
  bitsWord ((List.range 32).map (fun i => !srcReserved (32 * w + i) && f (s.src (32 * w + i))))

/-- MBX_CHc_STAT. -/
def MbChan.statWord (x : MbChan) : Word := w32 (x.st.code * 2 ^ 30 + x.op % 256 * 256 + x.seq % 256)

/-- MBX_CHc_ACK. -/
def MbChan.ackWord (x : MbChan) : Word :=
  w32 (b2n x.ackValid * 2 ^ 31 + x.ackLen % 512 * 256 + x.ackCode % 256)

/-- MBX_PCIE_STATUS. -/
def Pcie.word (p : Pcie) : Word :=
  w32 (b2n p.linkUp * 2 ^ 31 + b2n p.d3 * 2 ^ 30 + p.speed % 16 * 16 + p.width % 16)

/-- MSIX_PBA: one bit a vector. -/
def Evr.pbaWord (e : Evr) : Word := bitsWord ((List.range 32).map e.pba.contains)

/-- FLAGS of an event record (R487). -/
def recFlags (suppr : Nat) (early qlost : Bool) : Nat := b2n (decide (suppr ≠ 0)) + 2 * b2n early + 4 * b2n qlost

/-- Bytes 8 to 11 of a capture record (R479). -/
def capFlags (word : Nat) (key trig lost : Bool) : Nat :=
  word % 256 + 256 * b2n key + 512 * b2n trig + 1024 * b2n lost

/-- ELG_LIMl_CFG and ELG_LIMl_STAT (R491). -/
def Lim.cfgWord (l : Lim) : Word := w32 (l.code % 65536 * 65536 + l.burst % 65536)
/-- ELG_LIMl_STAT. -/
def Lim.statWord (l : Lim) : Word := w32 (l.period % 65536 * 65536 + l.tokens % 65536)

/-- ELG_STATUS. -/
def Elg.word (e : Elg) : Word := w32 (b2n e.running * 2 ^ 31 + b2n e.full * 2 ^ 30 + min e.queue.length 1024)

end Sys2Proof.Machine
end

