-- ==== Sys2Proof/Machine/Operands.lean ====
section
/-! DEFINITION. Machine/Operands.lean: the operand forms: status codes (R16), work items and their arguments (R462 to
R466), flow keys, addresses of BAR0. -/

namespace Sys2Proof.Machine

namespace Stat

/-! Status codes (R16). -/

/-- OK. -/
abbrev ok : Nat := 0x00
/-- BUSY. -/
abbrev busy : Nat := 0x01
/-- BAD_HANDLE. -/
abbrev badHandle : Nat := 0x02
/-- STALE_HANDLE. -/
abbrev stale : Nat := 0x03
/-- NO_RESOURCE. -/
abbrev noResource : Nat := 0x04
/-- BAD_PARAM. -/
abbrev badParam : Nat := 0x05
/-- WRONG_STATE. -/
abbrev wrongState : Nat := 0x06
/-- REFUSED_SAFETY. -/
abbrev refusedSafety : Nat := 0x07
/-- QUEUED_ADMISSION. -/
abbrev queuedAdmission : Nat := 0x08
/-- TIMEOUT. -/
abbrev timeout : Nat := 0x09
/-- QUEUE_FULL. -/
abbrev queueFull : Nat := 0x0A
/-- NOT_PERMITTED. -/
abbrev notPermitted : Nat := 0x0B
/-- CANDLE_MISMATCH. -/
abbrev candleMismatch : Nat := 0x0C
/-- DEFERRED. -/
abbrev deferred : Nat := 0x0D
/-- INTERNAL. -/
abbrev internal : Nat := 0xFF

end Stat

namespace Opc

/-! Opcodes of work items (R466). -/

/-- AXIS_CREATE. -/
abbrev axisCreate : Nat := 0x01
/-- AXIS_DESTROY. -/
abbrev axisDestroy : Nat := 0x02
/-- AXIS_ENABLE. -/
abbrev axisEnable : Nat := 0x03
/-- AXIS_DISABLE. -/
abbrev axisDisable : Nat := 0x04
/-- MOVE_ABS. -/
abbrev moveAbs : Nat := 0x05
/-- MOVE_REL. -/
abbrev moveRel : Nat := 0x06
/-- MOVE_VEL. -/
abbrev moveVel : Nat := 0x07
/-- STOP. -/
abbrev stop : Nat := 0x08
/-- HOME. -/
abbrev home : Nat := 0x09
/-- GEAR_SET. -/
abbrev gearSet : Nat := 0x0A
/-- GEAR_CHANGE_AT. -/
abbrev gearChangeAt : Nat := 0x0B
/-- CAM_SET. -/
abbrev camSet : Nat := 0x0C
/-- COMPARE_ARM. -/
abbrev compareArm : Nat := 0x0D
/-- CAPTURE_ARM. -/
abbrev captureArm : Nat := 0x0E
/-- COEF_WRITE. -/
abbrev coefWrite : Nat := 0x0F
/-- COEF_SWAP. -/
abbrev coefSwap : Nat := 0x10
/-- SIGNAL_WRITE. -/
abbrev signalWrite : Nat := 0x11
/-- EPOCH_STAGE. -/
abbrev epochStage : Nat := 0x12
/-- EPOCH_COMMIT. -/
abbrev epochCommit : Nat := 0x13
/-- LOG_MARK. -/
abbrev logMark : Nat := 0x14
/-- SPARE_TEST. -/
abbrev spareTest : Nat := 0x15

end Opc

end Sys2Proof.Machine

namespace Sys2Proof

open Sys2Proof.Machine

/-- An unsigned argument of an item: `len` bytes from byte `off` of the item, which is 20 or more. -/
def Item.u (it : Item) (off len : Nat) : Nat := leAt it.args (off - 20) len

/-- A signed 64-bit argument. -/
def Item.s64 (it : Item) (off : Nat) : Int := sgn 64 (it.u off 8)

/-- PRIO. -/
def Item.prio (it : Item) : Nat := it.ctl % 8
/-- DUE_KIND. -/
def Item.dueKind (it : Item) : Nat := it.ctl / 8 % 4
/-- DUE_DIR. -/
def Item.dueDir (it : Item) : Nat := it.ctl / 32 % 4

/-- The flow key of an item (R463): bits 31-28 and 15-0 of HANDLE, none for no flow. -/
def Item.flow (it : Item) : Option Nat :=
  let k := hType it.handle * 65536 + hIdx it.handle
  if k = 0 then none else some k

end Sys2Proof

namespace Sys2Proof.Machine

/-- An item read from its 64 bytes (R462). -/
def itemOf (origin idx : Nat) (b : List Byte) : Item :=
  { origin := origin, idx := idx, opcode := leAt b 0 1, ctl := leAt b 1 1, tag := leAt b 2 2,
    handle := w32 (leAt b 4 4), due := leAt b 8 8, dueLa := w32 (leAt b 16 4), args := (b.drop 20).take 44 }

/-- The 64 bytes of an item. -/
def itemBytes (it : Item) : List Byte :=
  leBytes 1 it.opcode ++ leBytes 1 it.ctl ++ leBytes 2 it.tag ++ leBytes 4 it.handle.toNat ++ leBytes 8 it.due
    ++ leBytes 4 it.dueLa.toNat ++ padTo 44 it.args

/-- Handle types an opcode targets (R466): axis, axis or line angle, capture channel; none for a flow key. -/
def opTypes : Nat → List Nat
  | 0x01 => [1]
  | 0x02 => [1]
  | 0x03 => [1]
  | 0x04 => [1]
  | 0x05 => [1, 2]
  | 0x06 => [1, 2]
  | 0x07 => [1, 2]
  | 0x08 => [1, 2]
  | 0x09 => [1]
  | 0x0A => [1]
  | 0x0B => [1]
  | 0x0E => [3]
  | 0x0F => [1]
  | 0x10 => [1]
  | _ => []

/-- For each argument byte from 20 on, the bits that R466 gives a meaning: (offset, bytes, mask). -/
def opArgs (it : Item) : List (Nat × Nat × Nat) :=
  let full := fun (o n : Nat) => (o, n, 2 ^ (8 * n) - 1)
  let gear := [full 20 4, full 24 12, full 36 8, full 44 8, (52, 1, 0x1F)]
  match it.opcode with
  | 0x05 => [full 20 8, full 28 8, (36, 1, 7)]
  | 0x06 => [full 20 8, full 28 8, (36, 1, 7)]
  | 0x07 => [full 20 8, full 28 8, (36, 1, 7)]
  | 0x08 => [(20, 1, 1)]
  | 0x09 => [full 20 1]
  | 0x0A => gear
  | 0x0B => gear.drop 1
  | 0x0C => [full 20 2, full 24 8, full 32 4, full 36 8, (44, 1, 1)]
  | 0x0D => [full 20 1, (21, 1, 0x3F), full 24 4, full 28 8, full 36 8, full 44 4, full 48 1, full 49 1, full 52 8]
  | 0x0E => [full 20 44]
  | 0x0F => [full 20 2, full 22 1, full 24 (4 * it.u 22 1)]
  | 0x10 => [full 24 8]
  | 0x11 => [full 20 1, full 24 (8 * it.u 20 1)]
  | 0x12 => [full 20 4, full 24 8, full 32 4, (36, 1, 1)]
  | 0x13 => [full 20 4, full 24 8]
  | 0x14 => [full 20 4]
  | 0x15 => [full 20 44]
  | _ => []

end Sys2Proof.Machine

namespace Sys2Proof

open Sys2Proof.Machine

/-- Every argument byte that is not listed is 0. -/
def Item.argsZero (it : Item) : Bool :=
  let m := (opArgs it).foldl (fun acc e => acc ||| (e.2.2 * 2 ^ (8 * (e.1 - 20)))) 0
  let v := leNat (padTo 44 it.args)
  decide (v &&& m = v)

/-- The counts whose range R466 fixes. -/
def Item.countOk (it : Item) : Bool :=
  match it.opcode with
  | 0x0F => decide (1 ≤ it.u 22 1) && decide (it.u 22 1 ≤ 10)
  | 0x11 => decide (1 ≤ it.u 20 1) && decide (it.u 20 1 ≤ 5)
  | _ => true

/-- The reserved bits of bytes 0 to 19: CTL bit 7, DUE_KIND 3, DUE_DIR 3, and DUE and DUE_LA where DUE_KIND does not use
them (R462). -/
def Item.formOk (it : Item) : Bool :=
  decide (it.ctl < 128) && decide (it.dueKind ≠ 3) && decide (it.dueDir ≠ 3) &&
    (decide (it.dueKind ≠ 0) || decide (it.due = 0)) && (decide (it.dueKind = 2) || decide (it.dueLa = 0)) &&
    (decide (it.dueKind = 2) || decide (it.dueDir = 0))

/-- The checks of preparation (R464), in order, less those of DUE_LA and of the axis description: the status of the
first failure. -/
def Item.prepare (it : Item) : Option Nat :=
  if it.opcode = 0 ∨ 0x15 < it.opcode ∨ ¬ it.formOk then some Stat.badParam
  else if it.opcode = Opc.axisCreate then
    if hType it.handle ≠ 1 ∨ hGen it.handle ≠ 0 ∨ 256 ≤ hIdx it.handle then some Stat.badParam
    else if it.argsZero then none else some Stat.badParam
  else if opTypes it.opcode = [] then
    if fld it.handle 31 16 ≠ 0 ∨ ¬ it.argsZero ∨ ¬ it.countOk then some Stat.badParam else none
  else if ¬ handleRange (opTypes it.opcode) it.handle then some Stat.badHandle
  else if ¬ it.argsZero ∨ ¬ it.countOk then some Stat.badParam
  else none

end Sys2Proof

namespace Sys2Proof.Machine

/-- The axis whose context window holds a BAR0 address, and the offset in the window (R27). -/
def windowOf (a : Nat) : Option (Nat × Nat) :=
  if 0x200000 ≤ a ∧ a < 0x400000 then some ((a - 0x200000) / 0x2000, (a - 0x200000) % 0x2000) else none

/-- A range that R26 leaves open from BOOT onward: GLB, PEM, LCU and CFL, and the MSI-X table and PBA (R440). -/
def earlyRange (a : Nat) : Bool := decide (a < 0x40000) || (decide (0x17E000 ≤ a) && decide (a < 0x17F004))

end Sys2Proof.Machine
end

