-- ==== Sys2Proof/Machine/AxisOps.lean ====
section
/-! DEFINITION. Machine/AxisOps.lean: what every block does with an axis: its description and context, its events, its
status, its handles (R52 to R65). -/

namespace Sys2Proof.Machine

/-- The sections CTRL, SAFETY and DATA of the image in force for the controller's own ID. -/
def State.ctrl (s : State) : CtrlSec :=
  if s.cfl.applied then ((s.cfl.body.ctrls.find? (fun c => decide (c.id = s.glb.id))).getD {}) else {}

/-- The description of an axis index, if the image describes it (R52). -/
def State.desc? (s : State) (a : Nat) : Option AxisDesc :=
  (s.ctrl.axes.find? (fun p => decide (p.1 = a))).map (·.2)

/-- The description of an axis index; an empty one where the image has none. -/
def State.desc (s : State) (a : Nat) : AxisDesc := (s.desc? a).getD {}

/-- An axis context. -/
def State.axis (s : State) (a : Nat) : Axis := Tab.get {} s.axes a

/-- Puts an axis context. -/
def State.setAxis (s : State) (a : Nat) (x : Axis) : State := { s with axes := Tab.set {} s.axes a x }

/-- Changes an axis context. -/
def State.updAxis (s : State) (a : Nat) (f : Axis → Axis) : State := s.setAxis a (f (s.axis a))

/-- Raises an event of an axis; its code becomes LAST_EVENT (R64). -/
def State.axEvent (s : State) (a code : Nat) (args : List EvArg) : State :=
  (s.updAxis a (fun x => { x with lastEvent := code })).event code (.h a :: args)

/-- Adds a fault condition (R61), taken up at the next boundary. -/
def State.addCond (s : State) (a code : Nat) : State :=
  s.updAxis a (fun x => { x with conds := if x.conds.contains code then x.conds else x.conds ++ [code] })

/-- Removes a fault condition. -/
def State.delCond (s : State) (a code : Nat) : State :=
  s.updAxis a (fun x => { x with conds := x.conds.filter (fun c => decide (c ≠ code)) })

/-- Axes that are not UNUSED, in ascending order. -/
def State.axesInUse (s : State) : List Nat :=
  (s.axes.filter (fun p => decide (p.2.st ≠ .unused))).map (·.1)

/-- Axes that the description makes active in the present cycle and that exist (R34). -/
def State.axesActive (s : State) : List Nat :=
  s.axesInUse.filter (fun a => (s.desc a).active s.cyc.n)

/-- The axes of a node (R52). -/
def State.axesOfNode (s : State) (node : Nat) : List Nat :=
  s.axesInUse.filter (fun a => decide ((s.desc a).chan = none ∧ (s.desc a).node = node))

/-- The axes whose feedback comes from an encoder channel. -/
def State.axesOfChan (s : State) (k : Nat) : List Nat :=
  s.axesInUse.filter (fun a => decide ((s.desc a).chan = some k))

/-- The active and the inactive coefficient bank. -/
def Axis.bank (x : Axis) : Tab Word := if x.active = 0 then x.bank0 else x.bank1
/-- The inactive bank. -/
def Axis.other (x : Axis) : Tab Word := if x.active = 0 then x.bank1 else x.bank0

/-- The axis has reached standstill (R61): the estimator reports standstill. -/
def Axis.stands (x : Axis) : Bool := x.still

/-- The next active cycle of an axis after the present one. -/
def AxisDesc.nextActive (d : AxisDesc) (n : Nat) : Nat :=
  let v := clsDiv d.cls
  n + 1 + (d.phase + v - (n + 1) % v) % v

/-- The torque permit of an axis (R365, R366). -/
def State.permit (s : State) (a : Nat) : Bool := s.sfi.permit.contains a

end Sys2Proof.Machine
end

