-- ==== Sys2Proof/Machine/CtlOps.lean ====
section
/-! DEFINITION. Machine/CtlOps.lean: controller state and role (R26, R350, R395), ACT (R337, R344), error injection
(R513 to R515), spare units (R499 to R504) and requests to the energy ledger (R396). -/

namespace Sys2Proof.Machine

/-! ### Error injection (R513 to R515, R537) -/

/-- Detectors of class S (R515): allowed in READY alone. -/
def detClassS (det unit : Nat) : Bool :=
  [0x12, 0x14, 0x15, 0x17, 0x19, 0x1B, 0x1D, 0x1E].contains det || (decide (det = 2) && !([0, 2, 7].contains unit))

/-- The controller states a detector permits (R514). -/
def detAllowed (st : CtlSt) (det unit : Nat) : Bool :=
  match st with
  | .ready => true
  | .run => !detClassS det unit
  | .degraded => !detClassS det unit
  | _ => false

/-- The slots armed for a detector and unit. -/
def State.injSlots (s : State) (det unit : Nat) : List Nat :=
  (List.range 8).filter (fun i =>
    (Tab.get {} s.hlm.injs i).armed && decide (s.rdFld (Reg.hlmInjCtrl i) 7 0 = det) &&
      decide (s.rdFld (Reg.hlmInjCtrl i) 23 16 = unit))

/-- Disarms a slot; RESULT is written where given. -/
def State.injDisarm (s : State) (i : Nat) (result : Option Nat) : State :=
  let s1 : State := { s with hlm := { s.hlm with injs := Tab.set {} s.hlm.injs i {} } }
  let s2 := s1.wrBit (Reg.hlmInjCtrl i) 31 false
  let s3 := s2.wrBit Reg.hlmStatus (24 + i) false
  match result with
  | some r => s3.wrFld (Reg.hlmInjCtrl i) 27 24 r
  | none => s3

/-- One qualifying operation at a slot: whether it hits; the slot counts, and a ONESHOT slot disarms. -/
def State.injSlot (s : State) (det unit i : Nat) : Bool × State :=
  let x := Tab.get {} s.hlm.injs i
  let mode := s.rdFld (Reg.hlmInjCtrl i) 29 28
  let ops := x.ops + 1
  let hit := decide (mode ≠ 2) || decide (s.rdFld (Reg.hlmInjN i) 15 0 ≤ ops)
  if hit = false then
    (false, { s with hlm := { s.hlm with injs := Tab.set {} s.hlm.injs i { x with ops := ops } } })
  else
    let s1 : State := { s with hlm := { s.hlm with injs := Tab.set {} s.hlm.injs i { x with ops := 0 } } }
    let s2 := if mode = 0 then s1.injDisarm i none else s1
    (true, (s2.count (Reg.hlmInjHits i)).event 0x170C [.h det, .h i, .h unit])

/-- One qualifying operation of a detector in a unit: whether it is made to fail. -/
def State.inject (s : State) (det unit : Nat) : Bool × State :=
  (s.injSlots det unit).foldl (fun acc i =>
    let r := acc.2.injSlot det unit i
    (acc.1 || r.1, r.2)) (false, s)

/-- Slots whose class the controller state no longer permits disarm with RESULT 2 (R514). -/
def State.injRecheck (s : State) : State :=
  (List.range 8).foldl (fun st i =>
    if (Tab.get {} st.hlm.injs i).armed &&
        !detAllowed st.glb.st (st.rdFld (Reg.hlmInjCtrl i) 7 0) (st.rdFld (Reg.hlmInjCtrl i) 23 16)
    then st.injDisarm i (some 2) else st) s

/-! ### Controller state (R395) -/

/-- The controller state changes and the change is logged. -/
def State.setCtl (s : State) (st : CtlSt) (cause : Nat) : State :=
  if s.glb.st = st then s
  else
    let old := s.glb.st
    let g : Glb := { s.glb with
      st := st, cause := cause, opened := s.glb.opened || decide (st = CtlSt.discover),
      ranOnce := s.glb.ranOnce || decide (st = CtlSt.run) }
    let s1 : State := { s with glb := g }
    (s1.event 0x0101 [.h old.code, .h st.code, .h cause]).injRecheck

/-- URGENT_STOP is raised on every engine that runs a job (R145). -/
def State.urgentAll (s : State) : State :=
  { s with cea := { s.cea with engs := s.cea.engs.map (fun p =>
      (p.1, if p.2.job.isSome ∧ ¬ p.2.exited ∧ ¬ p.2.urgDone then { p.2 with urgPend := true } else p.2)) } }

/-- The output follows an axis in FAULT or STO (R105). -/
def State.foutFollow (s : State) (k : Nat) : Bool :=
  s.rdBit (Reg.dioOutCfg k) 26 &&
    (let st := (s.axis (s.rdFld (Reg.dioOutCfg k) 23 16)).st; decide (st = .fault ∨ st = .sto))

/-- Pending edges of every fast output are discarded as the controller leaves state `was`; the level of an output that it was
driving is the last one driven (R105). -/
def State.dropEdges (s : State) (was : CtlSt) : State :=
  { s with dio := { s.dio with outs := s.dio.outs.map (fun p =>
      let x := p.2.unapply s.clk
      (p.1, { x with queue := [], drv := if (was = .run ∨ was = .degraded) ∧ s.foutFollow p.1 = false then x.level else x.drv })) } }

/-- The twin role changes (R350). -/
def State.setRole (s : State) (r : Role) (cause : Nat) : State :=
  if s.glb.role = r then s
  else
    let old := s.glb.role
    let s1 : State := { s with glb := { s.glb with role := r } }
    s1.event 0x0102 [.h old.code, .h r.code, .h cause]

/-- ACT takes a level (R337). -/
def State.setAct (s : State) (lvl : Bool) : State :=
  if s.twu.act = lvl then s
  else
    let t : Twu := { s.twu with
      act := lvl, upAt := (if lvl then s.now else s.twu.upAt),
      bothAt := if lvl ∧ s.twu.pAct then some s.now else none }
    let s1 : State := { s with twu := t }
    s1.send (.pin 0 lvl)

/-- The lit twin drops ACT and becomes UNFIT (R344, R350). -/
def State.actDrop (s : State) (cause : Nat) : State :=
  if s.twu.act = false then s
  else
    let s1 := (s.setAct false).event 0x1002 [.h cause]
    let s2 : State := { s1 with twu := { s1.twu with inhibit := true } }
    if s2.glb.role = .lit then s2.setRole .unfit 0x1002 else s2

/-- The controller enters SAFE (R395). -/
def State.enterSafe (s : State) (cause : Nat) : State :=
  match s.glb.st with
  | .run => ((s.setCtl .safe cause).urgentAll).dropEdges .run
  | .degraded => ((s.setCtl .safe cause).urgentAll).dropEdges .degraded
  | _ => s

/-- The controller enters FAULT, and ACT drops (R395). -/
def State.enterFault (s : State) (cause : Nat) : State :=
  if s.glb.st = .off ∨ s.glb.st = .fault then s
  else (((s.setCtl .fault cause).urgentAll).dropEdges s.glb.st).actDrop 4

/-- A cause of DEGRADED arises (R395). -/
def State.degrade (s : State) (cause : Nat) : State :=
  let s1 : State := { s with glb := { s.glb with degr := if s.glb.degr.contains cause then s.glb.degr else s.glb.degr ++ [cause] } }
  if s1.glb.st = .run then s1.setCtl .degraded cause else s1

/-- A cause of DEGRADED clears; with the last one the controller returns to RUN (R395). -/
def State.undegrade (s : State) (cause : Nat) : State :=
  let s1 : State := { s with glb := { s.glb with degr := s.glb.degr.filter (fun c => decide (c ≠ cause)) } }
  if s1.glb.st = .degraded ∧ s1.glb.degr = [] then s1.setCtl .run 0 else s1

/-- The controller enters RUN, and DEGRADED at once where a cause stands (R395, R500). -/
def State.enterRun (s : State) : State :=
  let s1 := s.setCtl .run 0
  match s1.glb.degr with
  | [] => s1
  | c :: _ => s1.setCtl .degraded c

/-! ### The energy ledger's queue (R396, R397) -/

/-- VIN as last measured, in mV. -/
def State.vin (s : State) : Nat := s.rdFld Reg.pemStatus 15 0

/-- Declared energy over VIN: charge in nC, from microjoule and mV. -/
def chargeOf (energy vin : Nat) : Nat := energy * 1000000 / max vin 1

/-- Order of the ledger's queue: request time, row, index. -/
def Load.before (a b : Load) : Bool :=
  decide (a.at_ < b.at_) || (decide (a.at_ = b.at_) && (decide (a.row < b.row) ||
    (decide (a.row = b.row) && decide (a.index < b.index))))

/-- Inserts a load into the queue. -/
def insertLoad (l : Load) : List Load → List Load
  | [] => [l]
  | h :: t => if l.before h then l :: h :: t else h :: insertLoad l t

/-- A load requests the ledger. -/
def State.requestLoad (s : State) (row index energy : Nat) : State :=
  let l : Load := { row := row, index := index, energy := energy, charge := chargeOf energy s.vin, at_ := s.now }
  { s with pem := { s.pem with queue := insertLoad l s.pem.queue } }

/-! ### Spare units (R499 to R504) -/

/-- A control engine. -/
def State.eng (s : State) (e : Nat) : Eng := Tab.get {} s.cea.engs e
/-- Puts a control engine. -/
def State.setEng (s : State) (e : Nat) (x : Eng) : State :=
  { s with cea := { s.cea with engs := Tab.set {} s.cea.engs e x } }

/-- A supervisor core as it stands: core 4 is the spare at reset (R499). -/
def State.core (s : State) (c : Nat) : SupCore := Tab.get { st := if c = 4 then .spare else .inService } s.hlm.cores c
/-- Puts a supervisor core, shown in HLM_CORES. -/
def State.setCore (s : State) (c : Nat) (x : SupCore) : State :=
  let s1 : State :=
    { s with hlm := { s.hlm with cores := Tab.set { st := if c = 4 then .spare else .inService } s.hlm.cores c x } }
  s1.wrFld Reg.hlmCores (3 * c + 2) (3 * c) x.st.code

/-- Engines in a state. -/
def State.engsIn (s : State) (st : UnitState) : List Nat := (List.range 18).filter (fun e => decide ((s.eng e).st = st))
/-- Cores in a state. -/
def State.coresIn (s : State) (st : UnitState) : List Nat := (List.range 5).filter (fun c => decide ((s.core c).st = st))

/-- Units of a kind (1 engine, 2 core) in a state. -/
def State.unitsIn (s : State) (kind : Nat) (st : UnitState) : List Nat := if kind = 1 then s.engsIn st else s.coresIn st

/-- A kind stands at its exhausted level: DEGRADED (R500, R503). -/
def State.exhaust (s : State) (kind : Nat) : State :=
  let s1 := if s.hlm.exhausted.contains kind then s
    else
      let s2 : State := { s with hlm := { s.hlm with exhausted := kind :: s.hlm.exhausted } }
      s2.event 0x1704 [.h kind]
  (s1.wrBit Reg.hlmStatus (19 + kind) true).degrade 0x1704

/-- A kind reaches its low level: logged the first time (R500). -/
def State.lowLevel (s : State) (kind left : Nat) : State :=
  let s1 := s.wrBit Reg.hlmStatus (15 + kind) true
  if s1.hlm.lowLogged.contains kind then s1
  else
    let s2 : State := { s1 with hlm := { s1.hlm with lowLogged := kind :: s1.hlm.lowLogged } }
    s2.event 0x1703 [.h kind, .h left]

/-- Follows a change in the number of ready spares of a kind (R499, R500, R503). -/
def State.spareLevels (s : State) (kind : Nat) : State :=
  let n := (s.unitsIn kind .spare).length
  let s0 := if kind = 1 then s.wrFld Reg.hlmStatus 1 0 n else s.wrFld Reg.hlmStatus 9 8 n
  if n = 0 then
    let s1 := (if kind = 1 then s0.lowLevel 1 0 else s0).exhaust kind
    if kind = 1 ∧ (s1.engsIn .inService).length < 16 ∧ s1.glb.role = .lit then s1.actDrop 7 else s1
  else
    let s1 : State := { s0 with hlm := { s0.hlm with exhausted := s0.hlm.exhausted.filter (fun k => decide (k ≠ kind)) } }
    let s2 := s1.wrBit Reg.hlmStatus (19 + kind) false
    let s3 := if s2.hlm.exhausted = [] then s2.undegrade 0x1704 else s2
    if kind = 1 ∧ n = 1 then s3.lowLevel 1 1 else s3.wrBit Reg.hlmStatus (15 + kind) false

/-- A replacement is requested of the ledger where a spare is ready (R501). A fault's comes before a rotation's, which waits (R516). -/
def State.requestSpare (s : State) (kind replaces : Nat) (rotate : Bool) : State :=
  if (s.unitsIn kind .spare).length ≤ (s.hlm.bringIns.filter (fun b => decide (b.kind = kind) && (rotate || !b.rotate))).length then s.spareLevels kind
  else
    let s1 : State := { s with hlm := { s.hlm with bringIns := s.hlm.bringIns ++
      [{ kind := kind, replaces := replaces, rotate := rotate }] } }
    if kind = 1 then s1.requestLoad 4 replaces 8 else s1.requestLoad 5 replaces 20

/-- An engine leaves service for its test after a fault; a third fault within 2^32 cycles puts it out (R148, R502). -/
def State.engineLeave (s : State) (e cause : Nat) : State :=
  let x := s.eng e
  let fs := s.cyc.n :: x.faults.filter (fun c => decide (s.cyc.n < c + 2 ^ 32))
  let out := decide (3 ≤ fs.length)
  let y : Eng := { x with st := if out then .out else .test,
                          faults := fs }
  let s1 := s.setEng e y
  let s2 := if out then s1.event 0x1702 [.h 1, .h e, .h cause] else s1
  s2.requestSpare 1 e false

end Sys2Proof.Machine
end

