-- ==== Sys2Proof/Machine/SlcCore.lean ====
section
/-! DEFINITION. Machine/SlcCore.lean: frames, records and checks of the Siran network (R254 to R261, R275 to R279) and the
decoding of the slot table, the record map and the node table (R263 to R265). -/

namespace Sys2Proof.Machine

/-- A slot entry (R263). -/
structure SlotEnt where
  down  : Bool
  trunk : Nat
  kind  : Nat
  half  : Bool
  cmask : Nat
  start : Nat
  body  : Nat
  nrec  : Nat
  first : Nat
  pair  : Nat
deriving DecidableEq, Repr

/-- Decodes the four words of a slot entry. -/
def SlotEnt.of (w0 w1 w2 w3 : Word) : SlotEnt :=
  { down := bit w0 31, trunk := fld w0 30 29, kind := fld w0 28 26, half := bit w0 25, cmask := fld w0 15 0
    start := w1.toNat, body := fld w2 31 16, nrec := fld w2 15 8, first := fld w3 31 16, pair := fld w3 9 0 }

/-- The slot is active in cycle n (R263). -/
def SlotEnt.active (e : SlotEnt) (n : Nat) : Bool := e.cmask.testBit (n % 16)

/-- A record map entry (R264). -/
structure RecEnt where
  node : Nat
  sub  : Nat
  ext  : Bool
  io   : Bool
  axis : Nat
deriving DecidableEq, Repr

/-- Decodes a record map entry. -/
def RecEnt.of (w : Word) : RecEnt :=
  { node := fld w 31 24, sub := fld w 23 22, ext := bit w 21, io := bit w 20, axis := fld w 15 8 }

/-- The slots of an axis: each slot entry that holds a record of it, with its number and the record's place (R56). `rd` reads a
register, `n` is the number of slot entries. -/
def axisSlots (rd : Nat → Word) (n a : Nat) : List (Nat × List Word × List Nat) :=
  (List.range n).filterMap (fun k =>
    let ws := (List.range 4).map (fun i => rd (Reg.slcSlotTab (4 * k + i)))
    let e := SlotEnt.of (ws.getD 0 0) (ws.getD 1 0) (ws.getD 2 0) (ws.getD 3 0)
    let at_ := (List.range e.nrec).filter (fun i =>
      let r := RecEnt.of (rd (Reg.slcRecMap (e.first + i)))
      decide (r.axis = a) && !r.io)
    if at_ = [] then none else some (k, ws, at_))

/-- A node table entry (R265). -/
structure NodeEnt where
  described  : Bool
  spareBound : Bool
  level      : Nat
  trunk      : Nat
  actEntries : Nat
  nslot      : Nat
  asym       : Int
  typ        : Nat
deriving DecidableEq, Repr

/-- Decodes the four words of a node table entry. -/
def NodeEnt.of (w0 w1 w2 w3 : Word) : NodeEnt :=
  { described := bit w0 31, spareBound := bit w0 30, level := fld w0 29 28, trunk := fld w0 27 26
    actEntries := fld w0 25 24, nslot := w1.toNat, asym := w2.toInt, typ := w3.toNat }

/-- Bytes of an uplink and of a downlink record (R259, R260). -/
def ulLen (ext : Bool) : Nat := if ext then 64 else 48
/-- Bytes of a downlink record (R260). -/
def dlLen (ext : Bool) : Nat := if ext then 48 else 32

/-- Bytes a frame spends beside its records (R47). -/
abbrev frameOver : Nat := 36

/-- Wire time of bytes at 0.625 byte per ns, in units of 2^-16 ns (1.6 ns a byte). -/
def wireTime (n : Nat) : Nat := n * 1048576 / 10

/-- A MAC address of R254. -/
def macAddr (group : Bool) (ctrl : Nat) (chanB : Bool) (kind b4 trunk : Nat) : List Byte :=
  leBytes 1 (if group then 3 else 2) ++ leBytes 1 0x51 ++ leBytes 1 (ctrl % 64) ++
    leBytes 1 ((if chanB then 128 else 0) + kind) ++ leBytes 1 b4 ++ leBytes 1 trunk

/-- A MAC header: destination, source, EtherType (R254). -/
def macHdr (dst src : List Byte) (etype : Nat) : List Byte := dst ++ src ++ beList 2 etype

/-- A bundle header (R255). -/
def bundleHdr (ftype count : Nat) (chanB : Bool) (half : Bool) (slot cycle : Nat) : List Byte :=
  let h := leBytes 1 ftype ++ leBytes 1 count ++
    leBytes 2 (0x1000 + (if chanB then 0x800 else 0) + (if half then 0x400 else 0) + slot % 1024) ++ leBytes 4 cycle
  h ++ beList 2 (crc16 h)

/-- A received bundle header. -/
structure Hdr where
  ftype : Nat
  count : Nat
  ver   : Nat
  chanB : Bool
  half  : Bool
  slot  : Nat
  cycle : Nat
  ok    : Bool
deriving DecidableEq, Repr

/-- Reads the bundle header of a frame given from its MAC header on; `ok` is the HCHK, version and FTYPE test (R257). -/
def readHdr (fr : List Byte) : Hdr :=
  let h := (fr.drop 14).take 10
  let sw := leAt h 2 2
  let ft := leAt h 0 1
  { ftype := ft, count := leAt h 1 1, ver := sw / 4096, chanB := sw.testBit 11, half := sw.testBit 10, slot := sw % 1024
    cycle := leAt h 4 4
    ok := decide (h.length = 10) && decide (beAt h 8 2 = crc16 (h.take 8)) && decide (sw / 4096 = 1) &&
      decide (1 ≤ ft) && decide (ft ≤ 8) }

/-- The frame is foreign (R254): another EtherType, or a source address of another controller. -/
def foreign (etype ctrl : Nat) (fr : List Byte) : Bool :=
  decide (beAt fr 12 2 ≠ etype) || decide (leAt fr 8 1 ≠ ctrl % 64)

/-- A record check (R256) over the header's CYCLE and a record up to its check; bytes 2 and 3 count as 0 where `ul`. -/
def rcrc (cycle : Nat) (ul : Bool) (rec : List Byte) : Nat :=
  let r := if ul then rec.take 2 ++ leBytes 2 0 ++ rec.drop 4 else rec
  (crc32c (leBytes 4 cycle ++ r)).toNat

/-- A record whose check passes. -/
def recOk (cycle : Nat) (ul : Bool) (rec : List Byte) : Bool :=
  let n := rec.length - 4
  decide (4 ≤ rec.length) && decide (leAt rec n 4 = rcrc cycle ul (rec.take n))

/-- Appends a record's check. -/
def sealRec (cycle : Nat) (ul : Bool) (rec : List Byte) : List Byte := rec ++ leBytes 4 (rcrc cycle ul rec)

/-- An uplink record's fields (R259). -/
structure UlRec where
  node    : Nat
  sub     : Nat
  ready   : Bool
  posInv  : Bool
  moving  : Bool
  trip    : Bool
  ext     : Bool
  fill    : Bool
  arr     : Int
  nstat   : Nat
  bridged : Nat
  chdiff  : Int
  pos     : Int
  age     : Nat
  aux     : List Word
deriving DecidableEq, Repr

/-- Reads an uplink record. An AUX field that the record does not carry reads 0. -/
def UlRec.of (r : List Byte) : UlRec :=
  let f := w32 (leAt r 1 1)
  { node := leAt r 0 1, sub := fld f 7 6, ready := bit f 5, posInv := bit f 4, moving := bit f 3, trip := bit f 2
    ext := bit f 1, fill := bit f 0, arr := sgn 16 (leAt r 2 2), nstat := leAt r 4 2, bridged := leAt r 6 1
    chdiff := sgn 8 (leAt r 7 1), pos := sgn 64 (leAt r 8 8), age := leAt r 16 4
    aux := (List.range 8).map (fun k =>
      if k < 6 then w32 (leAt r (20 + 4 * k) 4) else if bit f 1 then w32 (leAt r (44 + 4 * (k - 6)) 4) else 0) }

/-- Two records differ in some byte other than ARR (R253). -/
def recDiffers (a b : List Byte) : Bool := decide (a.take 2 ++ a.drop 4 ≠ b.take 2 ++ b.drop 4)

/-- An actuate-at entry (R261). -/
def actEntry (stamp : Nat) (level : Bool) (out owner : Nat) : List Byte :=
  leBytes 4 stamp ++ leBytes 1 ((if level then 128 else 0) + out % 128) ++ leBytes 1 1 ++ leBytes 2 owner

/-- A downlink record (R260). -/
def dlRecord (cycle node sub : Nat) (enable late stop rejoin ext : Bool) (tcorr : Int) (payload entries : List Byte) :
    List Byte :=
  let flags := sub * 64 + b2n enable * 32 + b2n late * 16 + b2n stop * 8 + b2n rejoin * 4 + b2n ext * 2
  sealRec cycle false (leBytes 1 node ++ leBytes 1 flags ++ leBytes 2 (tcorr % 65536).toNat ++ padTo 16 payload ++
    padTo (if ext then 24 else 8) entries)

/-- ARR saturated to +-8,191.75 ns (R268). -/
def satArr (x : Int) : Int := clampI (-32767) 32767 x

/-- TCORR = ARR / 8, rounded to 0.25 ns (R269). -/
def tcorrOf (arr : Int) : Int := divRound arr 8

/-- The body of a JOIN_ACK (R277) up to its check. -/
def joinAckBody (cycle node result recs : Nat) (exU exD c2 : Bool) (acts nslot : Nat) (oInit asym actCycle : Nat)
    (cmasks : List Byte) : List Byte :=
  sealRec cycle false (leBytes 1 node ++ leBytes 1 result ++
    leBytes 1 (recs + b2n exU * 8 + b2n exD * 16 + b2n c2 * 32) ++ leBytes 1 acts ++ leBytes 4 nslot ++
    leBytes 4 oInit ++ leBytes 4 asym ++ leBytes 4 actCycle ++ padTo 8 cmasks)

/-- The beacon's 76-byte body (R258). -/
def beaconBody (cycle per act ofs : Nat) (candle : List Byte) (ctrl state tl1 tl2 joinIdx free : Nat) (joinAt : Nat) :
    List Byte :=
  let b := leBytes 8 cycle ++ leBytes 4 per ++ leBytes 4 act ++ leBytes 4 ofs ++ padTo 32 candle ++ leBytes 1 ctrl ++
    leBytes 1 state ++ leBytes 2 tl1 ++ leBytes 2 tl2 ++ leBytes 1 joinIdx ++ leBytes 1 0 ++ leBytes 4 free
  b ++ leBytes 4 (crc32c b).toNat ++ leBytes 4 0 ++ leBytes 4 joinAt

end Sys2Proof.Machine
end

