-- ==== Sys2Proof/Machine/CycleOps.lean ====
section
/-! DEFINITION. Machine/CycleOps.lean: what the commands of the control cycle share: the slot plan as it stands in the
register file (R263, R264), deadlines (R41), jobs that become ready (R36 to R39), late commands (R43, R44), frames
(R149 to R152) and the end of a job (R153). -/

namespace Sys2Proof.Machine

/-! ### The slot plan -/

/-- Number of slot entries. -/
def State.slotCount (s : State) : Nat := s.rdFld Reg.slcPlan 26 16

/-- A slot entry of the register file. -/
def State.slotEnt (s : State) (k : Nat) : SlotEnt :=
  SlotEnt.of (s.rd (Reg.slcSlotTab (4 * k))) (s.rd (Reg.slcSlotTab (4 * k + 1))) (s.rd (Reg.slcSlotTab (4 * k + 2)))
    (s.rd (Reg.slcSlotTab (4 * k + 3)))

/-- A record map entry of the register file. -/
def State.recEnt (s : State) (r : Nat) : RecEnt := RecEnt.of (s.rd (Reg.slcRecMap r))

/-- Slots of a direction that are active in cycle n, in table order. -/
def State.slotsOn (s : State) (down : Bool) (n : Nat) : List (Nat × SlotEnt) :=
  ((List.range s.slotCount).map (fun k => (k, s.slotEnt k))).filter (fun p => p.2.down == down && p.2.active n)

/-- The record entries of a slot in order. -/
def State.recsOf (s : State) (e : SlotEnt) : List RecEnt := (List.range e.nrec).map (fun k => s.recEnt (e.first + k))

/-- Bytes from the start of a downlink frame to the record of an axis: 8 of preamble, 14 and 10 of headers, and the
records before it (R47). -/
def recOffset (a : Nat) : List RecEnt → Option Nat
  | [] => none
  | r :: t => if r.io = false ∧ r.axis = a then some 0 else (recOffset a t).map (· + dlLen r.ext)

/-- Fabric time at which the first byte of an axis's downlink record is due on the wire (R41). -/
def State.recDue (s : State) (a half : Nat) : Option Nat :=
  (s.slotsOn true s.cyc.n).findSome? (fun p =>
    if p.2.kind = 1 ∨ b2n p.2.half ≠ half then none
    else (recOffset a (s.recsOf p.2)).map (fun o => s.cyc.c0 + p.2.start * 1024 + wireTime (32 + o)))

/-- The release deadline of an axis's job: 40 ns before its record is due (R41). -/
def State.deadline (s : State) (a half : Nat) : Option Nat := (s.recDue a half).map (· - 40 * nsU)

/-- Worst-case cost of a kernel set in clocks, from CEA_KSETk_INFO (R155, R40). -/
def State.wcet (s : State) (k : Nat) : Nat := s.rdFld (Reg.ceaKsetInfo k) 15 0

/-- The latest start of an axis's job (R40). -/
def State.latestStart (s : State) (a half : Nat) : Option Nat :=
  (s.deadline a half).map (· - s.wcet (s.desc a).kset * clkU)

/-! ### Samples -/

/-- Half a T64 period, 7.8125 us, in 2^-16 ns (R35). -/
abbrev halfU : Nat := 512000000

/-- Actuation instant of a half of the present cycle for an axis: A, or for class C2 7.0 us after the start of the half (R34, R35). -/
def State.actAt (s : State) (a half : Nat) : Nat :=
  if (s.desc a).c2 then s.cyc.c0 + 7000 * nsU + half * halfU else s.instant Reg.cycAct

/-- The last actuation instant of an axis in the present cycle. -/
def State.actLast (s : State) (a : Nat) : Nat := s.actAt a (if (s.desc a).c2 then 1 else 0)

/-- Sample instant of a half (R29, R35). -/
def State.sampleAt (s : State) (half : Nat) : Nat := s.cyc.c0 + half * halfU

/-- The feedback position extrapolated to a time (R39): the last position plus the last velocity times the time since its
sample. Rounded to the nearest, ties away from zero (DESIGN CHOICE, log entry 17). -/
def Axis.extrapAt (x : Axis) (t : Nat) : Int :=
  x.fbPos + divRound (x.fbVel * ((t : Int) - x.fbTime) * 256) secTicks

/-! ### Jobs that become ready (R36 to R39) -/

/-- The axis runs jobs: it is not UNUSED, CREATED or ADMIT_WAIT (R260). -/
def AxSt.runsJobs : AxSt → Bool
  | .unused => false
  | .created => false
  | .admitWait => false
  | _ => true

/-- Order of the ready queue: readiness time, then axis index (R38). -/
def ReadyJob.before (a b : ReadyJob) : Bool :=
  decide (a.ready < b.ready) || (decide (a.ready = b.ready) && decide (a.axis < b.axis))

/-- Inserts a job into the ready queue. -/
def insertReady (j : ReadyJob) : List ReadyJob → List ReadyJob
  | [] => [j]
  | h :: t => if j.before h then j :: h :: t else h :: insertReady j t

/-- The job of an axis becomes ready now, unless it did in this cycle or half (R36); that of a linked axis not before
LAU_POST (R227). -/
def State.makeReady (s : State) (a half : Nat) (extrap : Bool) : State :=
  let x := s.axis a
  if x.st.runsJobs = false ∨ x.ranHalf.contains half then s
  else if s.lau.posted = false ∧
      (s.lau.links.any (fun p => decide (p.1 = a)) = true ∨ s.lau.armedLinks.any (fun p => decide (p.1 = a)) = true) then
    s.setAxis a { x with lauWait := if x.lauWait.any (fun q => decide (q.1 = half)) then x.lauWait else x.lauWait ++ [(half, extrap)] }
  else
    let s1 := s.setAxis a { x with ranHalf := half :: x.ranHalf }
    { s1 with cea := { s1.cea with
        ready := insertReady { axis := a, ready := s1.co, half := half, extrap := extrap } s1.cea.ready } }

/-! ### Lateness (R40, R42 to R44) -/

/-- The command of an axis is a late one: flag LATE and no new reference (R43). -/
def State.lateCmd (s : State) (a : Nat) : State :=
  s.updAxis a (fun x => { x with cmd := { late := true, done := s.now, cycle := s.cyc.n }, lateBit := true
                                 thin := { x.thin with zRun := x.thin.zeroOn, zLate := true } })

/-- A late command that advances the consecutive late count (R44). -/
def State.lateCounted (s : State) (a : Nat) : State := (s.lateCmd a).updAxis a (fun x => { x with late := x.late + 1 })

/-- CYC_LATE_INFO. -/
def State.lateInfo (s : State) (kind a : Nat) : State :=
  s.wr Reg.cycLateInfo (w32 (kind * 2 ^ 30 + a % 256 * 65536 + s.cyc.n % 65536))

/-- Sets bits of the axis's landing-map flags (R335): 1 EXTRAP, 2 LATE, 4 SKIPPED, 8 OVERRUN. -/
def State.mapMark (s : State) (a bits : Nat) : State :=
  s.updAxis a (fun x => { x with mapFlags := x.mapFlags ||| bits })

/-- LAST_EVENT of an axis (R64), for an event that carries its index behind another argument. -/
def State.axNote (s : State) (a code : Nat) : State := s.updAxis a (fun x => { x with lastEvent := code })

/-! ### Frames (R149 to R152) -/

/-- The kernel set is one of Quetric's library kernels, whose effect the rules of the control laws and of commutation
state. -/
def State.isLibrary (s : State) (k : Nat) : Bool := s.cea.library.contains k

/-- The low and high word of a 64-bit integer at two words of a frame. -/
def put64 (t : Tab Word) (w : Nat) (v : Int) : Tab Word :=
  Tab.set 0 (Tab.set 0 t w (loW (dInt v))) (w + 1) (hiW (dInt v))

/-- Puts words at rising indices. -/
def putWords (t : Tab Word) (w : Nat) : List Word → Tab Word
  | [] => t
  | v :: rest => putWords (Tab.set 0 t w v) (w + 1) rest

/-- The loop states of R127 as words 0x30 to 0xD8 of a frame: window offset 0x0100 is word 0x30. -/
def LoopState.words (l : LoopState) : Tab Word :=
  let t0 := (List.range 10).foldl (fun t k =>
    let c := l.comps.getD k {}
    let b := 0x30 + 0x10 * k
    let t1 := [c.x1, c.x2, c.x3, c.y1, c.y2, c.y3].zipIdx.foldl (fun t v => put64 t (b + 2 * v.2) v.1) t
    putWords t1 (b + 12) [wInt c.xin, wInt c.yout]) []
  putWords t0 0xD0 ([wInt l.dc, wInt l.final, bitsWord [l.dmdSat, l.slewAct, l.crossed, l.rescSkip], w32 l.feCount]
    ++ l.cands.map wInt)

/-- The kind-specific state of a THIN axis as words 0xE0 to 0xEB of a frame (R183). -/
def Thin.words (hf : Nat) (th : Thin) : Tab Word :=
  putWords [] 0xE0 ([w32 (th.cs.code + th.att % 16 * 16 + th.rec_ % 16 * 256 + min th.resid 15 * 4096
      + min ((th.left + hf - 1) / hf) 65535 * 65536), th.psiA, th.psiB, th.tq, th.ang, th.om, th.r, th.keMean] ++ th.ofs ++ [th.encOfs])

/-- The kind-specific state of a STEPPER axis as words 0xE0 to 0xE2 (R184). -/
def Stepper.words (st : Stepper) : Tab Word := putWords [] 0xE0 [w32 st.theta, w32 st.zeroV, st.amp]

/-- The state words 0x30 to 0xFF of an axis's frame (R150). -/
def State.stateWords (s : State) (a : Nat) : Tab Word :=
  let x := s.axis a
  let d := s.desc a
  if s.isLibrary d.kset then
    x.loop.words ++ (match d.kind with
      | .smart => x.kx.filter (fun p => decide (0xE0 ≤ p.1))
      | .thin => x.thin.words (halves d.c2)
      | .stepper => x.stepper.words)
  else x.kx

/-- A signal by its global address (R323) as a job of this cycle reads it: a local one as at the end of the previous cycle (R37), an
imported one as applied at the boundary (R324). -/
def State.jobSig (s : State) (addr : Nat) : Word :=
  if addr / 16384 = s.glb.id then Tab.get 0 s.sigPrev (addr % 16384) else Tab.get 0 s.remote addr

/-- The signals mapped by the description (R113, R150). -/
def State.mappedSigs (s : State) (a : Nat) : List Word :=
  (List.range 8).map (fun k => match (s.desc a).loop.sigMap.getD k none with
    | some i => s.jobSig i
    | none => 0)

/-- The setpoint of a job for its actuation instant: of half 1 the plan at the second one (R35). -/
def State.jobSetpt (s : State) (a half : Nat) : Setpt :=
  let g := (s.axis a).pgn
  if half = 0 ∧ (s.desc a).c2 = true then g.sp0 else g.sp

/-- Feedback of a job: position and velocity, extrapolated or landed (R36, R39). -/
def State.jobFb (s : State) (a half : Nat) (extrap : Bool) : Int × Int :=
  let x := s.axis a
  (if extrap then x.extrapAt (s.sampleAt half) else x.fbPos, x.fbVel)

/-- The X part of a frame (R150). The command, winner, demand, event and request words, 0x20 to 0x2F, have no stated
content at entry: free values. -/
def State.frameX (s : State) (a half : Nat) (extrap : Bool) : Tab Word × State :=
  let x := s.axis a
  let fb := s.jobFb a half extrap
  let sp := s.jobSetpt a half
  let t1 := put64 (put64 [] 0 fb.1) 2 fb.2
  let t2 := put64 (put64 (put64 t1 4 sp.p) 6 sp.v) 8 sp.a
  let t3 := put64 t2 0x0A s.cyc.n
  let t4 := putWords (putWords t3 0x10 (x.aux.take 8)) 0x18 (s.mappedSigs a)
  let r := s.frees 16
  let t5 := putWords t4 0x20 (r.1.map loW)
  (t5 ++ s.stateWords a, r.2)

/-- A swap takes effect at the axis's job start in this cycle (R123). -/
def State.swapDue (s : State) (a : Nat) : Bool :=
  match (s.axis a).swapAt with
  | some m => decide (m ≤ s.cyc.n)
  | none => false

/-- The bank in force for a job of the axis, and the bank before a swap or an epoch (R124, R125). -/
def State.jobBanks (s : State) (a : Nat) : Tab Word × Option (Tab Word) :=
  let x := s.axis a
  let old := if x.epochDue then x.oldBank else x.bank
  let new := if s.swapDue a then x.other else x.bank
  (new, if s.swapDue a ∨ x.epochDue then some old else none)

/-- The Y part of a frame (R151). -/
def State.frameY (s : State) (a : Nat) : Tab Word :=
  let b := s.jobBanks a
  let lo := b.1.filter (fun p => decide (p.1 < 0x60))
  let old := ((b.2.getD []).filter (fun p => decide (p.1 < 0x60))).map (fun p => (p.1 + 0x60, p.2))
  lo ++ old ++ ((s.desc a).ky.filter (fun p => decide (p.1 < 0x40))).map (fun p => (p.1 + 0xC0, p.2))

/-- The frame slot of an axis and half that is staged and not yet running. -/
def State.stagedSlot (s : State) (a half : Nat) : Option Nat :=
  (s.cea.frames.find? (fun p => decide (p.2.axis = a ∧ p.2.half = half) && !p.2.running)).map (·.1)

/-- The lowest free frame slot of 24. -/
def State.freeSlot (s : State) : Option Nat :=
  (List.range 24).find? (fun f => s.cea.frames.all (fun p => decide (p.1 ≠ f)))

/-- Place of an axis in the staging order; later than all where the image does not list it. -/
def State.stageRank (s : State) (a : Nat) : Nat := (s.cea.order.findIdx? (fun b => decide (b = a))).getD 1024

/-- A frame of an axis and half may be staged: none of that half is, and none of the axis runs a job (R149). -/
def State.stageable (s : State) (a half : Nat) : Bool :=
  (s.axis a).st.runsJobs && (decide (half = 0) || (decide (half = 1) && (s.desc a).c2)) &&
    !s.cea.frames.any (fun p => decide (p.2.axis = a) && (p.2.running || decide (p.2.half = half)))

/-- Place of a frame in the order of staging (R149): the cycle of its job, the half, the image's staging order, the axis. -/
def State.stageKey (s : State) (a half : Nat) : Nat :=
  let d := s.desc a
  let m := if d.active s.cyc.n ∧ (s.axis a).ranHalf.contains half = false then s.cyc.n else d.nextActive s.cyc.n
  ((2 * m + half) * 1025 + s.stageRank a) * 256 + a

/-- The staged frame latest in the staging order among those not running (R149). -/
def State.evictee (s : State) : Option Nat :=
  (s.cea.frames.filter (fun p => !p.2.running)).foldl (fun (best : Option Nat) p =>
    match best with
    | none => some p.1
    | some f =>
      match s.cea.frames.find? (fun q => decide (q.1 = f)) with
      | some q => if s.stageRank q.2.axis < s.stageRank p.2.axis then some p.1 else best
      | none => some p.1) none

/-- Stages a frame into a slot. -/
def State.stageIn (s : State) (f a half : Nat) : State :=
  { s with cea := { s.cea with frames := Tab.put s.cea.frames f { axis := a, half := half } } }

/-- Drops a frame slot. -/
def State.dropFrame (s : State) (f : Nat) : State := { s with cea := { s.cea with frames := Tab.del s.cea.frames f } }

/-- Drops the staged frame of an axis and half. -/
def State.dropStaged (s : State) (a half : Nat) : State :=
  match s.stagedSlot a half with
  | some f => s.dropFrame f
  | none => s

/-- The ready job of an axis: removed from the queue. -/
def State.takeReady (s : State) (a half : Nat) : State :=
  { s with cea := { s.cea with ready := s.cea.ready.filter (fun j => !decide (j.axis = a ∧ j.half = half)) } }

/-! ### The end of a job -/

/-- Engine `e` leaves its job: the frame slot is free and its time counts as busy. -/
def State.endJob (s : State) (e : Nat) : State :=
  let x := s.eng e
  match x.job with
  | none => s
  | some j =>
    let y : Eng := { x with job := none, lastAxis := j.axis, exited := false, branch := none, slots := 0, rep := 0, pend := [],
                            urgPend := false, ovrPend := false, inj := 0 }
    let s1 := (s.setEng e y).dropFrame j.frame
    { s1 with cyc := { s1.cyc with busy := s1.cyc.busy + x.cost * 80 } }

/-- A job that ends without results: a late command that counts (R44, R148, R153). -/
def State.lateEnd (s : State) (e : Nat) : State :=
  match (s.eng e).job with
  | none => s
  | some j => ((s.endJob e).lateCounted j.axis).mapMark j.axis 2

/-- A job ended by CYCLE_OVERRUN (R42). -/
def State.overrunEnd (s : State) (e : Nat) : State :=
  match (s.eng e).job with
  | none => s
  | some j =>
    let s1 := ((s.endJob e).lateCounted j.axis).mapMark j.axis 10
    ((s1.count Reg.cycOverrunCnt).lateInfo 1 j.axis).axEvent j.axis 0x0601 [.h e]

/-- An engine fault (R148): the job ends, the engine takes no further job and leaves for its test (R502). -/
def State.engineFault (s : State) (e kind pc : Nat) : State :=
  match (s.eng e).job with
  | none => s
  | some j =>
    let s1 := (s.lateEnd e).axNote j.axis 0x0C10
    let s2 := (s1.wrBit Reg.ceaFaultMap e true).count Reg.ceaFaultCnt
    let s3 := s2.wr Reg.ceaLastFault
      (w32 (e % 32 * 2 ^ 27 + kind % 8 * 2 ^ 24 + j.axis % 256 * 65536 + pc % 16384))
    (s3.event 0x0C10 [.h e, .h kind, .h pc, .h j.axis]).engineLeave e 1

end Sys2Proof.Machine
end

