-- ==== Sys2Proof/Machine/SafetyCore.lean ====
section
/-! DEFINITION. Machine/SafetyCore.lean: safety PDUs and the judgement of the monitored functions (R368 to R378). -/

namespace Sys2Proof.Machine

/-- A PDU of R373 with its SCRC. -/
def mkPdu (connId seq wd kind : Nat) (data : List Byte) : List Byte :=
  let b := leBytes 2 seq ++ leBytes 2 wd ++ leBytes 1 ((12 + data.length) / 4) ++ leBytes 1 kind ++ leBytes 2 0 ++ data
  b ++ leBytes 4 (crc32c (leBytes 4 connId ++ b)).toNat

/-- How a received copy is judged (R374). -/
inductive PduVerdict where
  | crc | param | second | ok (seq : Nat) | seqErr (d : Nat)
deriving DecidableEq, Repr

/-- Judges a copy in the order of R374. -/
def judgePdu (c : ConnDecl) (win : Nat) (fresh : Bool) (last : Nat) (b : List Byte) : PduVerdict :=
  let n := b.length - 4
  let seq := leAt b 0 2
  let d := (seq + 65536 - last % 65536) % 65536
  if b.length < 16 ∨ leAt b n 4 ≠ (crc32c (leBytes 4 c.connId ++ b.take n)).toNat then .crc
  else if leAt b 2 2 ≠ c.wd ∨ leAt b 4 1 * 4 ≠ c.len then .param
  else if fresh then .ok seq
  else if d = 0 then .second
  else if d ≤ win then .ok seq
  else .seqErr d

/-- The data bytes of a downlink PDU: TP and BR for each SUB, then the node's safe outputs (R373). -/
def downData (permit brakeOff : Nat → Bool) (subs : List (Nat × Nat)) (outs : Nat) : List Byte :=
  (List.range 4).flatMap (fun k =>
    match subs.find? (fun p => decide (p.1 = k)) with
    | some p => leBytes 1 (b2n (permit p.2) + 2 * b2n (brakeOff p.2))
    | none => [0]) ++ leBytes 4 outs

/-- A position scaled by its rational factor (R367). -/
def scalePos (n : Int) (d : Nat) (p : Int) : Int := divRound (p * n) (max d 1 : Nat)

/-- The safe speed of R368 in counts per second: the change over N_V base cycles. `per` is T in 2^-6 ns. Where the position of that
cycle is missing, the mean runs from the next older one, and until there is one from the oldest; it is rounded (DESIGN CHOICE, log entry
28). -/
def safeSpeed (nV per : Nat) (hist : List (Nat × Int)) : Int :=
  match hist with
  | [] => 0
  | p :: l =>
    match (match l.find? (fun q => decide (q.1 + nV ≤ p.1)) with
      | some q => some q
      | none => l.getLast?) with
    | none => 0
    | some q => if per = 0 ∨ p.1 ≤ q.1 then 0 else divRound (posDiff p.2 q.2 * 64000000000) (((p.1 - q.1) * per : Nat) * 2 ^ 32)

/-- The envelope of SS1-r and SS2 (R370) at a time `el` after the demand, in 2^-16 ns: counts per second. -/
def ss1Envelope (m : MonAxis) (vd el : Nat) : Int :=
  let ms := 65536000000
  let top : Int := vd + m.vTol
  if el ≤ m.tDelay * ms then top
  else max (m.vTol : Int) (top - ((m.dMon * (el - m.tDelay * ms) / (1000 * ms) : Nat) : Int))

/-- The pair demands (R378): any pin at its demand level, or a latched discrepancy. -/
def SafeIn.demands (d : SafeInDecl) (i : SafeIn) : Bool := i.disc || !i.a || (if d.anti then i.b else !i.b)

/-- The pair as sampled at a time: a pin that changed later still had its former level (R360). -/
def SafeIn.at_ (i : SafeIn) (t : Nat) : SafeIn :=
  { i with a := if i.aAt ≤ t then i.a else !i.a, b := if i.bAt ≤ t then i.b else !i.b }

/-- Pins that disagree (R378). -/
def SafeIn.differs (d : SafeInDecl) (i : SafeIn) : Bool := if d.anti then i.a == i.b else i.a != i.b

/-- Both pins at the demand level. -/
def SafeIn.bothDemand (d : SafeInDecl) (i : SafeIn) : Bool := !i.a && (if d.anti then i.b else !i.b)

/-- SLP (R370): the position and the stopping point both within the limits, compared under R9. -/
def slpOk (m : MonAxis) (p v : Int) : Bool :=
  let q := p + divRound (v * v.natAbs * 2 ^ 32) (2 * (max m.dSlp 1) : Nat)
  let within := fun (x : Int) => decide (0 ≤ posDiff x m.posLo) && decide (posDiff x m.posHi ≤ 0)
  within p && within q

/-- SDI (R370): travel opposite to DIR since activation, counted back as motion returns. `ref` is the position from which
it counts. -/
def sdiOk (m : MonAxis) (ref p : Int) : Bool :=
  let back := if m.dirPos then posDiff ref p else posDiff p ref
  decide (back ≤ (m.sdiTol : Int) * 2 ^ 32)

end Sys2Proof.Machine
end

