-- ==== Sys2Proof/Machine/SafetyOps.lean ====
section
/-! DEFINITION. Machine/SafetyOps.lean: what the commands of the safety island share: demands and latches (R369, R371),
monitoring (R368, R370), torque permits, brakes and outputs (R365, R366, R379, R380), island faults (R363), received
copies (R374, R375) and the host view (R388, R389). -/

namespace Sys2Proof.Machine

/-- The safety parameter section in force (R382). -/
def State.safety (s : State) : SafetySec := s.ctrl.safety

/-- Changes SFI. -/
def State.updSfi (s : State) (f : Sfi → Sfi) : State := { s with sfi := f s.sfi }

/-- A counter of the host view: 0 CRC_ERR, 1 SEQ_ERR, 2 WD_EXP, 3 DISC, 4 RB_ERR, 5 RESET_OK, 6 RESET_REJ. -/
def State.sfiCount (s : State) (k : Nat) : State :=
  s.updSfi (fun x => { x with cnts := x.cnts.set k (min 0xFFFFFFFF (x.cnts.getD k 0 + 1)) })

/-- An event of the island: it is copied to the log at the next boundary (R388). -/
def State.sfiEvent (s : State) (code : Nat) (args : List EvArg) : State := s.updSfi (fun x => { x with evq := x.evq ++ [(code, args)] })

/-- SFI_LAST_FAULT: the low 7 bits of the event code, the index, the cycle. -/
def State.sfiLast (s : State) (code idx : Nat) : State :=
  s.updSfi (fun x => { x with lastFault := w32 (code % 128 * 2 ^ 25 + idx % 512 * 65536 + s.cyc.n % 65536) })

/-- The parameters of a safe axis. -/
def State.safeAxis (s : State) (a : Nat) : SafeAxis := ((s.safety.axes.find? (fun x => decide (x.axis = a))).getD { axis := a })

/-- The monitored axis entry of an axis: its number and parameters. -/
def State.monOf (s : State) (a : Nat) : Option (Nat × MonAxis) :=
  (s.safety.mons.zipIdx.find? (fun p => decide (p.1.axis = a))).map (fun p => (p.2, p.1))

/-- The running state of monitored axis `k`. -/
def State.mon (s : State) (k : Nat) : MonRt := Tab.get {} s.sfi.mons k
/-- Puts it. -/
def State.setMon (s : State) (k : Nat) (m : MonRt) : State := s.updSfi (fun x => { x with mons := Tab.set {} x.mons k m })

/-- A safe input pair and its declaration. -/
def State.safeIn (s : State) (k : Nat) : SafeIn := Tab.get {} s.sfi.ins k
/-- A safe input pair as sampled at S (R360). -/
def State.safeInAtS (s : State) (k : Nat) : SafeIn := (s.safeIn k).at_ (s.sampleAt 0)
/-- Its declaration. -/
def State.safeInDecl (s : State) (k : Nat) : SafeInDecl := s.safety.ins.getD k {}
/-- A safe connection. -/
def State.conn (s : State) (c : Nat) : Conn := Tab.get {} s.sfi.conns c
/-- Puts a safe connection. -/
def State.setConn (s : State) (c : Nat) (x : Conn) : State := s.updSfi (fun y => { y with conns := Tab.set {} y.conns c x })

/-! ### Permits, brakes and outputs -/

/-- Torque is removed from the axis: STO stands, active or latched, or a stop has ended in STO (R370). -/
def Sfi.stoOn (x : Sfi) (a : Nat) : Bool :=
  x.demands.any (fun d => decide (d.axis = a ∧ d.func = .sto)) ||
    x.stops.any (fun r => decide (r.axis = a) && ((r.done && decide (r.func ≠ .ss2)) || r.late))

/-- The permits as the demands leave them: 1 for an axis without STO while the island is NORMAL (R363, R364). -/
def Sfi.permitsNow (x : Sfi) : List Nat :=
  if x.st = .normal then (List.range 256).filter (fun a => !x.stoOn a) else []

/-- Axes whose torque a safe output pair carries (R365). -/
def State.outAxes (s : State) (k : Nat) : List Nat :=
  (s.safety.outs.getD k {}).axes ++ (s.safety.axes.filter (fun x => decide (x.out = some k))).map (·.axis)

/-- A safe output pair drives its level: on while the island is NORMAL, its axes have torque (or released brakes), no
readback fault stands and the role allows it (R363, R365, R366, R379, R380). -/
def State.outWanted (s : State) (k : Nat) : Bool :=
  let d := s.safety.outs.getD k {}
  let brakes := (s.safety.axes.filter (fun x => decide (x.brakeOut = some k))).map (·.axis)
  d.used && decide (s.sfi.st = .normal) && !(Tab.get {} s.sfi.outs k).cutOff && decide (s.glb.role ≠ .probation ∧ s.glb.role ≠ .unfit)
    && (s.outAxes k).all s.sfi.permit.contains && brakes.all s.sfi.brakeOff.contains

/-- Pin number of rail A (0) or B (1) of a safe output on the wire. -/
def outPin (k : Nat) (chanB : Bool) : Nat := 0x100 + 2 * k + b2n chanB

/-- Drives the safe outputs. -/
def State.driveOuts (s : State) : State :=
  (List.range 4).foldl (fun st k =>
    let o := Tab.get {} st.sfi.outs k
    let want := st.outWanted k
    if o.on = want then st
    else
      let o1 : SafeOut := { o with on := want, testAt := if want then st.now else o.testAt }
      let st1 := st.updSfi (fun x => { x with outs := Tab.set {} x.outs k o1 })
      (st1.send (.pin (outPin k false) want)).send (.pin (outPin k true) want)) s

/-- Torque permits, brakes and outputs follow the demands (R364 to R366). -/
def State.sfiPermits (s : State) : State :=
  let old := s.sfi.permit
  let new := s.sfi.permitsNow
  let off := old.filter (fun a => !new.contains a)
  let on := new.filter (fun a => !old.contains a)
  let atOnce := off.filter (fun a => decide ((s.safeAxis a).tSbc = 0) || decide (s.sfi.st ≠ .normal))
  let brakes := (s.sfi.brakeOff.filter (fun a => !atOnce.contains a)) ++ on.filter (fun a => !s.sfi.brakeOff.contains a)
  let s1 := s.updSfi (fun x => { x with
    permit := new, brakeOff := if s.sfi.st = .normal then brakes else [],
    permitOff := off.foldl (fun t a => Tab.set 0 t a s.now) x.permitOff })
  on.foldl (fun st a => st.sfiEvent 0x1104 [.h a]) s1.driveOuts

/-! ### Demands (R369) -/

/-- SOS holds an axis: demanded, or begun by SS2 (R370). -/
def State.sosNow (s : State) (a : Nat) : Bool :=
  s.sfi.demands.any (fun d => decide (d.axis = a ∧ d.func = .sos)) ||
    s.sfi.stops.any (fun x => decide (x.axis = a ∧ x.func = .ss2) && x.done && !x.late)

/-- Judges the functions active on a monitored axis (R370): the functions breached. -/
def State.breaches (s : State) (k : Nat) (m : MonAxis) : List SfFunc :=
  let r := s.mon k
  let on := fun (f : SfFunc) => s.sfi.demands.any (fun d => decide (d.axis = m.axis ∧ d.func = f))
  let t := s.sampleAt 0
  let env := s.sfi.stops.filterMap (fun x =>
    if x.axis = m.axis ∧ ¬ x.done ∧ ¬ x.late ∧ (x.func = .ss1r ∨ x.func = .ss2) then
      (if ss1Envelope m x.vd (t - x.since) < (r.v.natAbs : Int) then some x.func else none)
    else none)
  let sos := s.sosNow m.axis && (match r.sosPos with
    | some p => decide ((m.sosWin : Int) * 2 ^ 32 < (posDiff r.pos p).natAbs) || decide (m.vZero < r.v.natAbs)
    | none => false)
  let slp := on .slp && !slpOk m r.pos r.v
  let sdi := on .sdi && (match r.sdiPos with | some p => !sdiOk m p r.pos | none => false)
  let sls := on .sls && decide (2 ≤ r.slsRun)
  env ++ (if sos then [.sos] else []) ++ (if sls then [.sls] else []) ++ (if slp then [.slp] else [])
    ++ (if sdi then [.sdi] else [])

/-- The condition of POS_DISC (R368). -/
def MonRt.discNow (r : MonRt) (m : MonAxis) : Bool := decide (m.nDisc ≤ r.discRun) || decide (3 ≤ r.missRun)

/-- A breach or POS_DISC of a monitored axis is present (R371). -/
def State.breachOn (s : State) (a : Nat) : Bool :=
  match s.monOf a with
  | some (k, m) => (s.mon k).discNow m || decide (s.breaches k m ≠ [])
  | none => false

/-- The source of a demand is active now. -/
def State.srcActive (s : State) (d : Demand) : Bool :=
  match d.src with
  | .start => false
  | .input k => SafeIn.demands (s.safeInDecl k) (s.safeInAtS k)
  | .nodeBit c b => !(s.conn c).inputs.testBit b
  | .island => decide (s.sfi.st = .fault)
  | .ctrl => decide (s.glb.st = .safe ∨ s.glb.st = .fault)
  | .host => s.sfi.hostReq.any (fun q => decide (q.axis = d.axis ∧ q.func = d.func))
  | .breach => s.breachOn d.axis
  | .func _ => d.active

/-- Time limit of a stop, in ms: T_CTRL for CTRL_REACT, else T_SS1 or T_SS1_MAX (R369, R370). -/
def State.stopLimit (s : State) (d : Demand) : Nat :=
  if d.src = .ctrl then s.safety.tCtrl
  else if d.func = .ss1t then (s.safeAxis d.axis).tSs1
  else ((s.monOf d.axis).map (fun p => p.2.tMax)).getD 0

/-- A stop of SS1-t, SS1-r or SS2 begins: the safe stop is requested of PGN (R370). -/
def State.beginStop (s : State) (d : Demand) : State :=
  let vd := ((s.monOf d.axis).map (fun p => (s.mon p.1).v.natAbs)).getD 0
  let r : StopRun := { axis := d.axis, func := d.func, since := s.sampleAt 0, vd := vd, limit := s.stopLimit d }
  s.updSfi (fun x => { x with stops := x.stops ++ [r] })

/-- A demand is placed; a new one is logged and, for a stop, begins it (R369, R370). -/
def State.demand (s : State) (d : Demand) : State :=
  let same := fun (q : Demand) => decide (q.axis = d.axis ∧ q.func = d.func ∧ q.src = d.src)
  if s.sfi.demands.any same then
    s.updSfi (fun x => { x with demands := x.demands.map (fun q => if same q then { q with active := true, sls := d.sls } else q) })
  else
    let s1 := s.updSfi (fun x => { x with demands := x.demands ++ [d] })
    let s2 := s1.sfiEvent 0x1102 [.h d.axis, .h d.func.code, .h (Config.demandSource d.src.key)]
    if d.func = .ss1t ∨ d.func = .ss1r ∨ d.func = .ss2 then s2.beginStop d
    else if d.func = .sdi ∨ d.func = .sos then
      match s2.monOf d.axis with
      | some (k, _) =>
        let m := s2.mon k
        s2.setMon k (if d.func = .sdi then { m with sdiPos := some m.pos } else { m with sosPos := some m.pos })
      | none => s2
    else s2

/-- The reaction of an axis: STO, or SS1-t of T_SS1 (R371). -/
def State.reactFunc (s : State) (a : Nat) : SfFunc := if (s.safeAxis a).react = 0 then .sto else .ss1t

/-- CTRL_REACT on every axis (R369). -/
def State.ctrlReact (s : State) : State :=
  if s.sfi.st ≠ .normal then s
  else (List.range 256).foldl (fun st a =>
    st.demand { axis := a, func := if st.safety.ctrlStop then .ss1t else .sto, src := .ctrl }) s

/-- Every source of the demand map that is active places its demands (R369). -/
def State.mapDemands (s : State) : State :=
  s.safety.maps.foldl (fun st m =>
    if st.srcActive { axis := 0, func := m.func, src := m.src } && decide (m.src ≠ .host) then
      m.axes.foldl (fun st a => st.demand { axis := a, func := m.func, src := m.src, sls := m.sls, auto := m.auto }) st
    else st) s

/-- Demands whose source is no longer active; those with AUTO_CLEAR clear, the others stay latched (R369). -/
def State.refreshDemands (s : State) : State :=
  let ds := s.sfi.demands.map (fun d => { d with active := s.srcActive d })
  s.updSfi (fun x => { x with demands := ds.filter (fun d => d.active || !d.auto) })

/-- Stops without a demand that asked for them end. -/
def Sfi.trimStops (x : Sfi) : Sfi :=
  { x with stops := x.stops.filter (fun r => x.demands.any (fun d => decide (d.axis = r.axis ∧ d.func = r.func))) }

/-! ### Monitoring (R368, R370, R371) -/

/-- A position source's value in its own units, where it is valid now. -/
def State.posOf (s : State) (axis : Nat) : PosSrc → Option Int
  | .conn c p =>
    let x := s.conn c
    if x.lost ∨ ¬ x.started then none else x.poss[p]?
  | .feedback => let x := s.axis axis; if x.fbNow = [] ∨ ¬ x.posValid then none else some x.fbPos
  | .channel k => let c := Tab.get {} s.eiu k; if c.sValid then some c.sPos else none

/-- A breach: logged, and its reaction applied and latched (R371). -/
def State.breach (s : State) (k : Nat) (m : MonAxis) (f : SfFunc) : State :=
  let r := s.mon k
  if r.breach.contains f then s
  else
    let s1 := s.setMon k { r with breach := f :: r.breach }
    let s2 := (s1.sfiLast 0x1103 m.axis).sfiEvent 0x1103 [.h m.axis, .h f.code]
    s2.demand { axis := m.axis, func := s2.reactFunc m.axis, src := .breach }

/-- The SLS limit selected for an axis: the smallest of those demanded. -/
def State.slsLimit (s : State) (m : MonAxis) : Option Nat :=
  (s.sfi.demands.filter (fun d => decide (d.axis = m.axis ∧ d.func = .sls))).foldl (fun (best : Option Nat) d =>
    let v := m.sls.getD d.sls 0
    match best with
    | none => some v
    | some b => some (min b v)) none

/-- Positions and speed of a monitored axis at S (R368). -/
def State.evalPos (s : State) (k : Nat) (m : MonAxis) : State :=
  let r := s.mon k
  match s.posOf m.axis m.p1, s.posOf m.axis m.p2 with
  | some a, some b =>
    let p := scalePos m.n1 m.d1 a
    let far := decide ((m.disc : Int) * 2 ^ 32 < (posDiff p (scalePos m.n2 m.d2 b)).natAbs)
    let hist := ((s.cyc.n, p) :: r.hist).take 65
    s.setMon k { r with hist := hist, pos := p, v := safeSpeed m.nV (s.rd Reg.cycPeriod).toNat hist, valid := true
                        discRun := if far then r.discRun + 1 else 0, missRun := 0 }
  | _, _ => s.setMon k { r with valid := false, discRun := 0, missRun := r.missRun + 1 }

/-- A stop of a monitored axis counts the S at or below V_ZERO, and ends at N_ZERO of them in a row. -/
def StopRun.atS (m : MonAxis) (v : Int) (x : StopRun) : StopRun :=
  if x.axis = m.axis ∧ x.done = false ∧ x.late = false ∧ (x.func = .ss1r ∨ x.func = .ss2) then
    let run := if v.natAbs ≤ m.vZero then x.zeroRun + 1 else 0
    { x with zeroRun := run, done := decide (m.nZero ≤ run) }
  else x

/-- Judges the functions of a monitored axis at S (R370). -/
def State.judgeMon (s : State) (k : Nat) (m : MonAxis) : State :=
  let r := s.mon k
  if r.valid = false then s
  else
    let fast := match s.slsLimit m with
      | some l => decide (l < r.v.natAbs)
      | none => false
    let s1 := s.updSfi (fun x => { x with stops := x.stops.map (StopRun.atS m r.v) })
    let r1 : MonRt := { r with
      slsRun := if fast then r.slsRun + 1 else 0
      sdiPos := r.sdiPos.map (fun x => if decide (0 < posDiff r.pos x) = m.dirPos then r.pos else x)
      sosPos := if s1.sosNow m.axis then some (r.sosPos.getD r.pos) else none }
    let s2 := s1.setMon k r1
    (s2.breaches k m).foldl (fun st f => st.breach k m f) s2

/-! ### Island fault (R363) -/

/-- The island enters FAULT: permits 0, outputs off, brakes engaged, and the controller enters SAFE. -/
def State.islandFault (s : State) (cause : Nat) : State :=
  if s.sfi.st = .fault then s
  else
    let s1 := s.updSfi (fun x => { x with st := .fault, cause := cause })
    let s2 := (s1.sfiLast 0x1101 0).sfiPermits
    (s2.sfiEvent 0x1101 [.h cause]).enterSafe 0x1101

/-! ### Received copies (R374, R375) -/

/-- A copy of a PDU for connection `c` is judged. -/
def State.sfiCopy (s : State) (c : Nat) (d : ConnDecl) (b : List Byte) : State :=
  let x := s.conn c
  match judgePdu d s.safety.seqWin (!x.started || x.lost) x.last b with
  | .crc => s.sfiCount 0
  | .param => s.sfiCount 0
  | .second => s
  | .seqErr n =>
    let s1 := (s.setConn c { x with seqRun := true }).sfiCount 1
    if x.seqRun then s1 else (s1.sfiLast 0x1107 c).sfiEvent 0x1107 [.h c, .h n]
  | .ok q =>
    let w := leAt b 8 4
    let m := (b.length - 16) / 8
    let x1 : Conn := { x with
      started := true, lost := false, last := q, okAt := s.now, seqRun := false,
      inputs := w % 2 ^ 24, ack := w / 2 ^ 24 % 16, nodeSf := w.testBit 28,
      poss := (List.range m).map (fun i => sgn 64 (leAt b (12 + 8 * i) 8)) }
    let s1 := s.setConn c x1
    if x.lost then s1.sfiEvent 0x1106 [.h c] else s1

/-! ### The host view (R388, R389) -/

/-- Active functions of a monitored axis in the bit order of SFI_MONk_STAT: SS1, SS2, SOS, SLS, SLP, SDI. -/
def State.monActive (s : State) (a : Nat) : List Bool :=
  let on := fun (f : SfFunc) => s.sfi.demands.any (fun d => decide (d.axis = a ∧ d.func = f))
  [on .ss1t || on .ss1r, on .ss2, s.sosNow a, on .sls, on .slp, on .sdi]

/-- The SLS limit selected: that of the smallest limit demanded (R370). -/
def State.slsSel (s : State) (m : MonAxis) : Nat :=
  ((s.sfi.demands.find? (fun d => decide (d.axis = m.axis ∧ d.func = .sls ∧ some (m.sls.getD d.sls 0) = s.slsLimit m))).map (·.sls)).getD 0

/-- Latched breaches in the same order. -/
def MonRt.breachBits (r : MonRt) : List Bool :=
  [r.breach.contains .ss1t || r.breach.contains .ss1r, r.breach.contains .ss2, r.breach.contains .sos,
    r.breach.contains .sls, r.breach.contains .slp, r.breach.contains .sdi]

/-- A latched item awaits SAFE_RESET. -/
def State.resetNeeded (s : State) : Bool :=
  decide (s.sfi.demands ≠ []) || s.sfi.ins.any (fun p => p.2.disc) || s.sfi.outs.any (fun p => p.2.cutOff)

/-- SFI_STATUS. -/
def State.sfiStatusWord (s : State) : Word :=
  w32 (s.sfi.st.code * 2 ^ 30 + b2n s.sfi.scaOk * 2 ^ 29 + b2n s.sfi.scbOk * 2 ^ 28 + b2n s.resetNeeded * 2 ^ 27
    + b2n s.sfi.stuck * 2 ^ 26 + b2n (s.safety.present && s.safety.startReset) * 2 ^ 25 + s.safety.mons.length % 128 * 65536
    + s.sfi.cause % 256)

/-- Events and the host view are copied from SCA at a boundary (R388). -/
def State.sfiPublish (s : State) : State :=
  let ins := fun (f : Nat → Bool) => (List.range 8).map f
  let inW := bitsWord (ins (fun k => (s.safeIn k).a) ++ ins (fun k => (s.safeIn k).b)
    ++ ins (fun k => (s.safeInDecl k).used && SafeIn.demands (s.safeInDecl k) (s.safeInAtS k)) ++ ins (fun k => (s.safeIn k).disc))
  let out := fun (f : SafeOut → Bool) => (List.range 4).map (fun k => f (Tab.get {} s.sfi.outs k))
  let outW := bitsWord (out (·.on) ++ out (·.on) ++ out (·.rbSeen))
  let s1 := ((s.wr Reg.sfiStatus s.sfiStatusWord).wr Reg.sfiInState inW).wr Reg.sfiOutState outW
  let s2 := (List.range 8).foldl (fun st m =>
    st.wr (Reg.sfiStoMap m) (bitsWord ((List.range 32).map (fun i => !s.sfi.permit.contains (32 * m + i))))) s1
  let s3 := (List.range 7).foldl (fun st k => st.wr (Reg.sfiCrcErrCnt + 4 * k) (w32 (s.sfi.cnts.getD k 0))) s2
  let s4 := (s3.wr Reg.sfiLastFault s.sfi.lastFault).wr Reg.sfiParamId (if s.safety.present then s.safety.crc else 0)
  let s5 := (List.range 16).foldl (fun st m =>
    st.wr (Reg.sfiConnLostMap m) (bitsWord ((List.range 32).map (fun i => (s.conn (32 * m + i)).lost)))) s4
  let s6 := s.sfi.evq.foldl (fun st e => st.event e.1 e.2) (s5.updSfi (fun x => { x with evq := [] }))
  s.safety.mons.zipIdx.foldl (fun st p =>
    let r := s.mon p.2
    let w := 2 ^ 31 + b2n (r.discNow p.1) * 2 ^ 30 + (bitsWord (s.monActive p.1.axis)).toNat * 2 ^ 24
      + s.slsSel p.1 % 4 * 2 ^ 22
      + (bitsWord r.breachBits).toNat * 65536 + p.1.axis % 256
    (st.wr (Reg.sfiMonStat p.2) (w32 w)).wr (Reg.sfiMonSpeed p.2) (wInt (satS 32 r.v))) s6

end Sys2Proof.Machine
end

