-- ==== Sys2Proof/Machine/HealthOps.lean ====
section
/-! DEFINITION. Machine/HealthOps.lean: corrected and uncorrectable errors of on-chip stores and of DRAM (R505, R506),
supervisor cores that leave service (R504), and injected memory errors (R515). -/

namespace Sys2Proof.Machine

/-- Changes HLM. -/
def State.updHlm (s : State) (f : Hlm → Hlm) : State := { s with hlm := f s.hlm }

/-- Spare rows left in the macro of a unit code. -/
def State.rowsLeft (s : State) (unit : Nat) : Nat := Tab.get (Config.spareRows unit) s.hlm.rowsLeft unit

/-- A row is repaired from a spare row of its macro; with none left it is not, and the kind is exhausted (R505, R500). -/
def State.rowRepair (s : State) (unit row : Nat) : State :=
  let left := s.rowsLeft unit
  if left = 0 then s.exhaust 3
  else
    let s1 := s.updHlm (fun h => { h with
      rowsLeft := Tab.put h.rowsLeft unit (left - 1), rowErrs := Tab.del h.rowErrs (unit * 65536 + row) })
    let s2 := (s1.count Reg.hlmRowRepairCnt).event 0x1705 [.h unit, .h row]
    let s3 := s2.wrFld Reg.hlmRows 31 16 (s2.rdFld Reg.hlmRows 31 16 + 1)
    let poorest := decide (s3.rdFld Reg.hlmRows 31 16 = 1) || decide (left - 1 ≤ s3.rdFld Reg.hlmRows 7 0)
    let s4 := if poorest then (s3.wrFld Reg.hlmRows 15 8 unit).wrFld Reg.hlmRows 7 0 (left - 1) else s3
    if left = 1 then s4.exhaust 3 else if left = 2 then s4.lowLevel 3 1 else s4

/-- A corrected error in a row (R505). An injected one does not count toward ROW_THRESH (R513). -/
def State.sramCe (s : State) (unit row : Nat) (injected : Bool) : State :=
  let s1 := (s.count Reg.hlmCeCnt).updHlm (fun h => { h with ceReport := h.ceReport + 1 })
  if injected then s1
  else
    let k := unit * 65536 + row
    let n := Tab.get 0 s1.hlm.rowErrs k + 1
    let s2 := s1.updHlm (fun h => { h with rowErrs := Tab.set 0 h.rowErrs k n })
    if s2.rdFld Reg.hlmCfg 3 0 ≤ n then s2.rowRepair unit row else s2

/-- An uncorrectable error is recorded (R505, R506): MEM_UE and HLM_UE_CNT. -/
def State.memUe (s : State) (unit addr : Nat) : State :=
  ((s.updHlm (fun h => { h with ueTotal := h.ueTotal + 1 })).count Reg.hlmUeCnt).event 0x1707 [.h unit, .w addr]

/-- The items that core `c` prepares return to the head of their ready lists, to be prepared again from the start (R504). -/
def State.coreItemsBack (s : State) (c : Nat) : State :=
  let mine := fun (t : Taken) => match t.stage with
    | .preparing k _ => decide (k = c)
    | _ => false
  { s with wks := { s.wks with taken :=
    (s.wks.taken.filter mine).map (fun t => { t with stage := .ready }) ++ s.wks.taken.filter (fun t => !mine t) } }

/-- Core `c` leaves service: its items return to their ready lists and a replacement is requested (R504). -/
def State.coreLeave (s : State) (c cause : Nat) : State :=
  let x := s.core c
  if x.st ≠ .inService then s
  else
    let s1 := s.setCore c { x with st := .test, loading := false, since := s.cyc.n }
    let s3 := ((s1.coreItemsBack c).event 0x1702 [.h 2, .h c, .h cause]).requestSpare 2 c false
    if s3.coresIn .inService = [] then s3.enterFault 0x1702 else s3

/-- The further effect of an uncorrectable error, by store (R505). `who` is the engine or core whose memory it is. -/
def State.ueEffect (s : State) (unit who : Nat) : State :=
  match unit with
  | 0 =>
    let x := s.eng who
    if x.job.isSome then s.engineFault who 3 x.pc
    else if x.st = .inService then
      let s1 := ((s.wrBit Reg.ceaFaultMap who true).count Reg.ceaFaultCnt).wr Reg.ceaLastFault
        (w32 (who % 32 * 2 ^ 27 + 3 * 2 ^ 24 + x.lastAxis % 256 * 65536 + x.pc % 16384))
      (s1.event 0x0C10 [.h who, .h 3, .h x.pc, .h x.lastAxis]).engineLeave who 1
    else s
  | 1 => (s.actDrop 6).enterFault 0x1707
  | 2 => s.coreLeave who 3
  | 3 => (s.actDrop 6).enterFault 0x1707
  | 4 => s.islandFault 6
  | 5 => s.islandFault 6
  | 6 => (s.actDrop 6).enterFault 0x1707
  | 9 =>
    if s.glb.st = .boot ∨ s.glb.st = .wipe ∨ s.glb.st = .load ∨ s.glb.st = .verify then
      let step := match s.glb.st with
        | .boot => 2
        | .wipe => 3
        | _ => 4
      (s.wrFld Reg.lcuBoot 27 24 step).enterFault 0x1707
    else s
  | _ => s

/-- An uncorrectable error in an on-chip store: recorded, its row repaired, and its further effect (R505). -/
def State.sramUe (s : State) (unit row addr who : Nat) : State :=
  ((s.memUe unit addr).rowRepair unit row).ueEffect unit who

/-- A read of an on-chip store meets whatever error an injection slot makes of it (R515). An injected error strikes a
word whose address the spec does not give: a free value. -/
def State.touch (s : State) (unit who : Nat) : State :=
  let r1 := s.inject 1 unit
  let s1 := if r1.1 then r1.2.sramCe unit 0 true else r1.2
  let r2 := s1.inject 2 unit
  if r2.1 then
    let f := r2.2.free
    let a := f.1.toNat % 2 ^ 32
    (f.2.memUe unit a).ueEffect unit who
  else r2.2

/-- A DRAM page is retired to the pool (R506). -/
def State.pageRetire (s : State) (page : Nat) : State :=
  let left := s.rdFld Reg.hlmPages 15 0
  if s.hlm.retired.contains page then s
  else if left = 0 then s.exhaust 4
  else
    let s1 := s.updHlm (fun h => { h with retired := page :: h.retired, pageErrs := Tab.del h.pageErrs page })
    let s2 := (s1.wrFld Reg.hlmPages 31 16 (s.rdFld Reg.hlmPages 31 16 + 1)).wrFld Reg.hlmPages 15 0 (left - 1)
    let s3 := (s2.count Reg.hlmPageRetireCnt).event 0x1706 [.w (page * 4096)]
    if left = 1 then s3.exhaust 4 else if left = 1025 then s3.lowLevel 4 1024 else s3

/-- A corrected error of DRAM (R506); an injected one does not count toward PAGE_THRESH (R513). -/
def State.dramCe (s : State) (addr : Nat) (injected : Bool) : State :=
  let s1 := (s.count Reg.hlmCeCnt).updHlm (fun h => { h with ceReport := h.ceReport + 1 })
  if injected then s1
  else
    let p := addr / 4096
    let n := Tab.get 0 s1.hlm.pageErrs p + 1
    let s2 := s1.updHlm (fun h => { h with pageErrs := Tab.set 0 h.pageErrs p n })
    if s2.rdFld Reg.hlmCfg 7 4 ≤ n then s2.pageRetire p else s2

/-- An uncorrectable error of DRAM: the word is marked, the page retired, MEM_UE logged once a word (R506). Injection never uses up a
page (R513). -/
def State.dramUe (s : State) (addr : Nat) (injected : Bool) : State :=
  let w := addr / 8 * 8
  if s.hlm.badWords.contains w then s
  else
    let s1 := (s.updHlm (fun h => { h with badWords := w :: h.badWords })).memUe 8 w
    if injected then s1 else s1.pageRetire (addr / 4096)

/-- A read of DRAM from `a`: whether a word of it is uncorrectable, and the state after injected errors (R506, R515). -/
def State.touchDram (s : State) (a n : Nat) : Bool × State :=
  let r1 := s.inject 3 0
  let s1 := if r1.1 then r1.2.dramCe a true else r1.2
  let r2 := s1.inject 4 0
  let s2 := if r2.1 then r2.2.dramUe a true else r2.2
  (s2.hlm.badWords.any (fun w => decide (a / 8 * 8 ≤ w) && decide (w < a + n)), s2)

/-- Words of DRAM that are written again are good again (R506). -/
def State.dramFresh (s : State) (a n : Nat) : State :=
  s.updHlm (fun h => { h with badWords := h.badWords.filter (fun w => !(decide (a ≤ w) && decide (w + 8 ≤ a + n))) })

end Sys2Proof.Machine
end

