-- ==== Sys2Proof/Machine/WorkOps.lean ====
section
/-! DEFINITION. Machine/WorkOps.lean: rings as they stand in the register file (R457 to R461), completions (R467), mailbox
buffers and acknowledges (R444, R445) and the doorbells (R448). -/

namespace Sys2Proof.Machine

/-! ### Doorbells and mailboxes -/

/-- The levels of sources 0x120 to 0x123 follow DB_OUT and its masks. -/
def State.dbOutLevels (s : State) : State :=
  forAll (List.range 4) (fun k st =>
    st.level (0x120 + k) (decide (st.rd Reg.mbxDbOut &&& st.rd (Reg.mbxDbOutMask k) ≠ 0))) s

/-- Puts bits of DB_OUT under a mask. -/
def State.dbOutPut (s : State) (mask : Word) (v : Bool) : State :=
  let w := s.rd Reg.mbxDbOut
  (s.wr Reg.mbxDbOut (if v then w ||| mask else w &&& ~~~mask)).dbOutLevels

/-- A mailbox channel. -/
def State.mbChan (s : State) (c : Nat) : MbChan := Tab.get {} s.mbx.chans c
/-- Puts a mailbox channel. -/
def State.setMbChan (s : State) (c : Nat) (x : MbChan) : State :=
  { s with mbx := { s.mbx with chans := Tab.set {} s.mbx.chans c x } }

/-- The 256 bytes of a channel's buffer. -/
def State.mbBuf (s : State) (c : Nat) : List Byte := wordBytes ((List.range 64).map (fun m => s.rd (Reg.mbxChBuf c m)))

/-- Puts bytes into a channel's buffer from byte 0; the bytes beyond keep their contents. -/
def State.setMbBuf (s : State) (c : Nat) (bs : List Byte) : State :=
  let all := bs.take 256 ++ (s.mbBuf c).drop bs.length
  (bytesWords 64 all).zipIdx.foldl (fun st p => st.wr (Reg.mbxChBuf c p.2) p.1) s

/-- A reply: OP, 0, LEN of the body, body (R445). -/
def mbReply (op : Nat) (body : List Byte) : List Byte := leBytes 1 op ++ [0] ++ leBytes 2 body.length ++ body

/-- The receiver finishes: BUSY to ACKED (R444). -/
def State.mbAck (s : State) (c code : Nat) (reply : List Byte) : State :=
  let x := s.mbChan c
  if x.st = .busy then
    let s1 := (s.setMbBuf c reply).setMbChan c { x with st := .acked, ackValid := true, ackLen := min reply.length 256,
                                                        ackCode := code, waitItem := false, waitSend := false }
    s1.dbOutPut (w32 (2 ^ c)) true
  else s

/-! ### Rings -/

/-- ROLE of a ring. -/
def State.ringRole (s : State) (r : Nat) : Nat := s.rdFld (Reg.wksRingCfg r) 31 29
/-- SIZE of a ring. -/
def State.ringSize (s : State) (r : Nat) : Nat := 2 ^ s.rdFld (Reg.wksRingCfg r) 28 24
/-- The completion ring of a COMMAND ring. -/
def State.ringPair (s : State) (r : Nat) : Nat := s.rdFld (Reg.wksRingCfg r) 23 20
/-- Entries held. -/
def State.ringFill (s : State) (r : Nat) : Nat := (s.rd (Reg.wksRingProd r) - s.rd (Reg.wksRingCons r)).toNat
/-- Address of entry `i`. -/
def State.ringAddr (s : State) (r i : Nat) : Nat :=
  (s.rd64 (Reg.wksRingBaseLo r) (Reg.wksRingBaseHi r)).toNat + 64 * (i % s.ringSize r)

/-- FILL and the level of source 0x1D0 + r follow the indices (R461). -/
def State.ringRefresh (s : State) (r : Nat) : State :=
  let f := s.ringFill r
  let th := s.rdFld (Reg.wksRingThresh r) 20 0
  let n := if s.ringRole r = 1 then s.ringSize r - f else f
  (s.wrFld (Reg.wksRingStat r) 20 0 f).level (0x1D0 + r) (decide (th ≠ 0 ∧ s.ringRole r ≠ 0 ∧ th ≤ n))

/-- The ring has room for `n` more entries. -/
def State.ringRoom (s : State) (r n : Nat) : Bool := decide (s.ringRole r ≠ 0 ∧ s.ringFill r + n ≤ s.ringSize r)

/-- The block writes one entry into a ring it produces and advances PROD (R458). -/
def State.ringPut (s : State) (r : Nat) (bs : List Byte) : State :=
  let p := s.rd (Reg.wksRingProd r)
  ((s.dramWrite (s.ringAddr r p.toNat) (padTo 64 bs)).wr (Reg.wksRingProd r) (p + 1)).ringRefresh r

/-- A message placed in ring 13 in its entries (R472): false where they do not fit. -/
def State.ringMsg (s : State) (kind sender : Nat) (payload : List Byte) : Bool × State :=
  let len := payload.length
  let nent := if 48 < len then 1 + (len - 48 + 63) / 64 else 1
  if s.ringRoom 13 nent then
    let head := leBytes 1 kind ++ leBytes 1 (sender % 64) ++ leBytes 2 len ++ leBytes 1 nent ++ [0, 0, 0]
      ++ leBytes 8 s.cycleNo ++ payload.take 48
    let rest := payload.drop 48
    (true, forAll (List.range (nent - 1)) (fun k st => st.ringPut 13 ((rest.drop (64 * k)).take 64)) (s.ringPut 13 head))
  else (false, s)

/-! ### Completions (R467) -/

/-- The completion entry of an item. -/
def entryOf (t : Taken) (status : Nat) (interim : Bool) (handle : Word) (cycle : Nat) (result : List Byte) : List Byte :=
  leBytes 1 t.item.opcode ++ leBytes 1 status ++ leBytes 2 t.item.tag ++ leBytes 4 handle.toNat
    ++ leBytes 1 (b2n interim + 2 * b2n t.dueLate) ++ leBytes 1 t.item.origin ++ [0, 0] ++ leBytes 4 t.item.idx
    ++ leBytes 8 cycle ++ padTo 40 result

/-- A completion entry is made on chip. An item forwarded by the lit twin has none (R339, R473), and an interim one of a
mailbox item is not acknowledged (R445). -/
def State.postEntry (s : State) (t : Taken) (status : Nat) (interim : Bool) (handle : Word) (cycle : Nat)
    (result : List Byte) : State :=
  let o := t.item.origin
  if 0x100 ≤ o ∨ (0x80 ≤ o ∧ interim) then s
  else
    let e : WaitEntry := { ring := if 0x80 ≤ o then o else s.ringPair o,
                           bytes := entryOf t status interim handle cycle result, seq := t.seq, flow := t.item.flow,
                           status := status }
    { s with wks := { s.wks with waiting := s.wks.waiting ++ [e] } }

/-- An item completes: it is held no longer. -/
def State.completeX (s : State) (t : Taken) (status : Nat) (handle : Word) (cycle : Nat) (result : List Byte) : State :=
  let s1 := s.postEntry t status false handle cycle result
  let s2 : State := { s1 with wks := { s1.wks with taken := s1.wks.taken.filter (fun u => decide (u.seq ≠ t.seq)) } }
  s2.count Reg.wksItemCnt

/-- An item completes at its service boundary with nothing beside its status. -/
def State.complete (s : State) (t : Taken) (status : Nat) : State := s.completeX t status t.item.handle s.cyc.n []

/-- An item completes because the handle `h` fails a check of R15: a refusal of an axis handle is counted (R54). -/
def State.completeHandle (s : State) (t : Taken) (h : Word) (status cycle : Nat) : State :=
  let s1 := s.completeX t status t.item.handle cycle []
  if hType h = 1 then s1.count Reg.axmHandleErrCnt else s1

/-- The taken item of a take order. -/
def State.takenOf (s : State) (seq : Nat) : Option Taken := s.wks.taken.find? (fun t => decide (t.seq = seq))

/-- Completes the item of a take order, where it is still held. -/
def State.completeSeq (s : State) (seq status : Nat) : State :=
  match s.takenOf seq with
  | some t => s.complete t status
  | none => s

/-- Changes the stage of a taken item. -/
def State.setStage (s : State) (seq : Nat) (st : Stage) : State :=
  { s with wks := { s.wks with taken := s.wks.taken.map (fun t => if t.seq = seq then { t with stage := st } else t) } }

/-- Posts the interim completion of an item whose final one is held (R59). -/
def State.interim (s : State) (seq status : Nat) : State :=
  match s.takenOf seq with
  | some t => s.postEntry t status true t.item.handle s.cyc.n []
  | none => s

end Sys2Proof.Machine
end

