-- ==== Sys2Proof/Machine/DioOps.lean ====
section
/-! DEFINITION. Machine/DioOps.lean: the fast inputs and outputs DIO (R94 to R109): levels, masks, rates, limit latches and
the edges of outputs. -/

namespace Sys2Proof.Machine

/-! ### Inputs -/

/-- A fast input. -/
def State.fin (s : State) (k : Nat) : FastIn := Tab.get {} s.dio.ins k

/-- The effective level (R96, R98). -/
def FastIn.eff (x : FastIn) : Bool := x.filt || x.forced

/-- Puts a fast input, with the words that show it. -/
def State.setFin (s : State) (k : Nat) (x : FastIn) : State :=
  let s1 : State := { s with dio := { s.dio with ins := Tab.set {} s.dio.ins k x } }
  (((s1.wrBit Reg.dioInLevel k x.filt).wrBit Reg.dioInLevel (16 + k) x.eff).wrBit Reg.dioInMask k x.masked).wrBit
    Reg.dioLimLatch k x.latched

/-- ROLE of an input. -/
def State.finRole (s : State) (k : Nat) : Nat := s.rdFld (Reg.dioInCfg k) 19 16
/-- AXIS of an input. -/
def State.finAxis (s : State) (k : Nat) : Nat := s.rdFld (Reg.dioInCfg k) 7 0
/-- FILT times its unit. -/
def State.finFilt (s : State) (k : Nat) : Nat :=
  s.rdFld (Reg.dioInCfg k) 29 20 * (if s.rdBit (Reg.dioInCfg k) 30 then usU else clkU)
/-- WIN. -/
def State.finWin (s : State) (k : Nat) : Nat := s.rdFld (Reg.dioInRate k) 15 8 * msU

/-- The inputs with a role for an axis: 1 LIMIT_POS, 2 LIMIT_NEG, 3 HOME. -/
def State.finsOf (s : State) (role a : Nat) : List Nat :=
  (List.range 16).filter (fun k => decide (s.finRole k = role ∧ s.finAxis k = a))

/-- A transition is accepted: its level, the window of transitions, overrate and chatter (R95, R98, R99). Answers whether edge
consumers receive it (R97, R98): an edge in the sample in which the mask is applied is still delivered (R106). The count in
window of OVERRATE and CHATTER is a 32-bit argument (DEDUCED, log entry 34). -/
def State.finAccept (s : State) (k : Nat) (lvl : Bool) : State × Bool :=
  let x := s.fin k
  let te := s.now - s.finFilt k
  let win := (s.now :: x.trans).filter (fun t => decide (s.now < t + s.finWin k))
  let n := win.length
  let ovr := decide (s.rdFld (Reg.dioInRate k) 7 0 < n)
  let role := s.finRole k
  let x1 : FastIn := { x with filt := lvl, since := te, acc := s.now, trans := win.take 256 }
  let gen := decide (role = 0)
  let x2 : FastIn := { x1 with withheld := gen && ovr, forced := x1.forced || (!gen && ovr) }
  let x3 : FastIn := if x2.eff ∧ ¬ x.eff then { x2 with actSince := s.now } else if x.eff ∧ ¬ x2.eff then { x2 with offAt := s.now } else x2
  let s1 := s.setFin k x3
  let s2 := if gen ∧ ovr ∧ ¬ x.withheld then
      ((s1.wrBit Reg.dioInRateFlags k true).count Reg.dioOverrateCnt).event 0x0903 [.h k, .w n]
    else if ovr ∧ ¬ gen ∧ ¬ x.forced then
      (((s1.wrBit Reg.dioInRateFlags (16 + k) true).count Reg.dioChatterCnt).axNote (s.finAxis k) 0x0904).event 0x0904
        [.h k, .w n, .h (s.finAxis k)]
    else s1
  (s2, !x3.withheld && (!x.masked || decide (x.maskedAt = s.now)))

/-- INPUT_STUCK's effect (R97). -/
def State.finStuck (s : State) (k : Nat) : State :=
  let s1 := s.setFin k { s.fin k with stuck := true, masked := true, maskedAt := s.now }
  ((s1.wrBit Reg.dioInStuck k true).count Reg.dioStuckCnt).event 0x0901 [.h k, .h (s.finRole k)]

/-- A sample of an input that detector 0x18 makes fail (R515). -/
def State.finInject (s : State) (k : Nat) : State :=
  let r := s.inject 0x18 k
  if r.1 ∧ ¬ (s.fin k).stuck then r.2.finStuck k else r.2

/-- INPUT_STUCK: the effective level has been active for longer than T_STUCK (R97, R99): raised in the sample after the one in which
T_STUCK expires, so that a release accepted in that one wins (R106). -/
def execInputStuck (k : Nat) (s : State) : Host.Outcome State Fault Refusal :=
  let x := s.fin k
  let t := s.rdFld (Reg.dioInTime k) 31 16
  if x.eff = false ∨ x.stuck ∨ t = 0 ∨ s.now < x.actSince + t * msU + clkU then .next s
  else .next (s.finStuck k)

/-- INPUT_RELEASED: the filtered level has been inactive for T_RELEASE since the later of the mask and the level's fall (R97).
The time masked is truncated to ms (DESIGN CHOICE, log entry 33). -/
def execInputReleased (k : Nat) (s : State) : Host.Outcome State Fault Refusal :=
  let x := s.fin k
  let t := s.rdFld (Reg.dioInTime k) 15 0
  if x.masked = false ∨ x.filt ∨ s.now < max x.maskedAt x.acc + t * msU then .next s
  else
    let s1 := s.setFin k { x with stuck := false, masked := false }
    .next (s1.event 0x0902 [.h k, .w ((s.now - x.maskedAt) / msU)])

/-- CHATTER_RELEASE: an input forced active returns to its filtered level after a whole WIN inactive without an accepted
transition (R98). -/
def execChatterRelease (k : Nat) (s : State) : Host.Outcome State Fault Refusal :=
  let x := s.fin k
  if x.forced = false ∨ x.filt ∨ s.now < x.acc + s.finWin k then .next s
  else .next (s.setFin k { x with forced := false, offAt := s.now })

/-! ### Limit latches (R100, R101) -/

/-- The axis's latch of a side: 0 positive, 1 negative. -/
def State.limLatched (s : State) (a side : Nat) : Bool :=
  if side = 0 then (s.axis a).limPos else (s.axis a).limNeg

/-- Shows in the axis's STATUS whether some limit input of a side is latched. -/
def State.limShow (s : State) (k : Nat) : State :=
  let on := (s.finsOf (s.finRole k) (s.finAxis k)).any (fun i => (s.fin i).latched)
  s.updAxis (s.finAxis k) (fun a => if s.finRole k = 1 then { a with limPos := on } else { a with limNeg := on })

/-- A limit input is read at S: an active level trips the latch (R100). -/
def State.limSample (s : State) (k : Nat) : State :=
  let x := s.fin k
  let x1 : FastIn := { x with effS := x.eff, tripDue := false }
  if (s.finRole k = 1 ∨ s.finRole k = 2) ∧ x.eff = true ∧ x.latched = false then
    (s.setFin k { x1 with latched := true, tripDue := true, tripLog := true, tripT := x.since }).limShow k
  else s.setFin k x1

/-- The trip position `p`, of the S of the present cycle, is latched and LIMIT_TRIP logged with the stamp of that S (R100, R107). -/
def State.limTrip (s : State) (k : Nat) (p : Int) : State :=
  let x := s.fin k
  if x.tripLog then
    let a := s.finAxis k
    let s1 := s.setFin k { x with trip := p, tripLog := false }
    (s1.axNote a 0x0905).eventAt 0x0905 [.h k, .h a, .i (p / 2 ^ 32), .w (x.tripT / nsU % 2 ^ 32)] 0
  else s

/-- The feedback of an axis at S is in: the trips of its limit inputs take it. -/
def State.limTrips (s : State) (a : Nat) (p : Int) : State :=
  forAll (s.finsOf 1 a ++ s.finsOf 2 a) (fun k st => st.limTrip k p) s

/-- The conditions of R101 at the S of the ending cycle, at which the axis was at `p`: the level inactive, and the axis back off the
switch; without POS_VALID, the level inactive for one whole WIN. -/
def State.limJudge (s : State) (k : Nat) (p : Int) : State :=
  let x := s.fin k
  let h : Int := (s.rdFld (Reg.dioInHyst k) 30 0 : Nat) * 2 ^ 32
  let off :=
    if (s.axis (s.finAxis k)).posValid then
      let d := modDiff (dInt p) (dInt x.trip)
      if s.finRole k = 1 then decide (d ≤ -h) else decide (h ≤ d)
    else decide (x.offAt + s.finWin k ≤ s.sampleAt 0)
  s.setFin k { x with clearDue := x.latched && !x.effS && off }

/-- The latch clears at the boundary (R101). -/
def State.limClear (s : State) (k : Nat) : State :=
  let x := s.fin k
  let a := s.finAxis k
  if x.clearDue then
    ((s.setFin k { x with latched := false, tripDue := false, clearDue := false }).limShow k |>.axNote a 0x0906).event 0x0906 [.h k, .h a]
  else s

/-! ### Outputs (R102 to R105) -/

/-- A fast output. -/
def State.fout (s : State) (k : Nat) : FastOut := Tab.get {} s.dio.outs k
/-- Puts a fast output. -/
def State.setFout (s : State) (k : Nat) (x : FastOut) : State :=
  { s with dio := { s.dio with outs := Tab.set {} s.dio.outs k x } }
/-- MODE of an output. -/
def State.foutMode (s : State) (k : Nat) : Nat := s.rdFld (Reg.dioOutCfg k) 31 30

/-- The role or ACT gates the driver off (R105). -/
def State.gatedOff (s : State) : Bool :=
  match s.glb.role with
  | .lit => !s.twu.act
  | .alone => s.rdBit Reg.twuCfg 31 && !s.twu.act
  | _ => true

/-- Whether the table of R105 gives FAULT_LEVEL. -/
def State.foutFault (s : State) (k : Nat) : Bool :=
  decide (s.glb.st ≠ .run ∧ s.glb.st ≠ .degraded) || s.foutFollow k

/-- A level at the driver of an output: open-drain releases for high (R102). -/
def State.foutDriver (s : State) (k : Nat) (lvl : Bool) : Bool × Bool := (!(s.rdBit (Reg.dioOutCfg k) 29 && lvl), lvl)

/-- Driven or not, and the level, of an output (R105). -/
def State.foutPin (s : State) (k : Nat) : Bool × Bool :=
  let x := s.fout k
  if s.cfl.applied = false ∨ s.foutMode k = 0 ∨ s.gatedOff then (false, false)
  else if s.foutFault k then
    match s.rdFld (Reg.dioOutCfg k) 28 27 with
    | 0 => s.foutDriver k false
    | 1 => s.foutDriver k true
    | 2 => s.foutDriver k (s.glb.ranOnce && x.drv)
    | _ => (false, false)
  else s.foutDriver k x.level

/-- DIO_OUT_STATE. -/
def State.outStateWord (s : State) : Word :=
  bitsWord ((List.range 16).map (fun k => (s.foutPin k).2) ++ (List.range 16).map (fun k => (s.foutPin k).1))

/-- The mode sets the level of an output. -/
def State.foutDrive (s : State) (k : Nat) (lvl : Bool) : State :=
  let x := s.fout k
  let x1 : FastOut := { x with level := lvl }
  s.setFout k (if s.foutFault k then x1 else { x1 with drv := lvl })

/-- An edge reaches an output's queue: answers whether it was refused because the queue is full (R104). An edge that
R105 discards leaves no trace: every edge in SAFE or FAULT, and one scheduled for the axis that the output follows while that is
in FAULT or STO. -/
def State.foutEdge (s : State) (k : Nat) (e : OutEdge) : State × Bool :=
  if s.glb.st = .safe ∨ s.glb.st = .fault ∨ (s.foutFollow k = true ∧ e.axis = some (s.rdFld (Reg.dioOutCfg k) 23 16)) then (s, false)
  else
    let r := queueEdge s.now e (s.fout k)
    if r.full then ((s.count Reg.dioOutQfullCnt).event 0x0908 [.h k], true)
    else
      let s1 := (s.setFout k r.out).countBy Reg.dioOutShiftCnt r.moved
      match r.late with
      | some d => ((s1.count Reg.dioOutLateCnt).event 0x0907 [.h k, .w d], false)
      | none => (s1, false)

/-- HOST levels of outputs in MODE 1 (R102). -/
def State.foutHost (s : State) (v : Word) (lvl : Bool) : State :=
  forAll (List.range 16) (fun k st => if bit v k ∧ st.foutMode k = 1 then st.foutDrive k lvl else st) s

/-- DIO_OUT_SET: host-mode outputs named in the word go high (R102). -/
def execDioOutSet (v : Word) (s : State) : Host.Outcome State Fault Refusal :=
  if s.hostOpen then .next (s.foutHost v true) else .next s

/-- DIO_OUT_CLR: host-mode outputs named in the word go low (R102). -/
def execDioOutClr (v : Word) (s : State) : Host.Outcome State Fault Refusal :=
  if s.hostOpen then .next (s.foutHost v false) else .next s

/-- OUTPUT_EDGE_DUE: the first edge of an output's queue is applied at its time (R103). -/
def execOutputEdgeDue (k : Nat) (s : State) : Host.Outcome State Fault Refusal :=
  let x := s.fout k
  match x.queue with
  | [] => .next s
  | e :: rest =>
    if s.now < e.t then .next s
    else .next ((s.setFout k { x with queue := rest, last := some e.t, undo := some (s.clk, x.level, x.drv) }).foutDrive k e.level)

/-- The fast outputs that follow an axis keep their last driven level, and edges scheduled for it are discarded (R105). -/
def State.foutAxisStop (s : State) (a : Nat) : State :=
  forAll (List.range 16) (fun k st =>
    if st.rdBit (Reg.dioOutCfg k) 26 = true ∧ st.rdFld (Reg.dioOutCfg k) 23 16 = a then
      let x := (st.fout k).unapply st.clk
      st.setFout k { x with drv := if st.foutFault k then x.drv else x.level, queue := x.queue.filter (fun e => decide (e.axis ≠ some a)) }
    else st) s

end Sys2Proof.Machine
end

