-- ==== Sys2Proof/Machine/ProfileOps.lean ====
section
/-! DEFINITION. Machine/ProfileOps.lean: what PGN does with the plan of an axis or a virtual master inside the block (R189 to
R213): stops and their ranks, limits, homing, setpoints, and the ends of links. -/

namespace Sys2Proof.Machine

/-- Whose plan: an axis, or the virtual master of a line angle (R211). -/
inductive Who where
  | ax (a : Nat)
  | vm (n : Nat)
deriving DecidableEq, Repr

/-- The index that events carry: bit 15 marks a virtual master (R214). -/
def Who.idx : Who → Nat
  | .ax a => a
  | .vm n => 0x8000 + n

/-- Whose plan an index names. -/
def Who.ofIdx (i : Nat) : Who := if 0x8000 ≤ i then .vm (i - 0x8000) else .ax i

/-- A line angle. -/
def State.la (s : State) (n : Nat) : LineAngle := Tab.get {} s.lau.angles n
/-- Puts a line angle. -/
def State.setLa (s : State) (n : Nat) (x : LineAngle) : State :=
  { s with lau := { s.lau with angles := Tab.set {} s.lau.angles n x } }

/-- A plan. -/
def State.pgn (s : State) : Who → Pgn
  | .ax a => (s.axis a).pgn
  | .vm n => Tab.get {} s.vms n

/-- Changes a plan. -/
def State.updPgn (s : State) (w : Who) (f : Pgn → Pgn) : State :=
  match w with
  | .ax a => s.updAxis a (fun x => { x with pgn := f x.pgn })
  | .vm n => { s with vms := Tab.set {} s.vms n (f (Tab.get {} s.vms n)) }

/-- The profile part of a description. -/
def State.pgnDesc (s : State) : Who → PgnDesc
  | .ax a => (s.desc a).pgn
  | .vm n => (s.la n).decl.pgn

/-- An event of PGN; an axis keeps its code as LAST_EVENT. -/
def State.pgnEvent (s : State) (w : Who) (code : Nat) (args : List EvArg) : State :=
  match w with
  | .ax a => s.axEvent a code args
  | .vm n => s.event code (.h (0x8000 + n) :: args)

/-! ### Stops (R199 to R202) -/

/-- QUEUE_CLEARED, for the segments that a stop or a discard takes. -/
def State.queueCleared (s : State) (w : Who) (cause : Nat) : State :=
  s.pgnEvent w 0x0B0A [.h (s.pgn w).segs.length, .h cause]

/-- PGN_LAST_STOP. -/
def State.lastStop (s : State) (w : Who) (cause : Nat) : State :=
  match w with
  | .ax a => s.wr Reg.pgnLastStop (w32 (a % 256 * 2 ^ 24 + cause % 16 * 2 ^ 20 + s.cyc.n % 65536))
  | .vm _ => s

/-- The axis follows a link. -/
def State.linked (s : State) (a : Nat) : Bool := s.lau.links.any (fun p => decide (p.1 = a))

/-- A link ends with a cause of R232; a pending change is discarded with it (R231). -/
def State.linkEnd (s : State) (a cause : Nat) : State :=
  if s.linked a then
    let s1 : State := { s with lau := { s.lau with links := Tab.del s.lau.links a } }
    ((s1.setMap (Reg.lauLinkMap 0) a false).axEvent a 0x0A05 [.h cause])
  else s

/-- A link asked for and not yet engaged is given up. -/
def State.unarmLink (s : State) (a : Nat) : State :=
  { s with lau := { s.lau with armedLinks := Tab.del s.lau.armedLinks a } }

/-- Rank of the stop in force (R200); 5 where none is. -/
def State.stopRank (s : State) (a : Nat) : Nat :=
  let x := s.axis a
  if x.st = .sto then 1
  else match x.pgn.st with
    | .safeStop => 2
    | .stopHard => 3
    | .stopRamp => 4
    | _ => 5

/-- Homing is given up (R208, R212). -/
def Pgn.dropHome (g : Pgn) : Pgn :=
  { g with hStep := 0, hReversing := 0, hMark := false, hFound := false, hRelease := none, hIdx := none }

/-- The plan waits: a THIN axis whose sequencer has not reached RUN (R198), or a lost rotor (R201). -/
def State.planHeld (s : State) (a : Nat) : Bool :=
  let x := s.axis a
  x.pgn.lost || (decide ((s.desc a).kind = .thin ∧ x.pgn.st ≠ .idle) && decide (x.thin.cs ≠ .run))

/-- Segments that have ended by the committed instant leave the queue, to be logged (R190, R195). -/
def Pgn.popEnded : Nat → Pgn → Pgn
  | 0, g => g
  | f + 1, g =>
    match g.segs with
    | [] => g
    | sg :: rest =>
      match sg.tEnd with
      | none => g
      | some e =>
        if e ≤ g.t0 ∧ (rest ≠ [] ∨ g.atRest = true) then
          let g1 : Pgn := { g with segs := rest, ended := g.ended ++ [(sg.tag, sg.target)],
                                   softDue := if sg.soft then some (b2n (decide (sg.vel.getD 0 < 0))) else g.softDue,
                                   stop := if rest = [] then [restPhase g.t0 g.sp.p] else g.stop }
          Pgn.popEnded f g1
        else g

/-- The plan after its setpoint is produced: at rest it is complete (R59, R203). -/
def Pgn.settle (g : Pgn) : Pgn :=
  let g1 := g.popEnded 9
  if g1.segs = [] ∧ g1.atRest = true ∧ g1.hardPend = false ∧ g1.st ≠ .held then
    let done := decide (g1.st ≠ .idle ∧ g1.st ≠ .homing)
    { g1 with
      st := if g1.st = .safeStop ∨ g1.st = .homing then g1.st else if g1.hStep ≠ 0 then .homing else .idle
      stop := [], limStop := false, complete := g1.complete || (done && decide (g1.hStep = 0)) }
  else g1

/-- The start of the last deceleration to a soft limit, where the plan has one. -/
def Pgn.softStart (g : Pgn) : Option Nat :=
  match g.segs with
  | [sg] =>
    if sg.soft then
      ((sg.phases.filter (fun ph => decide (ph.v ≠ 0 ∨ ph.a ≠ 0))).reverse.takeWhile (fun ph => decide (ph.a * ph.v < 0))).getLast?.map (·.t)
    else none
  | _ => none

/-- The speed at which a THIN axis in RUN holds a reversal: none below W_REV (R174). -/
def State.revSpeed (s : State) (a : Nat) : Option Int :=
  let d := s.desc a
  let t := (s.axis a).thin
  if d.kind = .thin ∧ t.cs = .run ∧ omBelow d.ky 0x18 t.om = false then some t.om.toInt else none

/-- REVERSAL_HELD of a THIN axis in RUN, logged as it is set (R174). -/
def State.setRevHeld (s : State) (a : Nat) (on : Bool) : State :=
  let x := s.axis a
  if x.revHeld = on then s
  else
    let s1 := (s.setAxis a { x with revHeld := on }).setMap (Reg.cmuHeldMap 0) a on
    if on then s1.axEvent a 0x0D07 [.w x.thin.om.toNat] else s1

/-- A stop that arrived while a higher one acted still acts as that ends (R200): a STOP until its standstill, a fault stop in FAULT, a
limit stop while the latch is set. -/
def Axis.waitActs (x : Axis) : Bool :=
  match x.pgn.waitStop with
  | 0 => false
  | 1 => decide (x.st = .stopping)
  | 2 => decide (x.st = .stopping)
  | 3 => decide (x.st = .fault)
  | _ => x.limPos || x.limNeg

/-- Produces an axis's setpoint for the actuation instant `t` (R194, R197, R200). That of a linked axis comes from LAU (R227). -/
def State.produceAx (s : State) (a t : Nat) : State :=
  let x := s.axis a
  if x.st = .sto ∨ x.st = .unused ∨ x.st = .created ∨ x.st = .admitWait ∨ x.st = .enabling then
    s.setAxis a { x with pgn := { x.pgn with sp := { p := x.fbPos }, t0 := t } }
  else if s.linked a then s
  else
    let g := x.pgn
    let s0 := match g.softStart with
      | some ts => if g.t0 ≤ ts ∧ ts < t then s.lastStop (.ax a) 7 else s
      | none => s
    if s.planHeld a then s0.setAxis a { x with pgn := { (g.shift g.t0 (t - g.t0)) with t0 := t } }
    else
      let g1 := (g.produce t (s.revSpeed a)).settle
      let s1 := (s0.setAxis a { x with pgn := g1 }).setRevHeld a (g.waits t (s.revSpeed a))
      let s2 := if g.st = .stopHard ∧ g1.st ≠ .stopHard ∧ x.waitActs = true then
          (s1.lastStop (.ax a) g.waitStop).updPgn (.ax a) (fun h => { h with waitStop := 0 })
        else s1
      if g.limStop ∧ ¬ g1.limStop then s2.setMap (Reg.pgnLimstopMap 0) a false else s2

/-- Produces the setpoints of an axis for its instants of the present cycle, later than the last it has (R34, R35). -/
def State.produceAll (s : State) (a : Nat) : State :=
  if (s.desc a).c2 then
    let t := s.actAt a 0
    let s1 := (s.produceAx a t).updPgn (.ax a) (fun g => { g with sp0 := g.sp })
    s1.produceAx a (t + halfU)
  else s.produceAx a (s.actAt a 0)

/-- An axis whose link has ended takes its setpoints of the present cycle from its stop, where LAU has not given them (R194, R202). -/
def State.catchUp (s : State) (a : Nat) : State :=
  if s.cyc.running ∧ (s.desc a).active s.cyc.n = true ∧ (s.pgn (.ax a)).t0 < s.actLast a then s.produceAll a else s

/-- A stop of rank 4 under R199: on the stop ramp, or at QD. `qc` is the cause of QUEUE_CLEARED, `lc` that of
PGN_LAST_STOP, `link` that of LINK_END. A higher stop in force keeps its setpoints; the lower one is
counted if it still acts when that ends (R200). -/
def State.stopPlan (s : State) (w : Who) (quick : Bool) (qc lc link : Nat) : State :=
  match w with
  | .vm _ =>
    (s.queueCleared w qc).updPgn w (Pgn.startStop (s.pgnDesc w) quick lc)
  | .ax a =>
    if s.stopRank a < 4 then s.updPgn w (fun g => { g.dropHome with waitStop := lc })
    else
      let lk := s.linked a
      let d := s.pgnDesc w
      let s1 := ((s.queueCleared w qc).linkEnd a link).unarmLink a
      let s2 := s1.updPgn w (fun g =>
        (Pgn.startStop d quick lc (if lk then { g with segs := [], stop := [] } else g)).dropHome)
      (s2.lastStop w lc).catchUp a

/-- The safe stop that the island asks for, at its deceleration (R200 rank 2, R370). -/
def State.safeStop (s : State) (a dec : Nat) : State :=
  if s.stopRank a < 2 ∨ (s.stopRank a = 2 ∧ dec ≤ (s.axis a).pgn.safeDec) then s
  else
    let s1 := if s.stopRank a = 2 then s else ((s.queueCleared (.ax a) 4).linkEnd a 2).unarmLink a
    let s2 := s1.updPgn (.ax a) (fun g =>
      let d : PgnDesc := { qd := max dec 1 }
      let g1 := Pgn.startStop d true 6 { g with segs := [], stop := if g.st = .stopHard then [] else g.stop }
      { g1.dropHome with st := .safeStop, hardPend := false, safeDec := dec })
    (s2.lastStop (.ax a) 6).catchUp a

/-- The stop of a THIN axis that gives its start up (R172, R201): the queue is cleared, a homing with it, and the profile is
complete. -/
def State.startFailed (s : State) (a : Nat) : State :=
  let s1 := s.queueCleared (.ax a) 6
  s1.updPgn (.ax a) (fun g => { (g.setRest g.sp.p).dropHome with complete := true })

/-- STO: the queue is cleared and the setpoint follows the feedback (R200 rank 1). -/
def State.stoPlan (s : State) (a : Nat) : State :=
  let s1 := ((s.queueCleared (.ax a) 4).linkEnd a 6).unarmLink a
  let s2 := s1.updPgn (.ax a) (fun g =>
    let p : Setpt := { p := (s1.axis a).fbPos }
    let h : Pgn := { g with segs := [], stop := [], st := .stopHard, hardPend := false, limStop := false, lost := false, sp := p, sp0 := p }
    h.dropHome)
  ((s2.setMap (Reg.pgnLimstopMap 0) a false).setMap (Reg.pgnHoldMap 0) a false).lastStop (.ax a) 6

/-! ### Limits (R203 to R205) -/

/-- A segment toward a side is queued (side 0 positive). -/
def Pgn.segToward (g : Pgn) (side : Nat) : Bool :=
  let sg : Int := if side = 0 then 1 else -1
  g.segs.any (fun q => match q.vel with
    | some v => decide (0 < sg * v)
    | none => decide (0 < sg * (q.target - g.sp.p)))

/-- A limit latch has tripped at this S: the limit stop, where the motion is toward it (R203, R212). -/
def State.limitStop (s : State) (a side : Nat) : State :=
  let x := s.axis a
  let g := x.pgn
  let sg : Int := if side = 0 then 1 else -1
  let v := (g.eval (s.sampleAt 0)).v
  let toward := decide (0 < sg * v) || (decide (v = 0) && g.segToward side)
  let d := s.pgnDesc (.ax a)
  let hard := if side = 0 then d.posHard else d.negHard
  if toward = false ∨ x.st.enabled = false then s
  else if s.stopRank a ≤ 3 then
    if s.stopRank a = 3 ∧ hard = true then s else s.updPgn (.ax a) (fun g' => { g' with waitStop := if hard then 5 else 4 })
  else
    let s1 := (s.axEvent a 0x0B02 [.h side, .h (b2n hard)]).count Reg.pgnLimstopCnt
    let s2 := s1.setMap (Reg.pgnLimstopMap 0) a true
    let home := decide (x.st = .homing)
    let keep := fun (g' : Pgn) => if home then
        { g' with hStep := g.hStep, hReversing := g.hReversing, hMark := g.hMark, hFound := g.hFound, limStop := true }
      else { g' with limStop := true }
    if hard then
      let s3 := ((s2.queueCleared (.ax a) 3).linkEnd a 4).unarmLink a
      ((s3.updPgn (.ax a) (fun g' => keep (g'.hardStop 5).dropHome)).lastStop (.ax a) 5).catchUp a
    else (s2.stopPlan (.ax a) false 3 4 4).updPgn (.ax a) keep

/-! ### Setpoints (R194, R197 to R202) -/

/-- Evaluates a virtual master at an S (R211). -/
def State.produceVm (s : State) (n t : Nat) : State :=
  let g := ((s.pgn (.vm n)).produce t none).settle
  let s1 := s.updPgn (.vm n) (fun _ => { g with complete := false, vmStops := if g.segs = [] ∧ g.stop = [] then [] else g.vmStops })
  if g.segs = [] ∧ g.stop = [] then g.vmStops.foldl (fun st q => st.completeSeq q Stat.ok) s1 else s1

/-- Seeds an axis that reaches READY from ENABLING (R59, R198). -/
def State.seedReady (s : State) (a : Nat) : State :=
  let x := s.axis a
  let d := (s.desc a).pgn
  let fly := decide ((s.desc a).kind ≠ .thin ∧ x.fbVel ≠ 0 ∧ d.vFly ≤ x.fbVel.natAbs)
  let g0 := x.pgn.setRest x.fbPos
  if fly then
    let g1 := (g0.seed x.fbPos x.fbVel).startStop d false 0
    let s1 := s.setAxis a { x with pgn := { g1 with stopCause := 0 } }
    s1.axEvent a 0x0B0B [.i (x.fbVel / 2 ^ 24)]
  else s.setAxis a { x with pgn := g0 }

/-- Plans what is queued from the measured state (R198, R201): a THIN axis that reaches RUN or has been caught again. -/
def State.replanMeasured (s : State) (a : Nat) : State :=
  let x := s.axis a
  let d := (s.desc a).pgn
  let g := x.pgn.seed x.fbPos x.fbVel
  let old := x.pgn
  let g1 : Pgn :=
    if old.stop ≠ [] then
      let h := g.stopOn (d.ramp old.stopSet) old.stopSet (if old.stopRate = 0 then none else some old.stopRate) old.stopCause
      { h with st := old.st }
    else match old.segs with
      | [] => { g with st := old.st }
      | [sg] => match sg.vel with
        | some w => if sg.soft then { g with segs := [planSeg (d.ramp sg.rset) sg g.t0 g.sp.p g.sp.v 0 true] }
                    else { g with segs := [planVel (d.ramp sg.rset) sg g.t0 g.sp.p g.sp.v w] }
        | none => { g with segs := [planSeg (d.ramp sg.rset) sg g.t0 g.sp.p g.sp.v 0 true] }
      | l => { g with segs := planQueue d.ramp g.t0 g.sp.p g.sp.v l }
  s.setAxis a { x with pgn := { g1 with st := if old.st = .held then .running else g1.st, flySeed := false, lost := false } }

/-- The flying seed of a THIN axis whose sequencer has reached RUN (R198). -/
def State.flySeed (s : State) (a : Nat) : State :=
  let x := s.axis a
  if x.pgn.flySeed then
    let s1 := s.replanMeasured a
    if x.fbVel ≠ 0 then s1.axEvent a 0x0B0B [.i (x.fbVel / 2 ^ 24)] else s1
  else s

/-! ### Homing (R206 to R210) -/

/-- Search direction of a method (R206). -/
def homeDir : Nat → Int
  | 2 => -1
  | 4 => -1
  | 5 => -1
  | _ => 1

/-- The inputs that are the mark of a method: HOME, or the limit of the search direction. -/
def State.homeMarks (s : State) (a m : Nat) : List Nat :=
  if m = 5 then s.finsOf 2 a else if m = 6 then s.finsOf 1 a else if m = 7 then [] else s.finsOf 3 a

/-- The mark is active. -/
def State.markActive (s : State) (a m : Nat) : Bool :=
  (s.homeMarks a m).any (fun k => (s.fin k).effS)

/-- Runs a homing axis at a signed velocity on ramp set 0 (R207). -/
def Pgn.runHome (d : PgnDesc) (v : Int) (g : Pgn) : Pgn :=
  { (g.moveVel d none v 0 0) with st := .homing }

/-- Stops a homing axis on the stop ramp (R207). -/
def Pgn.stopHome (d : PgnDesc) (g : Pgn) : Pgn :=
  { ({ g with segs := [], stop := g.phases } : Pgn).startStop d false 0 with st := .homing }

/-- HOMING_FAULT: a fault condition of R61 (R208). -/
def State.homeFault (s : State) (a cause : Nat) : State :=
  let s1 := ((s.axEvent a 0x0B06 [.h cause]).count Reg.pgnHomefaultCnt).addCond a 0x0B06
  s1.stopPlan (.ax a) false 2 3 3

/-- The feedback position at a time, linear between the two samples that bracket it (R209). -/
def posAtTime (t : Nat) : List (Nat × Int) → Option Int
  | [] => none
  | [(t1, p1)] => if t ≤ t1 then some p1 else none
  | (t1, p1) :: (t0, p0) :: r =>
    if t1 < t then none
    else if t0 ≤ t then some (p1 - divRound ((p1 - p0) * ((t1 - t : Nat) : Int)) (t1 - t0))
    else posAtTime t ((t0, p0) :: r)

/-- The path between the samples of the ending cycle and the one before them. -/
def Axis.cyclePath (x : Axis) : Int :=
  ((List.range x.fbNow.length).map (fun i =>
    match x.pgn.fbHist[i]?, x.pgn.fbHist[i + 1]? with
    | some p, some q => ((p.2 - q.2).natAbs : Int)
    | _, _ => 0)).foldl (· + ·) 0

/-- The feedback position at the S of the present cycle. -/
def State.fbAtS (s : State) (a : Nat) : Int :=
  (posAtTime (s.sampleAt 0) (s.axis a).pgn.fbHist).getD (s.axis a).fbPos

/-- One index period of an axis's channel, raw counts (R208): four counts a line (R73). -/
def State.idxPeriod (s : State) (a : Nat) : Int :=
  match (s.desc a).chan with
  | some k => 4 * (s.rdFld (Reg.eiuLines k) 23 0) * 2 ^ 32
  | none => 0

/-- Step 3 reaches its reference: step 4 begins (R207). -/
def State.homeRef (s : State) (a : Nat) (ref : Int) : State :=
  let d := s.pgnDesc (.ax a)
  s.updPgn (.ax a) (fun g => { (g.stopHome d) with hStep := 4, lastRef := ref })

/-- Step 3 of homing (R207 to R209). -/
def State.homeStep3 (s : State) (a : Nat) : State :=
  let x := s.axis a
  let g := x.pgn
  let m := g.hMethod
  if m = 7 then match g.hIdx with
    | some p => s.homeRef a p
    | none => s
  else
    let act := s.markActive a m
    let te := (s.homeMarks a m).foldl (fun t k => max t (s.fin k).since) 0
    let edge := g.hMark && !act && decide (g.hStepT ≤ te)
    let s1 := s.updPgn (.ax a) (fun h => { h with hMark := if act then true else if edge ∨ te < g.hStepT then false else h.hMark })
    match g.hRelease with
    | some _ =>
      let s2 := s1.updPgn (.ax a) (fun h => { h with hTravel := h.hTravel + x.cyclePath })
      (match g.hIdx with
       | some p => s2.homeRef a p
       | none => if s.idxPeriod a < g.hTravel then s2.homeFault a 4 else s2)
    | none =>
      if edge then
        match posAtTime te g.fbHist with
        | some p =>
          if m = 3 ∨ m = 4 then s1.updPgn (.ax a) (fun h => { h with hRelease := some p, hIdx := none, hTravel := 0 })
          else s1.homeRef a p
        | none => s.updPgn (.ax a) (fun h => { h with hMark := true })
      else s1

/-- The trips of this S, the path and the mask are judged, then the step that stands is carried on (R207, R208). The
setpoints planned here start at the instant already committed. -/
def State.homing (s : State) (a : Nat) : State :=
  let x := s.axis a
  let g := x.pgn
  let m := g.hMethod
  let d := s.pgnDesc (.ax a)
  let dir := homeDir m
  let marksd : Option Nat := if m = 5 then some 1 else if m = 6 then some 0 else none
  let trips := (List.range 2).filter (fun side =>
    (s.finsOf (side + 1) a).any (fun k => (s.fin k).tripDue))
  let path := g.hPath + x.cyclePath
  let s0 := s.updPgn (.ax a) (fun h => { h with hPath := path })
  let masked := decide (m ≤ 4) && (s.finsOf 3 a).any (fun k => (s.fin k).masked)
  let bad := trips.filter (fun t => !(decide (marksd = some t) && !g.hFound))
  if masked then s0.homeFault a 3
  else if bad ≠ [] ∧ (g.hFound = true ∨ g.hLimits ≠ 0 ∨ 2 ≤ bad.length) then s0.homeFault a 1
  else if d.homeDist ≠ 0 ∧ d.homeDist < path then s0.homeFault a (if m = 7 ∧ g.hStep = 3 then 4 else 2)
  else
    let s1 := match bad with
      | side :: _ => (s0.axEvent a 0x0B07 [.h side]).updPgn (.ax a) (fun h =>
          { h with hLimits := h.hLimits + 1, hReversing := 1, hStep := 1, hRev := true })
      | [] => s0
    let rest := (s1.pgn (.ax a)).segs = [] ∧ (s1.pgn (.ax a)).stop = [] ∧ (s1.pgn (.ax a)).hardPend = false
    let act := s1.markActive a m
    let run := fun (v : Int) (f : Pgn → Pgn) => s1.updPgn (.ax a) (fun h => f (h.runHome d v))
    match (s1.pgn (.ax a)).hReversing with
    | 1 => if rest then run (-dir * d.vSearch) (fun h => { h with hReversing := if act then 3 else 2 }) else s1
    | 2 => if act then s1.updPgn (.ax a) (fun h => { h with hReversing := 3 }) else s1
    | 3 => if act then s1 else s1.updPgn (.ax a) (fun h => { (h.stopHome d) with hReversing := 4 })
    | 4 => if rest then run (dir * d.vSearch) (fun h => { h with hReversing := 0 }) else s1
    | _ =>
      match g.hStep with
      | 1 =>
        if m = 7 then run (dir * d.vCreep) (fun h => { h with hStep := 3, hStepT := s.sampleAt 0, hIdx := none })
        else if act then
          s1.updPgn (.ax a) (fun h =>
            let h1 : Pgn := { h with hStep := 2, hFound := true }
            if marksd.isSome ∧ h.limStop = true then h1 else { (h1.stopHome d) with hStep := 2 })
        else if rest then run (dir * d.vSearch) id else s1
      | 2 =>
        if rest then
          let s2 := run (-dir * d.vCreep) (fun h => { h with hStep := 3, hMark := act })
          s2.updPgn (.ax a) (fun h => { h with hStepT := ((h.phases.getLast?).map (·.t)).getD h.t0 })
        else s1
      | 3 => s1.homeStep3 a
      | _ => s1

/-- The shift of R210: the feedback offset, the setpoint, the plan, the estimator and the latched limits move by it, and so
does the reference of a line angle that the axis feeds (R219). -/
def State.shiftRef (s : State) (a method : Nat) (ref : Int) : State :=
  let d := s.pgnDesc (.ax a)
  let dl := wrapS (d.homeOfs - ref)
  let mv := fun (ph : Phase) => { ph with p := ph.p + dl }
  let s1 := s.updAxis a (fun x =>
    let g := x.pgn
    let segs := g.segs.map (fun (q : Seg) => { q with target := q.target + dl, start := q.start + dl, phases := q.phases.map mv })
    { x with
      fbPos := wrapS (x.fbPos + dl), fbOfs := x.fbOfs + dl, posValid := true, homed := true
      est := x.est.shift dl
      pgn := { g with sp := { g.sp with p := wrapS (g.sp.p + dl) }, sp0 := { g.sp0 with p := wrapS (g.sp0.p + dl) }, segs := segs, stop := g.stop.map mv,
                      fbHist := g.fbHist.map (fun (q : Nat × Int) => (q.1, q.2 + dl)), lastRef := ref, lastShift := dl } })
  let s2 := match (s1.desc a).chan with
    | some k =>
      let c := Tab.get {} s1.eiu k
      let c1 : EncCh := { (c.shift dl) with
        pos := wrapS (c.pos + dl), posValid := true, everSet := true, idxSeen := c.idxSeen && c.posValid, serPos := c.serPos + dl }
      let t1 : State := { s1 with eiu := Tab.set {} s1.eiu k c1 }
      t1.wrBit (Reg.eiuStatus k) 0 true
    | none => s1
  let s3 := forAll (s2.finsOf 1 a ++ s2.finsOf 2 a) (fun k st => st.setFin k { (st.fin k) with trip := (st.fin k).trip + dl }) s2
  let chan := (s.desc a).chan
  let fed (x : LineAngle) : Bool :=
    (decide (x.decl.src = .axis) && decide (x.decl.srcIndex = a)) ||
      (decide (x.decl.src = .encoder) && decide (chan = some x.decl.srcIndex))
  let s4 : State := { s3 with lau := { s3.lau with
    angles := s3.lau.angles.map (fun (p : Nat × LineAngle) => if fed p.2 then (p.1, { p.2 with srcPos := p.2.srcPos + dl }) else p) } }
  (s4.setMap (Reg.pgnHomedMap 0) a true).axEvent a 0x0B05 [.h method, .i (dl / 2 ^ 32)]
where
  /-- The signed reading of 64 bits (R9). -/
  wrapS (x : Int) : Int := sgn 64 (x % 2 ^ 64).toNat

/-- HOMED is cleared (R207, R210). -/
def State.clearHomed (s : State) (a : Nat) : State :=
  (s.updAxis a (fun x => { x with homed := false })).setMap (Reg.pgnHomedMap 0) a false

/-- POS_VALID of an axis's feedback is cleared: HOMED goes with it, and the encoder offset that an incremental THIN axis learnt
(R170, R210). -/
def State.posLost (s : State) (a : Nat) : State :=
  (s.clearHomed a).updAxis a (fun x => { x with fbGap := true, thin := { x.thin with encKnown := x.thin.encKnown && (s.desc a).absFb } })

end Sys2Proof.Machine
end

