-- ==== Sys2Proof/Machine/AxmOps.lean ====
section
/-! DEFINITION. Machine/AxmOps.lean: the transitions of an axis (R58 to R63), the boundary's judgement of them and start
admission, and the axis context windows (R27, R64, R127, R183, R184, R213). -/

namespace Sys2Proof.Machine

/-! ### Transitions (R58 to R61) -/

/-- An axis takes a transition: change map, AXIS_STATE, and the axis-group source once a boundary (R58, R67). LAST_EVENT keeps
the cause where an axis enters or leaves FAULT (R59). Where no event caused the transition, the cause is 0 (DESIGN CHOICE, log
entry 24). -/
def State.setSt (s : State) (a : Nat) (st : AxSt) (cause : Nat) : State :=
  let x := s.axis a
  let old := x.st
  let grp := (List.range 4).any (fun j => (s.axis (a / 4 * 4 + j)).moved)
  let s1 := (s.setAxis a { x with st := st, moved := true }).setMap (Reg.axmChangeMap 0) a true
  let s2 := (s1.setMap (Reg.axmFaultMap 0) a (decide (st = .fault))).event 0x0703 [.h a, .h old.code, .h st.code, .h cause]
  let le := if old = .fault then x.lastEvent else if st = .fault then cause else 0x0703
  let s3 := s2.updAxis a (fun y => { y with lastEvent := le })
  if grp then s3 else s3.tick (0x190 + a / 4)

/-- The held AXIS_ENABLE and STOP items of an axis complete. -/
def State.endHeld (s : State) (a status : Nat) : State :=
  let x := s.axis a
  let s1 := match x.enSeq with
    | some q => s.completeSeq q status
    | none => s
  let s2 := x.stopSeqs.foldl (fun st q => st.completeSeq q status) s1
  let s3 := s2.updAxis a (fun y => { y with enSeq := none, enQueued := false, stopSeqs := [] })
  { s3 with axm := { s3.axm with queue := s3.axm.queue.filter (fun b => decide (b ≠ a)) } }

/-- The sequencer of a THIN axis goes to IDLE as the axis leaves the enabled states (R169, R182). -/
def State.thinIdle (s : State) (a : Nat) : State :=
  let s1 := s.updAxis a (fun x => { x with
    thin := { x.thin with cs := .idle, att := 0, rec_ := 0, left := 0, resid := 0, lostAt := none, recRes := none }
    rotorLost := false, revHeld := false, nodeReady := false })
  (((s1.setMap (Reg.cmuLostMap 0) a false).setMap (Reg.cmuAscMap 0) a false).setMap (Reg.cmuHeldMap 0) a false).setMap
    (Reg.pgnHoldMap 0) a false

/-- Reactions of R61 that trust the feedback: PGN's stop ramp. -/
def rampReaction (code : Nat) : Bool :=
  code = 0x0B06 || code = 0x0C01 || code = 0x0D05 || code = 0x0D06 || code = 0x0D08 || code = 0x0706

/-- A fault condition that is a level and still stands (R44, R70): feedback or commands still missing, or a node that still
flags its position as invalid. The others are gone once FAULT has been entered. -/
def Axis.condStands (x : Axis) (d : AxisDesc) (code : Nat) : Bool :=
  match code with
  | 0x0604 => decide (3 ≤ x.noFb)
  | 0x0605 => decide (d.lateLim ≤ x.late)
  | 0x0809 => d.chan.isNone && !x.posValid
  | _ => false

/-- The axis enters FAULT (R59, R61). -/
def State.toFault (s : State) (a cause status : Nat) : State :=
  let own := !rampReaction cause
  let s1 := (s.endHeld a status).foutAxisStop a
  let s2 := (s1.setSt a .fault cause).event 0x0707 [.h a, .h cause]
  let s3 := s2.updAxis a (fun x => { x with ownStop := own, conds := x.conds.filter (x.condStands (s.desc a)) })
  (s3.stopPlan (.ax a) false 2 3 3).updAxis a (fun x => { x with lastEvent := cause })

/-- The move items of an axis that have been taken complete with REFUSED_SAFETY as it enters STO (R59). -/
def State.refuseMoves (s : State) (a : Nat) : State :=
  let ts := s.wks.taken.filter (fun t =>
    decide (t.item.opcode = Opc.moveAbs ∨ t.item.opcode = Opc.moveRel ∨ t.item.opcode = Opc.moveVel) &&
      decide (t.item.handle = s.handleOf 1 a))
  forAll ts (fun t st => st.complete t Stat.refusedSafety) s

/-- STO from the safety island (R59, R60 rank 1). -/
def State.axmSto (s : State) (a : Nat) : State :=
  let x := s.axis a
  let p := s.permit a
  let s0 := if x.st = .unused then s else s.updAxis a (fun y => { y with stoAct := !p })
  if p = false then
    if x.st.enabled then
      ((((s0.endHeld a Stat.refusedSafety).foutAxisStop a).setSt a .sto 0).thinIdle a).stoPlan a |>.refuseMoves a
    else if x.st = .admitWait then (s0.endHeld a Stat.refusedSafety).setSt a .created 0
    else if x.enSeq.isSome then s0.endHeld a Stat.refusedSafety
    else s0
  else if x.st = .sto then
    (s0.setSt a .created 0).updAxis a (fun y => { y with pgn := y.pgn.setRest y.fbPos, ownStop := false, conds := [] })
  else s0

/-- The fault conditions of an axis that count. POS_VALID cleared in the cycle of a home found is none: the homing result stands (R90). -/
def Axis.faults (x : Axis) : List Nat :=
  if x.homeDue ∧ x.st = .homing then x.conds.filter (fun c => decide (c ≠ 0x0809 ∧ c ≠ 0x0803)) else x.conds

/-- A fault condition (R60 rank 2). One met in FAULT that takes the trust from the feedback brings the node's own stop (R44, R61). An
ENABLE_TIMEOUT completes the held enable with TIMEOUT (R59). -/
def State.axmFault (s : State) (a : Nat) : State :=
  let x := s.axis a
  if x.moved ∨ x.st.enabled = false then s
  else if x.st = .fault then s.updAxis a (fun y => { y with
    ownStop := y.ownStop || y.conds.any (fun c => !rampReaction c), conds := y.conds.filter (y.condStands (s.desc a)) })
  else match x.faults with
    | c :: _ => s.toFault a c (if c = 0x0706 then Stat.timeout else Stat.wrongState)
    | [] => s

/-- The setpoint is at rest. -/
def Axis.planRest (x : Axis) : Bool := decide (x.pgn.segs = [] ∧ x.pgn.stop = []) && !x.pgn.hardPend && !x.pgn.lost

/-- Home found (R210): the shift is applied and the axis returns to READY. -/
def State.axmHome (s : State) (a : Nat) : State :=
  let g := (s.axis a).pgn
  let s1 := (s.shiftRef a g.hMethod g.lastRef).updPgn (.ax a) (fun h => { h.dropHome with st := .idle, complete := false })
  s1.setSt a .ready 0x0B05

/-- Standstill, home found, profile complete, node ready (R60 rank 4). A STEPPER that is not at standstill when its node reports ready
meets NOT_STANDSTILL (R181). -/
def State.axmRest (s : State) (a : Nat) : State :=
  let x := s.axis a
  if x.moved then s
  else match x.st with
    | .enabling =>
      if x.nodeReady = false then s
      else
        let d := s.desc a
        let moving := if d.openLoop = false then !x.still else (Tab.get {} s.slc.nodes d.node).moving
        if d.kind = .stepper ∧ moving = true then (s.axEvent a 0x0D08 []).toFault a 0x0D08 Stat.wrongState
        else ((s.endHeld a Stat.ok).setSt a .ready 0).seedReady a
    | .motion =>
      if x.pgn.complete ∨ (x.planRest ∧ ¬ s.linked a ∧ s.lau.armedLinks.all (fun p => decide (p.1 ≠ a)) = true) then
        (s.setSt a .ready 0).updAxis a (fun y => { y with pgn := { y.pgn with complete := false } })
      else s
    | .homing =>
      if x.homeDue then s.axmHome a
      else if x.pgn.complete ∧ x.pgn.hStep = 0 then
        (s.setSt a .ready 0).updAxis a (fun y => { y with pgn := { y.pgn with complete := false } })
      else s
    | .stopping =>
      if x.planRest ∧ x.still then
        ((s.endHeld a Stat.ok).setSt a .ready 0).updAxis a (fun y => { y with pgn := { y.pgn with complete := false } })
      else s
    | _ => s

/-- An accepted AXIS_DESTROY takes effect (R53); an admission request still queued is withdrawn. -/
def State.axmDestroy (s : State) (a : Nat) : State :=
  let x := s.axis a
  if x.destroy ∧ x.st = .created ∧ ¬ x.moved then
    let h := s.handleOf 1 a
    let s1 := (((s.endHeld a Stat.wrongState).setSt a .unused 0).retire 1 a).setAxis a { moved := true }
    (s1.setMap (Reg.pgnHomedMap 0) a false).event 0x0702 [.h a, .w h.toNat]
  else s

/-- The judgement of one axis at a boundary (R60). -/
def State.axmAxis (s : State) (a : Nat) : State :=
  ((((s.axmSto a).axmFault a).axmRest a).axmDestroy a).updAxis a (fun x => { x with homeDue := false })

/-! ### Admission (R62, R63) -/

/-- A window or timeout of the admission rules in base cycles. -/
def State.admitCyc (s : State) (ms : Nat) : Nat := s.msCyc ms

/-- Energy declared in the last W_ADMIT. -/
def State.admitUsed (s : State) : Nat :=
  ((s.axm.admits.filter (fun p => decide (s.cyc.n < p.1 + s.admitCyc 100))).map (·.2)).foldl (· + ·) 0

/-- Axes in ENABLING. -/
def State.enablingCount (s : State) : Nat := (s.axes.filter (fun p => decide (p.2.st = .enabling))).length

/-- The head of the queue may be admitted. -/
def State.admissible (s : State) (a : Nat) : Bool :=
  decide (s.enablingCount < s.rdFld Reg.axmAdmitCfg 6 0) &&
    decide ((s.desc a).inrush + s.admitUsed ≤ s.rdFld Reg.axmAdmitCfg 31 16)

/-- An axis is admitted: ENABLING, and the enable is commanded to the node. The state words of the loop set and the final
demand go to 0 (R121), and CMU's comparators to 0 and +1 (R163). -/
def State.admitAxis (s : State) (a : Nat) : State :=
  let ax : Axm := { s.axm with queue := s.axm.queue.filter (fun b => decide (b ≠ a)),
                               admits := (s.cyc.n, (s.desc a).inrush) :: s.axm.admits }
  let s1 : State := { s with axm := ax }
  (s1.setSt a .enabling 0).updAxis a (fun x => { x with
    enStart := s.cyc.n, nodeReady := false, loop := { rescSkip := x.loop.rescSkip }, demand := 0, winner := 0xF
    kx := x.kx.filter (fun p => decide (0xE0 ≤ p.1)), conds := x.conds.filter (x.condStands (s.desc a))
    thin := { x.thin with cmu := { x.thin.cmu with cT := 0, cPsiUp := true } } })

/-- Admits from the head of the queue until a request cannot be admitted; those left in CREATED go to ADMIT_WAIT. ADMIT_WAIT
counts the place in the queue from 0 (DESIGN CHOICE, log entry 19). -/
def State.admitAll : Nat → State → State
  | 0, s => s
  | f + 1, s =>
    match s.axm.queue with
    | [] => s
    | a :: _ =>
      if (s.axis a).moved = false ∧ s.admissible a then State.admitAll f (s.admitAxis a)
      else s.axm.queue.zipIdx.foldl (fun st p =>
        let x := st.axis p.1
        if x.st = .created ∧ x.moved = false then
          let s1 := match x.enSeq with
            | some q => if x.enQueued then st else st.interim q Stat.queuedAdmission
            | none => st
          let s2 := (s1.updAxis p.1 (fun y => { y with enQueued := true })).setSt p.1 .admitWait 0
          s2.axEvent p.1 0x0704 [.h p.2]
        else st) s

/-- A request whose T_ADMIT has expired and that was not admitted at this boundary ends (R59, R62). -/
def State.admitExpire (s : State) (a : Nat) : State :=
  let x := s.axis a
  let s0 := s.updAxis a (fun y => { y with admitDue := false })
  if x.admitDue = true ∧ x.st = .admitWait ∧ x.moved = false then
    let s1 := (s0.endHeld a Stat.timeout).count Reg.axmAdmitTimeoutCnt
    (s1.axEvent a 0x0705 [.w (s.cyc.n - x.enCycle)]).setSt a .created 0x0705
  else s0

/-- Places an admission request: by the cycle of service, then by axis index. -/
def insertReq (cyc : Nat → Nat) (a : Nat) : List Nat → List Nat
  | [] => [a]
  | b :: t => if cyc a < cyc b ∨ (cyc a = cyc b ∧ a < b) then a :: b :: t else b :: insertReq cyc a t

/-- Step 3 of R33 for AXM: every axis is judged, requests are admitted, and the counts are published. -/
def State.axmBoundary (s : State) : State :=
  let s0 : State := { s with axes := s.axes.map (fun p => (p.1, { p.2 with
    moved := false, thin := { p.2.thin with ofs := p.2.thin.ofsDue.getD p.2.thin.ofs, ofsDue := none } })) }
  let s1 := s0.axesInUse.foldl State.axmAxis s0
  let s2 := forAll s1.axesInUse (fun a st => st.admitExpire a) (State.admitAll 300 s1)
  let old := s2.axm.admits.filter (fun p => decide (s2.cyc.n < p.1 + s2.admitCyc 100))
  let cnt := fun (st : AxSt) => (s2.axes.filter (fun p => decide (p.2.st = st))).length
  let used := ([AxSt.created, .admitWait, .enabling, .ready, .motion, .homing, .stopping, .fault, .sto]).map cnt
  let ax : Axm := { s2.axm with admits := old, count := (256 - used.foldl (· + ·) 0) :: used }
  let s3 : State := { s2 with axm := ax }
  s3.wr Reg.axmAdmitStatus (w32 (min s3.admitUsed 65535 * 65536 + cnt .admitWait % 256 * 256 + cnt .enabling % 128))

/-! ### The axis context window (R27, R64) -/

/-- A 64-bit integer as two words of a window. -/
def win64 (t : Tab Word) (off : Nat) (v : Int) : Tab Word :=
  Tab.set 0 (Tab.set 0 t off (loW (dInt v))) (off + 4) (hiW (dInt v))

/-- A word of a window. -/
def win32 (t : Tab Word) (off n : Nat) : Tab Word := Tab.set 0 t off (w32 n)

/-- Words of a frame as words of a window: frame word w lies at window offset base + 4 (w - w0). -/
def winFrame (t : Tab Word) (base w0 lo hi : Nat) (f : Tab Word) : Tab Word :=
  (f.filter (fun p => decide (lo ≤ p.1 ∧ p.1 ≤ hi))).foldl (fun t p => Tab.set 0 t (base + 4 * (p.1 - w0)) p.2) t

/-- The words of R64 up to 0x00FF. -/
def State.winHead (s : State) (a : Nat) : Tab Word :=
  let x := s.axis a
  let d := s.desc a
  let t0 := win64 [] 0 s.cyc.n
  let t1 := Tab.set 0 (Tab.set 0 t0 8 (s.handleOf 1 a)) 0xC (stateWord d x.st)
  let t2 := win32 (Tab.set 0 t1 0x10 x.statusWord) 0x14 x.lastEvent
  let t3 := win32 (win32 t2 0x18 (min x.noFb 255 + min x.late 255 * 256)) 0x1C (x.winner % 16 + x.active % 2 * 16)
  let t4 := win64 (win64 t3 0x20 x.fbPos) 0x28 x.fbVel
  let t5 := win64 (win64 (win64 t4 0x30 x.pgn.sp.p) 0x38 x.pgn.sp.v) 0x40 x.pgn.sp.a
  let t6 := Tab.set 0 (win64 t5 0x48 x.fe) 0x50 x.demand
  let sp := match d.chan with
    | some k => (s.rd (Reg.eiuSpeedCfg k)).toNat
    | none => d.speed.nE % 16 * 2 ^ 28 + d.speed.eHi % 256 * 2 ^ 16 + d.speed.tSs % 65536
  win32 (win32 (win32 t6 0x54 x.swapCycle) 0x58 (d.feN % 256 + d.lateLim % 8 * 256)) 0x5C sp

/-- A phase in the window: TIME, position, velocity, acceleration. -/
def winPhase (t : Tab Word) (off : Nat) (ph : Phase) : Tab Word :=
  let tm := (timeOf ph.t).toNat
  let t1 := win32 (win32 (win32 t off (tm % 2 ^ 32)) (off + 4) (tm / 2 ^ 32 % 2 ^ 32)) (off + 8) (tm / 2 ^ 64)
  win64 (win64 (win64 t1 (off + 0x10) ph.p) (off + 0x18) ph.v) (off + 0x20) ph.a

/-- A segment in the window. -/
def winSeg (t : Tab Word) (off : Nat) (q : Seg) : Tab Word :=
  let t1 := win64 (win64 (win64 (win64 t off q.target) (off + 8) q.start) (off + 0x10) q.cruise) (off + 0x18) q.ve
  win32 t1 (off + 0x20) (q.tag % 65536 + q.rset % 4 * 65536 + b2n q.vel.isSome * 2 ^ 18)

/-- The PGN part of a window (R213). -/
def State.winPgn (s : State) (a : Nat) (t : Tab Word) : Tab Word :=
  let g := (s.axis a).pgn
  let d := (s.desc a).pgn
  let home := decide (g.hStep ≠ 0)
  let t1 := win32 t 0x1000 (g.st.code + min g.segs.length 8 * 16 + (if home then g.hStep * 256 + g.hMethod * 4096 else 0)
    + b2n (home && g.hRev) * 65536)
  let t2 := win64 (win32 t1 0x1004 (g.lastTag % 65536)) 0x1008 g.moveBase
  let t3 := (g.phases.take 8).zipIdx.foldl (fun t p => winPhase t (0x1040 + 0x30 * p.2) p.1) t2
  let t4 := (g.segs.take 8).zipIdx.foldl (fun t p => winSeg t (0x1200 + 0x40 * p.2) p.1) t3
  let t5 := (List.range 4).foldl (fun t r =>
    let q := d.ramp r
    [q.vmax, q.vbrk, q.vstart, q.vstop, q.a1, q.a2, q.d2, q.d1].zipIdx.foldl (fun t p =>
      win64 t (0x1400 + 0x40 * r + 8 * p.2) p.1) t) t4
  let t6 := [(d.vlim : Int), d.qd, d.posMin, d.posMax, d.vSearch, d.vCreep, d.homeDist, d.homeOfs, d.vFly].zipIdx.foldl
    (fun t p => win64 t (0x1500 + 8 * p.2) p.1) t5
  let fl := bitsWord [d.blend, d.softEn, d.posHard, d.negHard, d.reqHomed, d.absHomed]
  let t7 := win32 t6 0x1548 (fl.toNat + d.homeMethod % 16 * 256)
  win64 (win64 t7 0x1550 g.lastRef) 0x1558 g.lastShift

/-- The whole window of an axis as it stands. -/
def State.winOf (s : State) (a : Nat) : Tab Word :=
  let x := s.axis a
  let d := s.desc a
  let f := s.stateWords a
  let t1 := winFrame (s.winHead a) 0x100 0x30 0x30 0xDF f
  let t2 := x.bank0.foldl (fun t p => Tab.set 0 t (0x400 + 4 * p.1) p.2) t1
  let t3 := x.bank1.foldl (fun t p => Tab.set 0 t (0xA00 + 4 * p.1) p.2) t2
  let t4 := winFrame (s.winPgn a t3) 0x1800 0xE0 0xE0 0xFF f
  let t5 := if d.kind = .thin then
      let c := x.thin.cmu
      win32 t4 0x1880 (c.code % 16 + (if c.cT = 1 then 1 else if c.cT = 0 then 0 else 3) * 16 + b2n c.cPsiUp * 64
        + c.sector % 16 * 256 + c.q % 8 * 4096)
    else t4
  d.ky.foldl (fun t p => Tab.set 0 t (0x1C00 + 4 * p.1) p.2) t5

/-- The windows are republished with the state at the end of the ending cycle (R27, R33). -/
def State.publish (s : State) : State :=
  s.axesInUse.foldl (fun st a => st.updAxis a (fun x => { x with pub := s.winOf a })) s

/-- The state, status and last event that the windows show include what AXM judged at this boundary (R58). -/
def State.publishStates (s : State) : State :=
  s.axesInUse.foldl (fun st a => st.updAxis a (fun x =>
    if x.pub = [] then x
    else
      let t1 := Tab.set 0 x.pub 0xC (stateWord (s.desc a) x.st)
      { x with pub := Tab.set 0 (Tab.set 0 t1 0x10 x.statusWord) 0x14 (w32 x.lastEvent) })) s

end Sys2Proof.Machine
end

