-- ==== Sys2Proof/Machine/EngineCore.lean ====
section
/-! DEFINITION. Machine/EngineCore.lean: the control engine's programming model (R132 to R148): registers, the
visibility of writes, modulo addressing, arithmetic, parallel moves, loops, branches and interrupts. An engine
instruction is executed by `engStep`, which fetches the word at the program counter and decodes it (R142). -/

namespace Sys2Proof.Machine

/-- Width of a register by its code (R133); none for a reserved code. -/
def regWidth (c : Nat) : Option Nat :=
  if c < 8 then some 32
  else if c = 0x08 ∨ c = 0x09 ∨ c = 0x0C ∨ c = 0x0D then some 32
  else if c = 0x0A ∨ c = 0x0E then some 16
  else if 0x10 ≤ c ∧ c ≤ 0x17 then some 13
  else if 0x18 ≤ c ∧ c ≤ 0x1F then some 32
  else if c = 0x20 ∨ c = 0x23 then some 11
  else if c = 0x21 ∨ c = 0x22 ∨ c = 0x24 ∨ c = 0x25 then some 14
  else if c = 0x28 then some 32
  else if c = 0x29 ∨ c = 0x2B then some 14
  else if c = 0x2A ∨ c = 0x2C then some 32
  else none

/-- Replaces the bits of `mask` by those of `v`. -/
def maskNat (old mask v : Nat) : Nat := (old - (old &&& mask)) ||| (v &&& mask)

/-- A register's bits, as the instruction about to execute sees them. -/
def Eng.reg (e : Eng) (c : Nat) : Nat := Tab.get 0 e.rf c

/-- Writes a register at once. -/
def Eng.setReg (e : Eng) (c v : Nat) : Eng := { e with rf := Tab.put e.rf c v }

/-- The accumulator as an accumulation sees it (R138): key 0x42 + a. -/
def Eng.accFast (e : Eng) (a : Nat) : Int := sgn 80 (e.reg (0x42 + a))
/-- The accumulator as any other read sees it (R138): key 0x40 + a. -/
def Eng.accSlow (e : Eng) (a : Nat) : Int := sgn 80 (e.reg (0x40 + a))

/-- Code under which ENDDO's write of LC is queued: the loop-end test takes it into account before it comes due (R141). -/
abbrev endDo : Nat := 0x120

/-- Applies one write that has come due. -/
def Eng.commit1 (e : Eng) (w : PendWrite) : Eng :=
  if w.reg = endDo then e.setReg 0x20 w.val
  else if 0x1000 ≤ w.reg then
    let a := w.reg - 0x1000
    if a < 0x800 then { e with x := Tab.put e.x a (w32 w.val) }
    else { e with fx := Tab.put e.fx (a % 0x100) (w32 w.val) }
  else e.setReg w.reg (maskNat (e.reg w.reg) w.mask w.val)

/-- Applies every write that the instruction numbered `seq` sees (R138). -/
def Eng.commit (e : Eng) : Eng :=
  let due := e.pend.filter (fun w => decide (w.from_ ≤ e.seq))
  let rest := e.pend.filter (fun w => !decide (w.from_ ≤ e.seq))
  { (due.foldl Eng.commit1 e) with pend := rest }

/-- Applies every write, as at EXIT (R153). -/
def Eng.drain (e : Eng) : Eng := { (e.pend.foldl Eng.commit1 e) with pend := [] }

/-- Queues a write seen from `d` instructions on. -/
def Eng.push (e : Eng) (d reg mask val : Nat) : Eng :=
  { e with pend := e.pend ++ [{ from_ := e.seq + d, reg := reg, mask := mask, val := val }] }

/-- All bits of a 32-bit register. -/
def full32 : Nat := 0xFFFFFFFF

/-- A field of SR (R137). -/
def Eng.sr (e : Eng) (hi lo : Nat) : Nat := e.reg 0x28 / 2 ^ lo % 2 ^ (hi + 1 - lo)

/-- Writes SR bits at once: IN_INT, OVR, URG and DEPTH, which the hardware keeps. -/
def Eng.setSr (e : Eng) (hi lo v : Nat) : Eng :=
  e.setReg 0x28 (maskNat (e.reg 0x28) ((2 ^ (hi + 1 - lo) - 1) * 2 ^ lo) (v * 2 ^ lo))

/-- Active DO loops. -/
def Eng.depth (e : Eng) : Nat := e.sr 9 8

/-- Value of a register by its code, as MOVR, STX and the stores read it (R133). -/
def Eng.readCode (e : Eng) (c : Nat) : Nat :=
  if c = 0x08 then e.reg 0x40 % 2 ^ 32
  else if c = 0x09 then e.reg 0x40 / 2 ^ 32 % 2 ^ 32
  else if c = 0x0A then (sgn 16 (e.reg 0x40 / 2 ^ 64) % 2 ^ 32).toNat
  else if c = 0x0C then e.reg 0x41 % 2 ^ 32
  else if c = 0x0D then e.reg 0x41 / 2 ^ 32 % 2 ^ 32
  else if c = 0x0E then (sgn 16 (e.reg 0x41 / 2 ^ 64) % 2 ^ 32).toNat
  else e.reg c

/-- Distance of R138 from which a write by MOVR, LDL, LDH, LDX or LDY to a register is seen. The distance of IPC and
ISR is not stated; they are taken as the other control registers (DESIGN CHOICE, log entry 20). -/
def regDist (c : Nat) : Nat := if c < 8 then 2 else if c = 0x28 then 2 else 3

/-- A write to SR by an instruction (R137): RND unless 3 is written, and SAT if it is written 0. -/
def Eng.writeSr (e : Eng) (mask v : Nat) : Eng :=
  let rnd := v / 64 % 4
  let e1 := if mask.testBit 6 && decide (rnd ≠ 3) then e.push 2 0x28 0xC0 (rnd * 64) else e
  if mask.testBit 4 && !v.testBit 4 then e1.push 2 0x28 0x10 0 else e1

/-- A write of the bits of `mask` to a register by code (R133, R138). JOB is read-only. -/
def Eng.writeCode (e : Eng) (c mask v : Nat) : Eng :=
  let accPart (a sh wd : Nat) : Eng :=
    let m := (mask % 2 ^ wd) * 2 ^ sh
    let vv := (v % 2 ^ wd) * 2 ^ sh
    let e1 := e.setReg (0x42 + a) (maskNat (e.reg (0x42 + a)) m vv)
    e1.push 2 (0x40 + a) m vv
  if c = 0x08 then accPart 0 0 32
  else if c = 0x09 then accPart 0 32 32
  else if c = 0x0A then accPart 0 64 16
  else if c = 0x0C then accPart 1 0 32
  else if c = 0x0D then accPart 1 32 32
  else if c = 0x0E then accPart 1 64 16
  else if c = 0x28 then e.writeSr mask v
  else if c = 0x2C then e
  else
    match regWidth c with
    | some w => e.push (regDist c) c (mask % 2 ^ w) (v % 2 ^ w)
    | none => e

/-- Modulo post-modification of an address register (R134). -/
def modAdvance (a m : Nat) : Nat :=
  let l := m / 2 ^ 16
  let inc := sgn 16 m
  if l = 0 then (((a : Int) + inc) % 8192).toNat
  else
    let k := if l ≤ 1 then 0 else Nat.log2 (l - 1) + 1
    let b := a / 2 ^ k * 2 ^ k
    b + ((((a : Int) - (b : Int)) + inc) % (l : Int)).toNat

/-- Frame base word address (R132). -/
def frameBase (f : Nat) : Nat := 0x0800 + 0x100 * f

/-- Whether an X or Y address lies in the area the job may access (R132, R148 FRAME). -/
def accessOk (f a : Nat) : Bool :=
  decide (a < 0x0800) || (decide (frameBase f ≤ a) && decide (a < frameBase f + 0x100))

/-- The word of X memory that the instruction sees. -/
def Eng.xRead (e : Eng) (a : Nat) : Nat :=
  if a < 0x0800 then (Tab.get 0 e.x a).toNat else (Tab.get 0 e.fx (a % 0x100)).toNat

/-- The word of Y memory: constants or the job's frame. -/
def Eng.yRead (ymem : Tab Word) (e : Eng) (a : Nat) : Nat :=
  if a < 0x0800 then (Tab.get 0 ymem a).toNat else (Tab.get 0 e.fy (a % 0x100)).toNat

/-- Rounding at bit 30 under SR.RND, with bits 30 to 0 cleared (R135, R137). -/
def roundAcc (rnd : Nat) (v : Int) : Int :=
  let fl := v / 2 ^ 31
  let r := v % 2 ^ 31
  if rnd = 1 then (if 2 ^ 30 ≤ r then fl + 1 else fl) * 2 ^ 31
  else if rnd = 2 then
    (if 2 ^ 30 < r ∨ (r = 2 ^ 30 ∧ fl % 2 = 1) then fl + 1 else fl) * 2 ^ 31
  else fl * 2 ^ 31

/-- How one instruction leaves the engine. -/
inductive EngOut where
  | run   (e : Eng)                    -- goes on
  | fault (kind pc : Nat) (e : Eng)    -- engine fault of R148
  | exit  (e : Eng)                    -- EXIT executed
  | abort (pc : Nat) (e : Eng)         -- ABORT outside the overrun handler
  | overrunEnd (e : Eng)               -- ABORT or RTI in the overrun handler
deriving DecidableEq, Repr

/-- A write of a D register queued with those of the same instruction; a register written twice by one instruction
holds a value the spec does not state (log entry 21). -/
def Eng.pushD (free : Nat) (e : Eng) (ws : List (Nat × Nat)) : Eng :=
  ws.foldl (fun e w =>
    let twice := decide (1 < (ws.filter (fun u => decide (u.1 = w.1))).length)
    e.push 2 w.1 full32 (if twice then free % 2 ^ 32 else w.2)) e

/-- An accumulator result: the fast view at once, the slow view two instructions on, AV with it (R137, R138). The
accumulator holds 80 bits; sums wrap. -/
def Eng.putAcc (e : Eng) (a : Nat) (v : Int) : Eng :=
  let n := (v % 2 ^ 80).toNat
  let w := sgn 80 n
  let av := if w < -(2 ^ 63) ∨ 2 ^ 63 - 1 < w then 8 else 0
  ((e.setReg (0x42 + a) n).push 2 (0x40 + a) (2 ^ 80 - 1) n).push 2 0x28 8 av

/-- N and Z of a result (R137). -/
def Eng.pushNZ (e : Eng) (v : Int) : Eng :=
  e.push 2 0x28 3 ((if v < 0 then 2 else 0) + (if v = 0 then 1 else 0))

/-- Sets SAT if the value was out of range. -/
def Eng.pushSat (e : Eng) (sat : Bool) : Eng := if sat then e.push 2 0x28 0x10 0x10 else e

/-- The bits of a signed value. -/
def bitsOf (k : Nat) (v : Int) : Nat := (v % 2 ^ k).toNat

/-- Instruction word fields. -/
def wf (w hi lo : Nat) : Nat := w / 2 ^ lo % 2 ^ (hi + 1 - lo)

/-- Operation code of an instruction word (R142). -/
def opcodeOf (w : Nat) : Nat := wf w 31 26

/-- Whether an operation code is listed in R143. -/
def opListed (op : Nat) : Bool :=
  decide (op ≤ 0x1E) || op == 0x20 || op == 0x21 || (decide (0x28 ≤ op) && decide (op ≤ 0x2B)) ||
    (decide (0x30 ≤ op) && decide (op ≤ 0x38)) || (decide (0x3C ≤ op) && decide (op ≤ 0x3E))

/-- Operations forbidden in delay slots and at the end of a loop body (R139, R141). -/
def opForbidden (op : Nat) : Bool := decide (0x30 ≤ op)

/-- COND of R144; none for a value not listed. -/
def condHolds (e : Eng) (c : Nat) : Option Bool :=
  let n := decide (e.sr 1 1 = 1)
  let z := decide (e.sr 0 0 = 1)
  let sat := decide (e.sr 4 4 = 1)
  let av := decide (e.sr 3 3 = 1)
  match c with
  | 0x0 => some true
  | 0x1 => some z
  | 0x2 => some !z
  | 0x3 => some n
  | 0x4 => some !n
  | 0x5 => some (n || z)
  | 0x6 => some (!n && !z)
  | 0x7 => some sat
  | 0x8 => some !sat
  | 0x9 => some (decide (e.sr 31 31 = 1))
  | 0xA => some av
  | 0xB => some !av
  | _ => none

/-- The parallel move (R142) of an M or R instruction: the D registers it loads and the engine after its store and
post-modifications, or the fault it raises. -/
def parMove (ymem : Tab Word) (f w : Nat) (e : Eng) : Except Nat (List (Nat × Nat) × Eng) :=
  let xm := wf w 15 14; let xi := wf w 13 12; let xd := wf w 11 9
  let ym := wf w 8 7; let yi := wf w 6 5; let yd := wf w 4 2
  let xa := e.reg (0x10 + xi); let ya := e.reg (0x14 + yi)
  if ym = 3 then .error 1
  else if xm ≠ 0 ∧ accessOk f xa = false then .error 2
  else if ym ≠ 0 ∧ accessOk f ya = false then .error 2
  else
    let lx := if xm = 1 ∨ xm = 3 then [(xd, e.xRead xa)] else []
    let ly := if ym = 1 ∨ ym = 2 then [(yd, Eng.yRead ymem e ya)] else []
    let e1 := if xm = 2 then e.push 3 (0x1000 + xa) full32 (e.reg xd) else e
    let e2 := if xm = 1 ∨ xm = 2 then e1.setReg (0x10 + xi) (modAdvance xa (e.reg (0x18 + xi))) else e1
    let e3 := if ym = 1 then e2.setReg (0x14 + yi) (modAdvance ya (e.reg (0x1C + yi))) else e2
    .ok (lx ++ ly, e3)

/-- The operands of MPYM and MACM (R142): read through XI and YI, post-modified where XM or YM is 01. -/
def memOperands (ymem : Tab Word) (f w : Nat) (e : Eng) : Except Nat (Int × Int × Eng) :=
  let xm := wf w 15 14; let xi := wf w 13 12
  let ym := wf w 8 7; let yi := wf w 6 5
  let xa := e.reg (0x10 + xi); let ya := e.reg (0x14 + yi)
  if xm = 2 ∨ ym = 3 then .error 1
  else if accessOk f xa = false ∨ accessOk f ya = false then .error 2
  else
    let x := sgn 32 (e.xRead xa)
    let y := sgn 32 (Eng.yRead ymem e ya)
    let e1 := if xm = 1 then e.setReg (0x10 + xi) (modAdvance xa (e.reg (0x18 + xi))) else e
    let e2 := if ym = 1 then e1.setReg (0x14 + yi) (modAdvance ya (e.reg (0x1C + yi))) else e1
    .ok (x, y, e2)

/-- The accumulator result of an M-format operation (R143), from the product and the accumulator. -/
def accOp (op rnd : Nat) (acc : Int) (p : Int) : Int :=
  if op = 0x01 ∨ op = 0x04 ∨ op = 0x06 then p
  else if op = 0x03 then roundAcc rnd (acc + p)
  else if op = 0x05 then acc / 2 ^ 32 + p
  else acc + p

/-- An M-format instruction (R143). -/
def execM (ymem : Tab Word) (free f op w : Nat) (e : Eng) : Except Nat Eng :=
  let a := wf w 25 25
  let neg := wf w 24 24
  let s1 := e.reg (wf w 23 21)
  let s2 := e.reg (wf w 20 18)
  let rnd := e.sr 7 6
  if op = 0x06 ∨ op = 0x07 then
    match memOperands ymem f w e with
    | .error k => .error k
    | .ok (x, y, e1) =>
      let p := if neg = 1 then -(x * y) else x * y
      .ok (e1.putAcc a (accOp op rnd (e.accFast a) p))
  else
    match parMove ymem f w e with
    | .error k => .error k
    | .ok (ds, e1) =>
      let e2 := e1.pushD free ds
      if op = 0x00 then .ok e2
      else
        let m := if op = 0x04 then (s1 : Int) * sgn 32 s2 else sgn 32 s1 * sgn 32 s2
        let p := if neg = 1 then -m else m
        .ok (e2.putAcc a (accOp op rnd (e.accFast a) p))

/-- The D-register result of an R-format operation (R143): the value before saturation, and whether it saturates. -/
def dResult (op : Nat) (s1 s2 : Nat) : Option Int :=
  let x := sgn 32 s1; let y := sgn 32 s2; let n := s2 % 32
  match op with
  | 0x08 => some (x + y)
  | 0x09 => some (x - y)
  | 0x0C => some (if x < 0 then -x else x)
  | 0x0D => some (-x)
  | 0x0E => some (if x ≤ y then x else y)
  | 0x0F => some (if x ≤ y then y else x)
  | 0x10 => some (sgn 32 (s1 &&& s2))
  | 0x11 => some (sgn 32 (s1 ||| s2))
  | 0x12 => some (sgn 32 (s1 ^^^ s2))
  | 0x13 => some (x * 2 ^ n)
  | 0x14 => some (x / 2 ^ n)
  | 0x15 => some (sgn 32 (s1 / 2 ^ n))
  | _ => none

/-- An R-format instruction (R135, R143). -/
def execR (ymem : Tab Word) (free f op w : Nat) (e : Eng) : Except Nat Eng :=
  let dd := wf w 25 23
  let s1 := e.reg (wf w 22 20)
  let s2 := e.reg (wf w 19 17)
  let a := wf w 16 16
  match parMove ymem f w e with
  | .error k => .error k
  | .ok (ds, e1) =>
    match dResult op s1 s2 with
    | some v =>
      let r := satS 32 v
      let e2 := e1.pushD free ((dd, bitsOf 32 r) :: ds)
      .ok ((e2.pushSat (decide (r ≠ v))).pushNZ r)
    | none =>
      let e2 := e1.pushD free ds
      let acc := e.accFast a
      let slow := e.accSlow a
      if op = 0x0A then .ok (e2.putAcc a (acc + sgn 32 s1 * 2 ^ 31))
      else if op = 0x0B then .ok (e2.putAcc a (acc - sgn 32 s1 * 2 ^ 31))
      else if op = 0x16 then .ok (e2.pushNZ (sgn 32 s1 - sgn 32 s2))
      else if op = 0x17 then .ok (e2.putAcc a 0)
      else if op = 0x18 then
        let sh := sgn 7 s1
        let v := if 0 ≤ sh then acc * 2 ^ sh.toNat else acc / 2 ^ (-sh).toNat
        let r := satS 80 v
        .ok ((e2.putAcc a r).pushSat (decide (r ≠ v)))
      else if op = 0x19 then
        let v := roundAcc (e.sr 7 6) slow / 2 ^ 31
        let r := satS 32 v
        .ok ((e1.pushD free ((dd, bitsOf 32 r) :: ds)).pushSat (decide (r ≠ v)))
      else if op = 0x1A ∨ op = 0x1B then
        let v := slow * 2
        let r := satS 64 v
        let b := bitsOf 64 r
        .ok ((e1.pushD free ((dd, if op = 0x1A then b / 2 ^ 32 else b % 2 ^ 32) :: ds)).pushSat (decide (r ≠ v)))
      else if op = 0x1C then .ok (e2.putAcc a (roundAcc (e.sr 7 6) acc))
      else if op = 0x1D then .ok (e2.putAcc a (e.accSlow (1 - a)))
      else .ok (e2.putAcc a (sgn 32 s1 * 2 ^ 31))

/-- An I-format instruction, LDH or LDL (R143). -/
def execI (op w : Nat) (e : Eng) : Except Nat Eng :=
  let c := wf w 25 20
  let imm := wf w 15 0
  match regWidth c with
  | none => .error 1
  | some wd =>
    if op = 0x20 then
      .ok (if wd ≤ 16 then e else e.writeCode c 0xFFFF0000 (imm * 2 ^ 16))
    else if wd ≤ 16 then .ok (e.writeCode c full32 imm)
    else .ok (e.writeCode c 0xFFFF imm)

/-- An L-format instruction: MOVR, LDX, STX or LDY (R143). -/
def execL (ymem : Tab Word) (f op w : Nat) (e : Eng) : Except Nat Eng :=
  let c := wf w 25 20
  let disp := sgn 14 w
  if regWidth c = none then .error 1
  else if op = 0x28 then
    let src := wf w 19 14
    if regWidth src = none then .error 1
    else .ok (e.writeCode c full32 (e.readCode src))
  else
    let ar := wf w 19 18
    let base := if op = 0x2B then e.reg (0x14 + ar) else e.reg (0x10 + ar)
    let a := (((base : Int) + disp) % 8192).toNat
    if accessOk f a = false then .error 2
    else if op = 0x29 then .ok (e.writeCode c full32 (e.xRead a))
    else if op = 0x2A then .ok (e.push 3 (0x1000 + a) full32 (e.readCode c))
    else .ok (e.writeCode c full32 (Eng.yRead ymem e a))

/-- ENDDO has been executed in the present iteration and its write of LC is still under way. -/
def Eng.endDue (e : Eng) : Bool := e.pend.any (fun w => decide (w.reg = endDo))

/-- Without that write. -/
def Eng.endDone (e : Eng) : Eng := { e with pend := e.pend.filter (fun w => decide (w.reg ≠ endDo)) }

/-- LE as it stands once every write under way has come due: the end of the innermost loop body. -/
def Eng.leNow (e : Eng) : Nat := ((e.pend.filter (fun w => decide (w.reg = 0x22))).foldl Eng.commit1 e).reg 0x22

/-- Start of a DO or DOD (R141): counts `n`, end `last`; `e.pc` is still the DO's own address. -/
def startLoop (n last : Nat) (e : Eng) : Except Nat Eng :=
  if 2 ≤ e.depth then .error 1
  else if last ≤ e.pc then .error 1
  else
    let e1 := if e.depth = 1 then
        ((e.endDone.push 3 0x23 0x7FF (if e.endDue then 1 else e.reg 0x20)).push 3 0x24 0x3FFF (e.reg 0x21)).push 3 0x25 0x3FFF (e.reg 0x22)
      else e
    let e2 := ((e1.push 3 0x20 0x7FF n).push 3 0x21 0x3FFF (e.pc + 1)).push 3 0x22 0x3FFF last
    .ok (e2.setSr 9 8 (e.depth + 1))

/-- A count from a D register (R140, R141): bits 10 to 0, clamped to 1,024. -/
def dCount (v : Nat) : Nat := min 1024 (v % 2048)

/-- A count from an immediate field, 0 standing for 1,024. -/
def immCount (v : Nat) : Nat := if v = 0 then 1024 else v

/-- Clocks of an instruction (R143). -/
def opClocks (op : Nat) : Nat :=
  if op = 0x34 ∨ op = 0x35 then 2 else if op = 0x3C then 4 else if op = 0x3E then 3 else 1

/-- SR with every write of the instructions executed so far. -/
def Eng.srDone (e : Eng) : Nat := ((e.pend.filter (fun w => decide (w.reg = 0x28))).foldl Eng.commit1 e).reg 0x28

/-- Takes an interrupt (R146): URGENT_STOP or CYCLE_OVERRUN. SR is saved with the flags of every instruction before the
boundary (DEDUCED, log entry 20). -/
def Eng.takeInt (ovr : Bool) (e : Eng) : Eng :=
  let e1 := (e.setReg 0x29 e.pc).setReg 0x2A e.srDone
  let e2 := e1.setSr 30 30 1
  let e3 := if ovr then { e2.setSr 29 29 1 with ovrPend := false, ovrDone := true }
            else { e2.setSr 31 31 1 with urgPend := false, urgDone := true }
  { e3 with pc := if ovr then 0x0008 else 0x0000, cost := e3.cost + 3 }

/-- Takes whichever interrupt waits, at an instruction boundary outside a REP and outside delay slots (R145, R146). -/
def Eng.takePending (e : Eng) : Eng :=
  if e.branch.isSome ∨ e.slots ≠ 0 ∨ e.rep ≠ 0 ∨ e.job.isNone then e
  else if e.ovrPend then e.takeInt true
  else if e.urgPend ∧ e.sr 29 29 = 0 then e.takeInt false
  else e

/-- What follows an executed instruction: the repetition count, the delay slots, the loop-end test (R140, R141). `op`
is the operation executed, `atEnd` whether the loop-end test was made at its fetch. -/
def Eng.advance (atEnd : Bool) (e : Eng) : Eng :=
  if 1 < e.rep then { e with rep := e.rep - 1 }
  else
    let e0 := { e with rep := 0, slots := e.slots - 1 }
    -- loop end
    let lc := e0.reg 0x20
    let e1 := if !atEnd then { e0 with pc := e0.pc + 1 }
      else if 1 < lc ∧ e0.endDue = false then
        let body := e0.reg 0x22 + 1 - e0.reg 0x21
        { e0.setReg 0x20 (lc - 1) with pc := e0.reg 0x21, cost := e0.cost + (if 16 < body then 2 else 0) }
      else
        let e2 := ((e0.endDone.setReg 0x20 (e0.reg 0x23)).setReg 0x21 (e0.reg 0x24)).setReg 0x22 (e0.reg 0x25)
        { e2.setSr 9 8 (e2.depth - 1) with pc := e0.pc + 1 }
    match e0.branch with
    | some (t, 1) => { e1 with pc := t, branch := none }
    | some (t, k + 1) => { e1 with branch := some (t, k) }
    | _ => e1

/-- Whether the loop-end test is made at the fetch at the present program counter (R141, R146). -/
def Eng.loopEnd (e : Eng) : Bool :=
  decide (e.depth ≠ 0) && decide (e.sr 30 30 = 0) && decide (e.pc = e.reg 0x22) && decide (e.rep ≤ 1)

/-- Whether the program counter stands in the last two instructions of a loop body (R141). -/
def Eng.inEndRegion (e : Eng) : Bool :=
  decide (e.depth ≠ 0) && decide (e.sr 30 30 = 0) && (decide (e.pc = e.leNow) || decide (e.pc + 1 = e.leNow))

/-- SR as RTI restores it from ISR (R146): URG stays, reserved bits stay 0, and a RND or DEPTH of 3, which SR does not hold (R137), leaves
its field unchanged. -/
def Eng.srBack (isr : Nat) (e : Eng) : Nat :=
  let keep := 0x80000000 + (if isr / 64 % 4 = 3 then 0xC0 else 0) + (if isr / 256 % 4 = 3 then 0x300 else 0)
  maskNat (e.reg 0x28) (0xE00003DB - keep) isr

/-- Executes the word `w` on an engine whose due writes are committed. -/
def engExec (ymem : Tab Word) (free f w : Nat) (e : Eng) : EngOut :=
  let op := opcodeOf w
  let done (r : Except Nat Eng) : EngOut :=
    match r with
    | .error k => .fault k e.pc e
    | .ok e1 => .run ((({ e1 with cost := e1.cost + opClocks op, seq := e1.seq + 1 }).advance e.loopEnd).takePending)
  -- a control instruction that changes the program counter itself
  let jump (e1 : Eng) : EngOut :=
    .run (({ e1 with cost := e1.cost + opClocks op, seq := e1.seq + 1 }).takePending)
  if opListed op = false then .fault 1 e.pc e
  else if opForbidden op && (e.branch.isSome || decide (e.slots ≠ 0) || e.inEndRegion) then .fault 1 e.pc e
  else if e.rep ≠ 0 ∧ 0x1E < op then .fault 1 e.pc e
  else if op ≤ 0x07 then done (execM ymem free f op w e)
  else if op ≤ 0x1E then done (execR ymem free f op w e)
  else if op ≤ 0x21 then done (execI op w e)
  else if op ≤ 0x2B then done (execL ymem f op w e)
  else if op = 0x30 then done (.ok { e with branch := some (wf w 13 0, 3) })
  else if op = 0x31 then
    match condHolds e (wf w 25 22) with
    | none => .fault 1 e.pc e
    | some b => done (.ok (if b then { e with branch := some (wf w 13 0, 3) } else { e with slots := 3 }))
  else if op = 0x32 then done (.ok { (e.push 3 0x2B 0x3FFF (e.pc + 3)) with branch := some (wf w 13 0, 3) })
  else if op = 0x33 then done (.ok { e with branch := some (e.reg 0x2B, 3) })
  else if op = 0x34 then done (startLoop (immCount (wf w 25 16)) (wf w 13 0) e)
  else if op = 0x35 then
    let n := dCount (e.reg (wf w 25 23))
    match startLoop n (wf w 13 0) e with
    | .error k => .fault k e.pc e
    | .ok e1 => if n = 0 then jump { e with pc := wf w 13 0 + 1 } else done (.ok e1)
  else if op = 0x36 then
    jump { e with rep := immCount (wf w 25 16), pc := e.pc + 1 }
  else if op = 0x37 then
    let n := dCount (e.reg (wf w 25 23))
    jump (if n = 0 then { e with pc := e.pc + 2 } else { e with rep := n, pc := e.pc + 1 })
  else if op = 0x38 then done (.ok (e.push 3 endDo 0x7FF 1))
  else if op = 0x3C then
    .exit { (Eng.drain e) with exited := true, cost := e.cost + 4 + 8, seq := e.seq + 1 }
  else if e.sr 29 29 = 1 then .overrunEnd { e with cost := e.cost + opClocks op, seq := e.seq + 1 }
  else if op = 0x3D then .abort e.pc { e with cost := e.cost + 1, seq := e.seq + 1 }
  else
    -- RTI: the program counter from IPC, SR from ISR (R146); flags still under way in the handler end there
    jump { (e.setReg 0x28 (e.srBack (e.reg 0x2A))) with pc := e.reg 0x29, pend := e.pend.filter (fun w => decide (w.reg ≠ 0x28)) }

/-- One instruction of an engine: fetch (fault PC beyond the image's kernel code), decode, execute. -/
def engStep (pmem : Tab Word) (used : Nat) (ymem : Tab Word) (free f : Nat) (e0 : Eng) : EngOut :=
  let e := e0.commit
  if used ≤ e.pc then .fault 4 e.pc e
  else engExec ymem free f (Tab.get 0 pmem e.pc).toNat e

/-- The instruction at hand accesses the job's own frame slot (R537): a load or store of L format, a parallel move, or
the operands of MPYM and MACM. -/
def ownAccess (f w : Nat) (e : Eng) : Bool :=
  let own := fun a => decide (frameBase f ≤ a) && decide (a < frameBase f + 0x100)
  let op := opcodeOf w
  let xa := e.reg (0x10 + wf w 13 12)
  let ya := e.reg (0x14 + wf w 6 5)
  if op = 0x06 ∨ op = 0x07 then own xa || own ya
  else if op ≤ 0x1E then (decide (wf w 15 14 ≠ 0) && own xa) || (decide (wf w 8 7 ≠ 0) && own ya)
  else if 0x29 ≤ op ∧ op ≤ 0x2B then
    let base := if op = 0x2B then e.reg (0x14 + wf w 19 18) else e.reg (0x10 + wf w 19 18)
    own (((base : Int) + sgn 14 w) % 8192).toNat
  else false

/-- The engine's registers at job entry (R152). -/
def Eng.enter (entry f jobWord : Nat) (urg : Bool) (fx fy : Tab Word) (e : Eng) : Eng :=
  { e with
    pc := entry
    rf := [(0x10, frameBase f), (0x14, frameBase f), (0x18, 1), (0x19, 1), (0x1A, 1), (0x1B, 1), (0x1C, 1),
           (0x1D, 1), (0x1E, 1), (0x1F, 1), (0x28, if urg then 0x80000000 else 0), (0x2C, jobWord)]
    fx := fx, fy := fy, pend := [], seq := 0, cost := 8, branch := none, slots := 0, rep := 0,
    urgPend := false, ovrPend := false, urgDone := urg, ovrDone := false, exited := false }

/-- JOB (R152). -/
def jobWord (j : Job) (kind : Nat) : Nat :=
  j.kset % 64 * 2 ^ 16 + b2n j.epoch * 2 ^ 14 + b2n (j.swap || j.epoch) * 2 ^ 12 + b2n j.extrap * 2 ^ 11 +
    j.half % 2 * 2 ^ 10 + kind % 4 * 2 ^ 8 + j.axis % 256

end Sys2Proof.Machine
end

