-- ==== Sys2Proof/Machine/Crypto.lean ====
section
/-! DEFINITION. Machine/Crypto.lean: SHA-256 (FIPS 180-4) and the check of an ECDSA signature over P-256
(FIPS 186-5), which R407, R416 and R417 name. -/

namespace Sys2Proof.Machine

/-- The whole part of the `k`-th root of `n`, below 2^36: each bit from the highest stands where the power still fits. -/
def wholeRoot (k n : Nat) : Nat :=
  (List.range 36).foldl (fun r i => if (r + 2 ^ (35 - i)) ^ k ≤ n then r + 2 ^ (35 - i) else r) 0

/-- The primes below 312: there are 64 of them. -/
def smallPrimes : List Nat :=
  (List.range 312).filter (fun p => decide (2 ≤ p) && (List.range 18).all (fun d => decide (d < 2 ∨ p ≤ d) || decide (p % d ≠ 0)))

/-- The first 32 bits of the fraction of the `k`-th root of a number, from which FIPS 180-4 takes its constants. -/
def rootFraction (k p : Nat) : Nat := wholeRoot k (p * 2 ^ (32 * k)) % 2 ^ 32

/-- The round constants: fractions of the cube roots of the first 64 primes. -/
def shaK : List Nat := smallPrimes.map (rootFraction 3)

/-- Rotation of a 32-bit number to the right. -/
def rotr (x n : Nat) : Nat := (x / 2 ^ n + x * 2 ^ (32 - n)) % 2 ^ 32

/-- The working variables of a SHA-256 block. -/
structure Sha where
  a : Nat
  b : Nat
  c : Nat
  d : Nat
  e : Nat
  f : Nat
  g : Nat
  h : Nat
deriving DecidableEq, Repr

/-- One round with round constant `k` and schedule word `w`. -/
def Sha.round (s : Sha) (k w : Nat) : Sha :=
  let s1 := rotr s.e 6 ^^^ rotr s.e 11 ^^^ rotr s.e 25
  let ch := (s.e &&& s.f) ^^^ ((0xFFFFFFFF - s.e) &&& s.g)
  let t1 := s.h + s1 + ch + k + w
  let s0 := rotr s.a 2 ^^^ rotr s.a 13 ^^^ rotr s.a 22
  let mj := (s.a &&& s.b) ^^^ (s.a &&& s.c) ^^^ (s.b &&& s.c)
  { a := (t1 + s0 + mj) % 2 ^ 32, b := s.a, c := s.b, d := s.c,
    e := (s.d + t1) % 2 ^ 32, f := s.e, g := s.f, h := s.g }

/-- The 64 rounds; `w` holds the last 16 schedule words, oldest first. -/
def Sha.rounds : List Nat → List Nat → Sha → Sha
  | [], _, s => s
  | k :: ks, w, s =>
    match w with
    | [] => s
    | w0 :: rest =>
      let w1 := rest.getD 0 0
      let w9 := rest.getD 8 0
      let w14 := rest.getD 13 0
      let g0 := rotr w1 7 ^^^ rotr w1 18 ^^^ (w1 / 2 ^ 3)
      let g1 := rotr w14 17 ^^^ rotr w14 19 ^^^ (w14 / 2 ^ 10)
      Sha.rounds ks (rest ++ [(w0 + g0 + w9 + g1) % 2 ^ 32]) (s.round k w0)

/-- Adds the chaining value. -/
def Sha.add (s t : Sha) : Sha :=
  { a := (s.a + t.a) % 2 ^ 32, b := (s.b + t.b) % 2 ^ 32, c := (s.c + t.c) % 2 ^ 32, d := (s.d + t.d) % 2 ^ 32,
    e := (s.e + t.e) % 2 ^ 32, f := (s.f + t.f) % 2 ^ 32, g := (s.g + t.g) % 2 ^ 32, h := (s.h + t.h) % 2 ^ 32 }

/-- A big-endian number of bytes. -/
def beNat (bs : List Byte) : Nat := bs.foldl (fun n b => n * 256 + b.toNat) 0

/-- `n` big-endian bytes of a number. -/
def beBytes (n v : Nat) : List Byte := (leBytes n v).reverse

/-- `n` big-endian 32-bit words of a byte list. -/
def beWords : Nat → List Byte → List Nat
  | 0, _ => []
  | n + 1, bs => beNat (bs.take 4) :: beWords n (bs.drop 4)

/-- Blocks of a padded message, `n` of them. -/
def Sha.blocks : Nat → List Byte → Sha → Sha
  | 0, _, s => s
  | n + 1, bs, s => Sha.blocks n (bs.drop 64) (s.add (Sha.rounds shaK (beWords 16 bs) s))

/-- SHA-256 of a byte list: 32 bytes. -/
def sha256 (bs : List Byte) : List Byte :=
  let len := bs.length
  let nb := (len + 9 + 63) / 64
  let msg := bs ++ [(0x80 : Byte)] ++ List.replicate (nb * 64 - len - 9) 0 ++ beBytes 8 (len * 8)
  let r := (smallPrimes.take 8).map (rootFraction 2)
  let s0 : Sha := { a := r.getD 0 0, b := r.getD 1 0, c := r.getD 2 0, d := r.getD 3 0
                    e := r.getD 4 0, f := r.getD 5 0, g := r.getD 6 0, h := r.getD 7 0 }
  let s := Sha.blocks nb msg s0
  [s.a, s.b, s.c, s.d, s.e, s.f, s.g, s.h].flatMap (beBytes 4)

/-! P-256. -/

/-- The field prime of P-256. -/
def p256P : Nat := 0xffffffff00000001000000000000000000000000ffffffffffffffffffffffff
/-- The order of the base point. -/
def p256N : Nat := 0xffffffff00000000ffffffffffffffffbce6faada7179e84f3b9cac2fc632551
/-- The curve coefficient b. -/
def p256B : Nat := 0x5ac635d8aa3a93e7b3ebbd55769886bc651d06b0cc53b0f63bce3c3e27d2604b
/-- The base point. -/
def p256G : Nat × Nat :=
  (0x6b17d1f2e12c4247f8bce6e563a440f277037d812deb33a0f4a13945d898c296,
   0x4fe342e2fe1a7f9b8ee7eb4a7c0f9e162bce33576b315ececbb6406837bf51f5)

/-- Power modulo `m`, by `fuel` bits of the exponent. -/
def powMod (m : Nat) : Nat → Nat → Nat → Nat → Nat
  | 0, _, _, acc => acc
  | fuel + 1, b, e, acc =>
    powMod m fuel (b * b % m) (e / 2) (if e % 2 = 1 then acc * b % m else acc)

/-- The inverse modulo a prime. -/
def invMod (m a : Nat) : Nat := powMod m 256 (a % m) (m - 2) 1

/-- A point in Jacobian coordinates; z = 0 is the point at infinity. -/
structure Jac where
  x : Nat
  y : Nat
  z : Nat
deriving DecidableEq, Repr

/-- Subtraction in the field. -/
def fsub (a b : Nat) : Nat := (a + (p256P - b % p256P)) % p256P

/-- Doubling (the curve coefficient a is -3). -/
def Jac.dbl (q : Jac) : Jac :=
  let d := q.z * q.z % p256P
  let g := q.y * q.y % p256P
  let b := q.x * g % p256P
  let al := 3 * (fsub q.x d * ((q.x + d) % p256P) % p256P) % p256P
  let x3 := fsub (al * al % p256P) (8 * b)
  let z3 := 2 * q.y * q.z % p256P
  let y3 := fsub (al * fsub (4 * b % p256P) x3 % p256P) (8 * (g * g % p256P))
  { x := x3, y := y3, z := z3 }

/-- Addition. -/
def Jac.plus (p q : Jac) : Jac :=
  if p.z % p256P = 0 then q else if q.z % p256P = 0 then p else
  let z1 := p.z * p.z % p256P
  let z2 := q.z * q.z % p256P
  let u1 := p.x * z2 % p256P
  let u2 := q.x * z1 % p256P
  let s1 := p.y * (q.z * z2 % p256P) % p256P
  let s2 := q.y * (p.z * z1 % p256P) % p256P
  let h := fsub u2 u1
  let r := fsub s2 s1
  if h = 0 then (if r = 0 then p.dbl else { x := 1, y := 1, z := 0 }) else
  let h2 := h * h % p256P
  let h3 := h * h2 % p256P
  let v := u1 * h2 % p256P
  let x3 := fsub (fsub (r * r % p256P) h3) (2 * v)
  let y3 := fsub (r * fsub v x3 % p256P) (s1 * h3 % p256P)
  { x := x3, y := y3, z := h * (p.z * q.z % p256P) % p256P }

/-- Multiplication by a scalar of `fuel` bits. -/
def Jac.mul : Nat → Nat → Jac → Jac → Jac
  | 0, _, _, acc => acc
  | fuel + 1, k, q, acc => Jac.mul fuel (k / 2) q.dbl (if k % 2 = 1 then acc.plus q else acc)

/-- The check of an ECDSA P-256 signature (r, s) by the public key (x, y) over a SHA-256 digest. -/
def ecdsaOk (x y r s : Nat) (digest : List Byte) : Bool :=
  if r = 0 ∨ p256N ≤ r ∨ s = 0 ∨ p256N ≤ s then false
  else if p256P ≤ x ∨ p256P ≤ y then false
  else if y * y % p256P ≠ (x * x % p256P * x + (p256P - 3) * x + p256B) % p256P then false
  else
    let w := invMod p256N s
    let inf : Jac := { x := 1, y := 1, z := 0 }
    let u1 := beNat digest * w % p256N
    let u2 := r * w % p256N
    let q := (Jac.mul 256 u1 { x := p256G.1, y := p256G.2, z := 1 } inf).plus
      (Jac.mul 256 u2 { x := x, y := y, z := 1 } inf)
    if q.z % p256P = 0 then false
    else
      let zi := invMod p256P q.z
      let ax := q.x * (zi * zi % p256P) % p256P
      decide (ax % p256N = r)

end Sys2Proof.Machine
end

