-- ==== Sys2Proof/Machine/LoadCore.lean ====
section
/-! DEFINITION. Machine/LoadCore.lean: the layout of a line image (R413 to R418), the peer records (R429) and the load checks
0x01 to 0x05 of R424, over an image's bytes and the contents of its sections. -/

namespace Sys2Proof.Machine

/-- The life-cycle state (R402, R403): SERVICE when an odd number of toggle fuses are blown. -/
def Fuses.state (f : Fuses) : Nat := if f.lc = 3 ∧ f.toggles % 2 = 1 then 4 else f.lc

/-- The device runs firmware without configuration (R402). -/
def Fuses.noConfig (f : Fuses) : Bool := decide (f.state = 1 ∨ f.state = 5)

/-! ### Header and directory (R414, R415) -/

/-- Largest image: 32 MiB (R413). -/
abbrev imgMax : Nat := 0x2000000

/-- Number of directory entries. -/
def imgSections (bs : List Byte) : Nat := leAt bs 6 2
/-- Epoch of the header. -/
def imgEpoch (bs : List Byte) : Nat := leAt bs 12 4
/-- Build stamp of the header. -/
def imgBuild (bs : List Byte) : Nat := leAt bs 16 8
/-- The candle of the header. -/
def imgCandle (bs : List Byte) : List Byte := (bs.drop 24).take 32

/-- The header passes MAGIC, FORMAT and IMAGE_LEN (R420). IMAGE_LEN counts from the header start to the end of the signature
block, which follows the directory (R414, R416). -/
def imgHeaderOk (bs : List Byte) : Bool :=
  let n := imgSections bs
  decide (128 ≤ bs.length) && decide (leAt bs 0 4 = 0x514D4947) && decide (leAt bs 4 2 = 1)
    && decide (leAt bs 8 4 = 256 + 64 * n) && decide (256 + 64 * n ≤ bs.length)

/-- Directory entry `i`. -/
def imgEntry (bs : List Byte) (i : Nat) : List Byte := (bs.drop (128 + 64 * i)).take 64

/-- TYPE, SCOPE, ID, SERIAL and DIGEST of an entry. -/
def entType (e : List Byte) : Nat := leAt e 0 1
/-- SCOPE. -/
def entScope (e : List Byte) : Nat := leAt e 1 1
/-- ID. -/
def entId (e : List Byte) : Nat := leAt e 2 2
/-- OFFSET. -/
def entOff (e : List Byte) : Nat := leAt e 4 4
/-- LENGTH. -/
def entLen (e : List Byte) : Nat := leAt e 8 4
/-- SERIAL. -/
def entSerial (e : List Byte) : Nat := leAt e 16 8
/-- DIGEST. -/
def entDigest (e : List Byte) : List Byte := (e.drop 24).take 32

/-- The directory. -/
def imgEntries (bs : List Byte) : List (List Byte) := (List.range (imgSections bs)).map (imgEntry bs)

/-- The bytes of a section. -/
def imgSection (bs : List Byte) (e : List Byte) : List Byte := (bs.drop (entOff e)).take (entLen e)

/-- The header and the directory, which the OEM signature covers. -/
def imgSigned (bs : List Byte) : List Byte := bs.take (128 + 64 * imgSections bs)

/-- The candle (R417): EPOCH, then every entry whose scope is not DEVICE. -/
def candleOf (bs : List Byte) : List Byte :=
  sha256 (leBytes 4 (imgEpoch bs) ++ ((imgEntries bs).filter (fun e => decide (entScope e ≠ 3))).flatten)

/-- The entry is well-formed: TYPE with a scope it may have, ID, place and reserved bytes (R415). -/
def entryOk (bs e : List Byte) : Bool :=
  let ty := entType e
  let sc := entScope e
  decide (ty = 1 ∧ sc = 0 ∨ ty = 2 ∧ sc = 0 ∨ ty = 3 ∧ sc = 1 ∨ ty = 4 ∧ sc = 2 ∨ ty = 5 ∧ sc = 3 ∨ ty = 6 ∧ sc ≤ 1)
    && decide (if sc = 1 ∨ sc = 2 then entId e < 64 else entId e = 0xFFFF)
    && decide (entOff e % 4096 = 0 ∧ 256 + 64 * imgSections bs ≤ entOff e ∧ entOff e + entLen e ≤ min imgMax bs.length)
    && decide (leAt e 12 4 = 0 ∧ leAt e 56 8 = 0 ∧ (sc = 3 ∨ entSerial e = 0))

/-- Two DEVICE entries carry the serial of entry `i`, which is the later one (R418). -/
def deviceTwice (es : List (List Byte)) (i : Nat) : Bool :=
  let e := es.getD i []
  decide (entScope e = 3) && (es.take i).any (fun f => decide (entScope f = 3 ∧ entSerial f = entSerial e))

/-! ### The checks (R424) -/

/-- The refusal with the least code; of equals the first. -/
def firstRefused (l : List Refused) : Option Refused :=
  l.foldl (fun (b : Option Refused) r => match b with
    | none => some r
    | some x => if r.code < x.code then some r else some x) none

/-- Code 0x01: header, directory and section bounds. A failure of the header has no entry index. -/
def checkFormat (bs : List Byte) : Option Refused :=
  let n := imgSections bs
  if imgHeaderOk bs = false ∨ n = 0 ∨ 512 < n ∨ imgEpoch bs = 0 ∨ imgMax < bs.length ∨ ((bs.drop 56).take 72).any (· != 0) then
    some ⟨1, none⟩
  else
    let es := imgEntries bs
    match (List.range n).find? (fun i => !entryOk bs (es.getD i []) || deviceTwice es i) with
    | some i => some ⟨1, some i⟩
    | none => none

/-- Code 0x02: a section's digest differs. -/
def checkDigest (bs : List Byte) : Option Refused :=
  let es := imgEntries bs
  match (List.range es.length).find? (fun i => decide (sha256 (imgSection bs (es.getD i [])) ≠ entDigest (es.getD i []))) with
  | some i => some ⟨2, some i⟩
  | none => none

/-- The hash by which a fused slot knows a public key. -/
def keyHash (x y : Nat) : Nat := beNat (sha256 (beBytes 32 x ++ beBytes 32 y))

/-- The unrevoked slot whose hash matches. -/
def keySlot (slots : List (Option Nat)) (rev : List Bool) (h : Nat) : Option Nat :=
  (List.range slots.length).find? (fun i => decide (slots.getD i none = some h) && !rev.getD i false)

/-- Code 0x03: the OEM signature over header and directory (R407, R416). -/
def checkSignature (f : Fuses) (bs : List Byte) : Option Refused :=
  let o := 128 + 64 * imgSections bs
  let x := beAt bs o 32
  let y := beAt bs (o + 32) 32
  match keySlot f.oem f.oemRev (keyHash x y) with
  | none => some ⟨3, none⟩
  | some k =>
    if ecdsaOk x y (beAt bs (o + 64) 32) (beAt bs (o + 96) 32) (sha256 (imgSigned bs)) then none else some ⟨3, some k⟩

/-- The Quetric signature of the firmware section stands (R407). -/
def firmSigOk (f : Fuses) (w : FirmSec) : Bool :=
  (keySlot f.quet f.quetRev (keyHash w.keyX w.keyY)).isSome && ecdsaOk w.keyX w.keyY w.sigR w.sigS w.digest

/-- Code 0x04: the firmware section, its signature and its security version. -/
def checkFirmware (f : Fuses) (bs : List Byte) (w : FirmSec) : Option Refused :=
  if (imgEntries bs).any (fun e => decide (entType e = 1)) ∧ firmSigOk f w ∧ f.svnMin ≤ w.svn then none else some ⟨4, some w.svn⟩

/-- Code 0x05: the candle. -/
def checkCandle (bs : List Byte) : Option Refused := if candleOf bs = imgCandle bs then none else some ⟨5, some 0⟩

/-- A register as the loads of a section leave it. -/
def loadedReg (regs : List (Nat × Word)) (a : Nat) : Word :=
  match regs.reverse.find? (fun q => decide (q.1 = a)) with
  | some q => q.2
  | none => regReset a

/-- The defaults of the timeline (R29, R30): those of T128 for the period code 0, of T64 for the others, and the period of the
code. -/
def timelineDefaults (code : Nat) : List (Nat × Word) :=
  let l := if code = 0 then [32000, 204800, 230400, 384000, 448000] else [51200, 435200, 448000, 768000, 896000]
  (Reg.cycPeriod, w32 (500000 * 2 ^ code)) ::
    [Reg.cycUlStart, Reg.cycUlEnd, Reg.cycDlStart, Reg.cycDlEnd, Reg.cycAct].zip (l.map w32)

/-- The registers that the LINE section loads: a parameter of the timeline that it leaves out takes its default. -/
def LineSec.allRegs (x : LineSec) : List (Nat × Word) := timelineDefaults (fld (loadedReg x.regs Reg.cycConfig) 3 0) ++ x.regs

/-- Checks 0x01 to 0x05 of an image for a device (R424, R428). In VENDOR and RETURN the firmware alone is verified (R402). -/
def imageChecks (f : Fuses) (noConfig : Bool) (bs : List Byte) (w : FirmSec) : Option Refused :=
  match checkFormat bs with
  | some r => some r
  | none =>
    match checkDigest bs with
    | some r => some r
    | none =>
      let sig := if noConfig then none else checkSignature f bs
      match sig with
      | some r => some r
      | none =>
        match checkFirmware f bs w with
        | some r => some r
        | none => checkCandle bs

/-- The contents for a controller ID. -/
def ImageBody.ctrlOf (b : ImageBody) (id : Nat) : Option CtrlSec := b.ctrls.find? (fun c => decide (c.id = id))

/-- An image body's registers as the controller of an ID loads them. -/
def ImageBody.regsOf (b : ImageBody) (id : Nat) : List (Nat × Word) := b.line.allRegs ++ ((b.ctrlOf id).getD {}).regs

/-! ### Peer records (R429) -/

/-- A valid record: its magic number and check. -/
def peerOkRec (r : List Byte) : Bool :=
  decide (r.length = 32 ∧ leAt r 0 4 = 0x50524543 ∧ leAt r 28 4 = (crc32c (r.take 28)).toNat)

/-- SEQ of a record. -/
def peerSeq (r : List Byte) : Nat := leAt r 4 4

/-- The valid record with the highest SEQ in either flash. -/
def peerBest (fl : List (List (List Byte))) : Option (List Byte) :=
  (fl.flatten.filter peerOkRec).foldl (fun (b : Option (List Byte)) r => match b with
    | none => some r
    | some x => if peerSeq x < peerSeq r then some r else some x) none

/-- A new record. -/
def mkPeer (seq serial cycle id : Nat) : List Byte :=
  let b := leBytes 4 0x50524543 ++ leBytes 4 seq ++ leBytes 8 serial ++ leBytes 8 cycle ++ leBytes 1 (id % 64) ++ [0, 0, 0]
  b ++ leBytes 4 (crc32c b).toNat

/-- Records of the ring of one flash: four blocks of 2,048 records. -/
abbrev peerBlock : Nat := 2048

/-- Adds a record to the ring, which is held oldest first: when it would start a new block of a full ring, the block it
starts, the oldest, is erased. -/
def peerPut (l : List (List Byte)) (r : List Byte) : List (List Byte) :=
  (if 4 * peerBlock ≤ l.length then l.drop peerBlock else l) ++ [r]

end Sys2Proof.Machine
end

