-- ==== Sys2Proof/Machine/AxisItems.lean ====
section
/-! DEFINITION. Machine/AxisItems.lean: the service of the work items that act on an axis or a virtual master: creation,
enabling, moves, stops, homing and coefficients (R52 to R62, R122 to R126, R189 to R211). -/

namespace Sys2Proof.Machine

/-- A served item whose transition waits for the next boundary stays pending (R60). -/
def State.later (s : State) (t : Taken) : State :=
  { s with wks := { s.wks with taken := s.wks.taken.map (fun u =>
      if u.seq = t.seq then { u with stage := .staged (s.cyc.n + 1), pend := true } else u) } }

/-- The completion of an item is held. -/
def State.hold (s : State) (t : Taken) : State := s.setStage t.seq .serving

/-- The axis an item names. -/
def Taken.axis (t : Taken) : Nat := hIdx t.item.handle

/-- What of an axis description an epoch may change only while the axis is UNUSED, its slots apart (R56). -/
def AxisDesc.fixed (d : AxisDesc) : Nat × Nat × Option Nat × AxKind × Nat × Nat := (d.node, d.sub, d.chan, d.kind, d.cls, d.phase)

/-- An image changes an axis index's node, slots, kind or class from what is in force (R56). -/
def State.axisChanged (s : State) (b : ImageBody) (a : Nat) : Bool :=
  let new := (((b.ctrlOf s.glb.id).getD {}).axes.find? (fun p => decide (p.1 = a))).map (fun p => p.2.fixed)
  let rs := b.regsOf s.glb.id
  decide (new ≠ (s.desc? a).map AxisDesc.fixed) ||
    decide (axisSlots (loadedReg rs) (fld (loadedReg rs Reg.slcPlan) 26 16) a ≠ axisSlots s.rd s.slotCount a)

/-- A staged epoch touches the axis index (R56): its image changes the index's node, slots, kind or class. Until the image has been
read it is not known which indices it touches, and each counts. -/
def State.epochTouches (s : State) (a : Nat) : Bool :=
  match s.cfl.staged with
  | some (b, _) => decide (s.fbr.epoch.phase ≠ .idle) && s.axisChanged b a
  | none => decide (s.fbr.epoch.phase = .staging)

/-- AXIS_CREATE at service (R52). -/
def State.serveCreate (s : State) (t : Taken) : State :=
  let h := t.item.handle
  let a := t.axis
  if hType h ≠ 1 ∨ hGen h ≠ 0 ∨ 256 ≤ a then s.complete t Stat.badParam
  else match s.desc? a with
    | none => s.complete t Stat.badParam
    | some d =>
      if (s.axis a).st ≠ .unused then s.complete t Stat.wrongState
      else if s.epochTouches a then s.complete t Stat.busy
      else if (s.axis a).moved then s.later t
      else
        let hd := s.handleOf 1 a
        let homed := d.pgn.absHomed && d.absFb && (match d.chan with
          | some k => (Tab.get {} s.eiu k).posValid
          | none => true)
        let valid := match d.chan with
          | some k => (Tab.get {} s.eiu k).posValid
          | none => d.absFb
        let x : Axis := { bank0 := d.bank0, bank1 := d.bank1, thin := { encOfs := if d.absFb then d.encOfs else 0 }, stoAct := !s.permit a, homed := homed, posValid := valid
                          moved := (s.axis a).moved }
        let s1 := ((s.setAxis a x).setMap (Reg.pgnHomedMap 0) a homed).setSt a .created 0
        (s1.axEvent a 0x0701 [.w hd.toNat]).completeX t Stat.ok hd s.cyc.n []

/-- The axis feeds a line angle or is the master of a link (R53). -/
def State.destroyBlocked (s : State) (a : Nat) : Bool :=
  let feeds := s.lau.angles.any (fun p => decide (p.2.st ≠ .undeclared ∧ p.2.decl.src = .axis ∧ p.2.decl.srcIndex = a))
  let of (m : Master) : Bool := decide (m = .axisFb a ∨ m = .axisSp a)
  feeds || s.lau.links.any (fun p => of p.2.master || (match p.2.next with | some r => of r.master | none => false))
    || s.lau.armedLinks.any (fun p => of p.2.master)

/-- A pending swap is cancelled (R123). -/
def State.cancelSwap (s : State) (a : Nat) : State :=
  let x := s.axis a
  if x.swapAt.isSome then
    (s.setAxis a { x with swapAt := none }).axEvent a 0x0C03 [.h x.active, .w s.cyc.n, .h 2]
  else s

/-- AXIS_DESTROY at service (R53). -/
def State.serveDestroy (s : State) (t : Taken) : State :=
  let a := t.axis
  let x := s.axis a
  if x.st ≠ .created ∨ s.destroyBlocked a = true then s.complete t Stat.wrongState
  else ((s.cancelSwap a).updAxis a (fun y => { y with destroy := true })).complete t Stat.ok

/-- AXIS_ENABLE at service (R59, R62): the request enters the admission queue. A second request while one is queued completes
with WRONG_STATE (DESIGN CHOICE, log entry 25). -/
def State.serveEnable (s : State) (t : Taken) : State :=
  let a := t.axis
  let x := s.axis a
  if x.st = .sto then s.complete t Stat.refusedSafety
  else if x.st ≠ .created ∨ x.enSeq.isSome then s.complete t Stat.wrongState
  else if s.permit a = false then s.complete t Stat.refusedSafety
  else
    let s1 := s.updAxis a (fun y => { y with enSeq := some t.seq, enCycle := s.cyc.n, enQueued := false })
    let s2 : State := { s1 with axm := { s1.axm with queue := insertReq (fun b => (s1.axis b).enCycle) a s1.axm.queue } }
    s2.hold t

/-- AXIS_DISABLE at service (R59, R62). -/
def State.serveDisable (s : State) (t : Taken) : State :=
  let a := t.axis
  let x := s.axis a
  let leave := fun (st : State) => ((st.setSt a .created 0).thinIdle a).complete t Stat.ok
  match x.st with
  | .created => if x.enSeq.isSome then (s.endHeld a Stat.wrongState).complete t Stat.ok else s.complete t Stat.wrongState
  | .admitWait => if x.moved then s.later t else leave (s.endHeld a Stat.wrongState)
  | .ready =>
    if x.moved then s.later t
    else
      let s1 := if x.planRest then s else s.queueCleared (.ax a) 5
      leave (s1.updPgn (.ax a) (fun g => g.setRest g.sp.p))
  | .fault =>
    if (if x.ownStop then x.still else x.planRest && x.still) = false ∨ x.conds.any (x.condStands (s.desc a)) then
      s.complete t Stat.busy
    else if x.moved then s.later t
    else leave (s.updAxis a (fun y => { y with ownStop := false, conds := [], pgn := y.pgn.setRest y.pgn.sp.p }))
  | _ => s.complete t Stat.wrongState

/-! ### Moves and stops (R189 to R196, R199, R211) -/

/-- The side of a move toward a latched limit, if it is refused (R204): with both latched every move is. -/
def State.latchRefuses (s : State) (a : Nat) (dir : Int) : Option Nat :=
  let x := s.axis a
  if x.limPos ∧ x.limNeg then some (if dir < 0 then 1 else 0)
  else if x.limPos ∧ 0 < dir then some 0
  else if x.limNeg ∧ dir < 0 then some 1
  else none

/-- A move of the plan is refused: status, with its trace (R190). -/
def State.refuseLimit (s : State) (t : Taken) (a side : Nat) : State :=
  ((s.axEvent a 0x0B03 [.h side, .h t.item.opcode]).count Reg.pgnRefuseCnt).complete t Stat.badParam

/-- A target outside the soft limits (R205). -/
def State.refuseSoft (s : State) (t : Taken) (a side : Nat) : State :=
  ((s.axEvent a 0x0B04 [.h side, .h 0]).count Reg.pgnRefuseCnt).complete t Stat.badParam

/-- Side of a target outside the soft limits, compared under R9. -/
def softSide (d : PgnDesc) (target : Int) : Option Nat :=
  if 0 < modDiff (dInt target) (dInt d.posMax) then some 0
  else if modDiff (dInt target) (dInt d.posMin) < 0 then some 1
  else none

/-- The move of an axis or a virtual master, once its state accepts it: the checks of R190 from the fourth row on, then the
plan (R191, R195, R196). Answers the state and whether it was planned. -/
def State.planMove (s : State) (t : Taken) (w : Who) : State × Bool :=
  let it := t.item
  let d := s.pgnDesc w
  let g := s.pgn w
  let flags := it.u 36 1
  let user := decide (flags / 4 % 2 = 1)
  let vm : Bool := match w with
    | .vm _ => true
    | .ax _ => false
  let rset := if vm then 0 else flags % 4
  let isVel := decide (it.opcode = Opc.moveVel)
  let conv := fun (x : Int) => if user then userConv d x else some x
  let bad := (s.complete t Stat.badParam, false)
  if vm ∧ user then bad
  else match conv (it.s64 20), conv (if isVel then 0 else it.s64 28) with
    | some v, some o =>
      if o < 0 ∨ (vm = false ∧ ((d.vlim : Int) < o ∨ (isVel ∧ (d.vlim : Int) < v.natAbs))) then bad
      else
        let target := if it.opcode = Opc.moveAbs then g.sp.p + modDiff (dInt v) (dInt g.sp.p) else g.moveBase + v
        let dir : Int := if isVel then v else target - g.sp.p
        let a := w.idx
        let soft := !vm && d.softEn && (s.axis a).homed
        match (if vm then none else s.latchRefuses a dir) with
        | some side => (s.refuseLimit t a side, false)
        | none =>
          match (if soft && !isVel then softSide d target else none) with
          | some side => (s.refuseSoft t a side, false)
          | none =>
            let blend := d.blend || vm
            if isVel then
              let s1 := if g.segs ≠ [] ∧ g.velRunning = false then s.queueCleared w 7 else s
              let lim := if soft then some (if v < 0 then g.sp.p + modDiff (dInt d.posMin) (dInt g.sp.p)
                                           else g.sp.p + modDiff (dInt d.posMax) (dInt g.sp.p)) else none
              ((s1.updPgn w (fun h => h.moveVel d lim v it.tag rset)).complete t Stat.ok, true)
            else if blend ∧ g.velRunning = false ∧ 8 ≤ g.segs.length then
              ((s.count Reg.pgnQfullCnt).complete t Stat.queueFull, false)
            else ((s.updPgn w (fun h => h.move d blend target o.toNat it.tag rset)).complete t Stat.ok, true)
    | _, _ => bad

/-- MOVE_ABS, MOVE_REL and MOVE_VEL at service (R59, R190, R211). A move released with a start time rests until it (R245). -/
def State.serveMove (s : State) (t : Taken) : State :=
  if hType t.item.handle = 2 then
    let n := hIdx t.item.handle
    if (s.la n).decl.src = .virtual then (s.planMove t (.vm n)).1 else s.complete t Stat.notPermitted
  else
    let a := t.axis
    let x := s.axis a
    let d := (s.desc a).pgn
    if x.st = .sto then s.complete t Stat.refusedSafety
    else if x.st ≠ .ready ∧ x.st ≠ .motion then s.complete t Stat.wrongState
    else if s.linked a ∨ s.lau.armedLinks.any (fun p => decide (p.1 = a)) = true ∨ x.pgn.limStop ∨ s.stopRank a ≤ 3 then
      s.complete t Stat.wrongState
    else if t.item.opcode = Opc.moveAbs ∧ (x.posValid = false ∨ (d.reqHomed = true ∧ x.homed = false)) then
      s.complete t Stat.wrongState
    else if x.st = .ready ∧ x.moved = true then s.later t
    else
      let r := s.planMove t (.ax a)
      if r.2 ∧ x.st = .ready then
        match t.startAt with
        | some tc => (r.1.updPgn (.ax a) (fun g => if g.t0 < tc then g.shift g.t0 (tc - g.t0) else g)).setSt a .motion 0
        | none => r.1.setSt a .motion 0
      else r.1

/-- STOP at service (R59, R199, R211): its completion is held until standstill. -/
def State.serveStop (s : State) (t : Taken) : State :=
  let quick := decide (t.item.u 20 1 % 2 = 1)
  let lc := if quick then 2 else 1
  if hType t.item.handle = 2 then
    let n := hIdx t.item.handle
    if (s.la n).decl.src = .virtual then
      ((s.stopPlan (.vm n) quick 1 lc 2).updPgn (.vm n) (fun g => { g with vmStops := g.vmStops ++ [t.seq] })).hold t
    else s.complete t Stat.notPermitted
  else
    let a := t.axis
    let x := s.axis a
    if x.st ≠ .motion ∧ x.st ≠ .homing then s.complete t Stat.wrongState
    else if x.moved then s.later t
    else
      let s1 := (s.updAxis a (fun y => { y with stopSeqs := y.stopSeqs ++ [t.seq] })).setSt a .stopping 0
      (s1.stopPlan (.ax a) quick 1 lc 2).hold t

/-- HOME at service (R206 to R208, R210). -/
def State.serveHome (s : State) (t : Taken) : State :=
  let a := t.axis
  let x := s.axis a
  let m0 := t.item.u 20 1
  let m := if m0 = 0 then (s.desc a).pgn.homeMethod else m0
  if x.st ≠ .ready then s.complete t Stat.wrongState
  else if m = 0 ∨ 8 < m ∨ ((m = 3 ∨ m = 4 ∨ m = 7) ∧ (s.desc a).chan = none) then s.complete t Stat.badParam
  else if m ≤ 4 ∧ (s.finsOf 3 a).any (fun k => (s.fin k).masked) = true then
    s.complete t Stat.wrongState
  else if m = 8 then (s.shiftRef a 8 x.fbPos).complete t Stat.ok
  else if x.moved then s.later t
  else
    let s1 := (s.clearHomed a).updPgn (.ax a) (fun g =>
      { g with st := .homing, segs := [], stop := g.phases, hStep := 1, hMethod := m, hRev := false, hReversing := 0, hLimits := 0,
               hFound := false, hPath := 0, hMark := false, hRelease := none, hIdx := none, hTravel := 0 })
    (s1.setSt a .homing 0).complete t Stat.deferred

/-! ### Coefficients (R122 to R126) -/

/-- COEF_WRITE at service: words of the inactive bank (R122). -/
def State.serveCoefWrite (s : State) (t : Taken) : State :=
  let a := t.axis
  let x := s.axis a
  let off := t.item.u 20 2
  let n := t.item.u 22 1
  if x.st = .unused then s.complete t Stat.wrongState
  else if off % 4 ≠ 0 ∨ 0x600 < off + 4 * n then s.complete t Stat.badParam
  else if x.swapAt.isSome then s.complete t Stat.busy
  else
    let ws := (List.range n).map (fun k => w32 (t.item.u (24 + 4 * k) 4))
    let b := putWords x.other (off / 4) ws
    (s.setAxis a (if x.active = 0 then { x with bank1 := b } else { x with bank0 := b })).complete t Stat.ok

/-- COEF_SWAP at service: the swap is named for a cycle (R123). -/
def State.serveCoefSwap (s : State) (t : Taken) : State :=
  let a := t.axis
  let x := s.axis a
  let m := t.item.u 24 8
  if x.st = .unused then s.complete t Stat.wrongState
  else if (m ≠ 0 ∧ m < s.cyc.n) ∨ s.cyc.n + 2 ^ 31 < m then s.complete t Stat.badParam
  else if bankOk x.other = false then s.complete t Stat.badParam
  else if x.swapAt.isSome then s.complete t Stat.busy
  else (s.setAxis a { x with swapAt := some (if m = 0 then s.cyc.n else m) }).complete t Stat.deferred

end Sys2Proof.Machine
end

