-- ==== Sys2Proof/Machine/EngineOps.lean ====
section
/-! DEFINITION. Machine/EngineOps.lean: one instruction of a control engine as a command (R131 to R148, R153, R537). -/

namespace Sys2Proof.Machine

/-- Counts and logs an URGENT_STOP interrupt that engine `e` has just taken (R145, R157). -/
def State.urgentTaken (s : State) (e axis : Nat) (was now : Bool) : State :=
  if now ∧ ¬ was then ((s.axNote axis 0x0C13).count Reg.ceaUrgentCnt).event 0x0C13 [.h e, .h axis] else s

/-- The words of P that hold code: CEA_CODE.P_USED. -/
def State.pUsed (s : State) : Nat := s.rdFld Reg.ceaCode 31 16

/-- The word an engine fetches next. -/
def State.fetchWord (s : State) (e : Nat) : Nat := (Tab.get 0 s.cea.p (s.eng e).pc).toNat

/-- The row's instruction is the one engine `e` meets at its program counter. A fetch beyond the code and a word with a
reserved operation code raise their fault whichever row names them. -/
def State.meets (s : State) (op e : Nat) : Bool :=
  decide (s.pUsed ≤ (s.eng e).pc) || !opListed (opcodeOf (s.fetchWord e)) || decide (opcodeOf (s.fetchWord e) = op)

/-- The slots of detector 0x06 strike at the first access to the job's own frame slot (R537). -/
def State.injFrame (s : State) (e : Nat) : Bool × State :=
  (s.injSlots 6 e).foldl (fun acc i =>
    let st := acc.2
    let x := Tab.get {} st.hlm.injs i
    let mode := st.rdFld (Reg.hlmInjCtrl i) 29 28
    if mode = 2 ∧ x.ops < st.rdFld (Reg.hlmInjN i) 15 0 then acc
    else
      let s1 := st.updHlm (fun h => { h with injs := Tab.set {} h.injs i { x with ops := 0 } })
      let s2 := if mode = 0 then s1.injDisarm i none else s1
      (true, (s2.count (Reg.hlmInjHits i)).event 0x170C [.h 6, .h i, .h e])) (false, s)

/-- Engine `e` executes the instruction at its program counter; the outcome of R148 and R153 follows. -/
def State.engineRun (s : State) (e : Nat) : State :=
  let x := s.eng e
  match x.job with
  | none => s
  | some j =>
    let f := s.free
    let x0 : Eng := if x.inj.testBit 3 ∧ x.seq = 0 ∧ ¬ x.ovrDone then { x with ovrPend := true } else x
    match engStep s.cea.p s.pUsed s.cea.y f.1.toNat j.frame x0 with
    | .run y => (f.2.setEng e y).urgentTaken e j.axis x.urgDone y.urgDone
    | .fault k pc y => (f.2.setEng e y).engineFault e k pc
    | .exit y => f.2.setEng e y
    | .abort pc y =>
      let s1 := ((f.2.setEng e y).lateEnd e).axNote j.axis 0x0C12
      (s1.count Reg.ceaAbortCnt).event 0x0C12 [.h e, .h pc, .h j.axis]
    | .overrunEnd y => (f.2.setEng e y).overrunEnd e

/-- The command of one instruction on engine `e`: nothing happens where the engine runs no job, has executed EXIT or is
in reset, or where another instruction stands at its program counter. Errors injected into its memories or into the job
strike first (R515, R537). -/
def State.engineRow (s : State) (op e : Nat) : State :=
  let x := s.eng e
  if x.job.isNone ∨ x.exited ∨ x.resetting ∨ s.meets op e = false then s
  else
    let s1 := s.touch 0 e
    if (s1.eng e).job.isNone then s1
    else if x.inj.testBit 0 ∧ x.seq = 0 then s1.engineFault e 1 x.pc
    else if x.inj.testBit 2 ∧ x.seq = 0 then s1.engineFault e 4 x.pc
    else
      let fr := (x.job.map (·.frame)).getD 0
      if x.inj.testBit 1 ∧ ownAccess fr (s1.fetchWord e) x.commit then
        let r := s1.injFrame e
        if r.1 then r.2.engineFault e 2 x.pc
        else (r.2.setEng e { (r.2.eng e) with inj := 0 }).engineRun e
      else s1.engineRun e

end Sys2Proof.Machine
end

