-- ==== Sys2Proof/Machine/Jobs.lean ====
section
/-! DEFINITION. Machine/Jobs.lean: the commands that stage, dispatch, end and discard jobs (R38 to R45, R145 to R153), and
what a completed job writes (R110 to R121, R162 to R180). -/

namespace Sys2Proof.Machine

/-- Stages the frame of an axis's job into a free frame slot (R149). A job that is ready
without its frame is a staging miss: it is staged at once, if need be in place of the frame latest in the staging
order. -/
def State.stageJob (s : State) (a half : Nat) : State :=
  let job := s.cea.ready.find? (fun j => decide (j.axis = a ∧ j.half = half))
  if s.stageable a half = false then s
  else
    let s1 := match job with
      | some j =>
        if j.missed then s
        else
          let f := s.free
          let seen : List ReadyJob := f.2.cea.ready.map (fun (q : ReadyJob) =>
            if q.axis = a ∧ q.half = half then { q with missed := true } else q)
          let s2 : State := { f.2 with cea := { f.2.cea with ready := seen } }
          let waited := (s.co + 2 ^ 32 - j.ready) % 2 ^ 32 / 80
          ((s2.axNote a 0x0C14).count Reg.ceaStageMissCnt).event 0x0C14 [.h (f.1.toNat % 65536), .h a, .h waited]
      | none => s
    match s1.freeSlot with
    | some f => s1.stageIn f a half
    | none =>
      if job.isNone then s1
      else match s1.evictee with
        | some f => (s1.dropFrame f).stageIn f a half
        | none => s1

/-- A frame that the staging order puts before this one is still to be staged (R149). -/
def State.stagedBefore (s : State) (a half : Nat) : Bool :=
  let k := s.stageKey a half
  (s.axes.map (·.1)).any (fun b => [0, 1].any (fun h => s.stageable b h && decide (s.stageKey b h < k)))

/-- FRAME_STAGE: the context DMA stages the frame of an axis's job for a half into a free frame slot, in the staging order; the frame of a
job that is already ready is staged at once (R149). -/
def execFrameStage (a half : Nat) (s : State) : Host.Outcome State Fault Refusal :=
  if s.cea.ready.any (fun j => decide (j.axis = a ∧ j.half = half)) = false ∧ s.stagedBefore a half = true then .next s
  else .next (s.stageJob a half)

/-- The lowest-numbered in-service engine that is free (R38). -/
def State.freeEngine (s : State) : Option Nat :=
  (List.range 18).find? (fun e =>
    let x := s.eng e
    decide (x.st = .inService) && x.job.isNone && !x.resetting)

/-- The first ready job whose frame is staged (R38, R149). A ready job whose frame is not staged yet is passed by later ones
(DESIGN CHOICE, log entry 18). -/
def State.nextJob (s : State) : Option (ReadyJob × Nat) :=
  s.cea.ready.findSome? (fun j => (s.stagedSlot j.axis j.half).map (fun f => (j, f)))

/-- Injected detectors 0x05, 0x07 and 0x08 hit the job dispatched to the engine; detector 0x06 waits for its first frame
access (R537). Answers the bits for `Eng.inj`. -/
def State.injJob (s : State) (e : Nat) : Nat × State :=
  let r5 := s.inject 5 e
  let r7 := r5.2.inject 7 e
  let r8 := r7.2.inject 8 e
  let six := r8.2.injSlots 6 e
  let s1 := six.foldl (fun st i => st.updHlm (fun h =>
    let x := Tab.get {} h.injs i
    { h with injs := Tab.set {} h.injs i { x with ops := x.ops + 1 } })) r8.2
  (b2n r5.1 + 2 * b2n (decide (six ≠ [])) + 4 * b2n r7.1 + 8 * b2n r8.1, s1)

/-- JOB_DISPATCH: the first ready job goes to the lowest free engine (R38, R152), unless its latest start has passed
(R40). -/
def execJobDispatch (s : State) : Host.Outcome State Fault Refusal :=
  match s.nextJob, s.freeEngine with
  | some (j, f), some e =>
    let late := match s.latestStart j.axis j.half with
      | some t => decide (t < s.now)
      | none => false
    if s.cyc.running = false ∨ late = true then .next s
    else
      let d := s.desc j.axis
      let urg := decide (s.glb.st = .safe ∨ s.glb.st = .fault)
      let x := s.frameX j.axis j.half j.extrap
      let y := s.frameY j.axis
      let r := x.2.injJob e
      let swap := s.swapDue j.axis
      let epoch := (s.axis j.axis).epochDue
      let job : Job := { axis := j.axis, frame := f, kset := d.kset, start := s.co, extrap := j.extrap, half := j.half,
                         swap := swap, epoch := epoch }
      let entry := s.rdFld (Reg.ceaKsetInfo d.kset) 31 18
      let s1 := r.2.takeReady j.axis j.half
      let fr : FrameSlot := { axis := j.axis, half := j.half, swap := swap, epoch := epoch, extrap := j.extrap, running := true }
      let s2 : State := { s1 with cea := { s1.cea with frames := Tab.put s1.cea.frames f fr } }
      let e0 := Eng.enter entry f (jobWord job d.kind.code) urg x.1 y (s2.eng e)
      .next (s2.setEng e { e0 with job := some job, inj := r.1, lastAxis := j.axis })
  | _, _ => .next s

/-- A ready job is skipped (R40, R44). -/
def State.jobSkip (s : State) (a half : Nat) : State :=
  let s1 := (((s.takeReady a half).dropStaged a half).lateCounted a).mapMark a 6
  ((s1.count Reg.cycSkipCnt).lateInfo 2 a).axEvent a 0x0602 []

/-- JOB_SKIPPED: a job not dispatched by its latest start is skipped (R40). -/
def execJobSkipped (a half : Nat) (s : State) : Host.Outcome State Fault Refusal :=
  if s.cea.ready.any (fun j => decide (j.axis = a ∧ j.half = half)) then
    match s.latestStart a half with
    | some t =>
      if t < s.now then .next (s.jobSkip a half) else .next s
    | none => .next s
  else .next s

/-- CYCLE_OVERRUN: 64 clocks before the release deadline the interrupt is raised on an engine whose job has executed
neither EXIT nor ABORT (R42, R145). -/
def execCycleOverrun (e : Nat) (s : State) : Host.Outcome State Fault Refusal :=
  let x := s.eng e
  match x.job with
  | none => .next s
  | some j =>
    match s.deadline j.axis j.half with
    | none => .next s
    | some t =>
      if x.exited ∨ x.ovrDone ∨ x.ovrPend ∨ s.now + 64 * clkU < t then .next s
      else .next (s.setEng e ({ x with ovrPend := true } : Eng).takePending)

/-- URGENT_STOP: the pending interrupt is taken at an instruction boundary (R145, R146). -/
def execUrgentStop (e : Nat) (s : State) : Host.Outcome State Fault Refusal :=
  let x := s.eng e
  match x.job with
  | none => .next s
  | some j =>
    if x.urgPend = false ∨ x.exited then .next s
    else
      let y := x.takePending
      .next ((s.setEng e y).urgentTaken e j.axis x.urgDone y.urgDone)

/-- ENGINE_HALT: an engine that has not completed the exit by the release deadline is stopped there (R147). -/
def execEngineHalt (e : Nat) (s : State) : Host.Outcome State Fault Refusal :=
  let x := s.eng e
  match x.job with
  | none => .next s
  | some j =>
    match s.deadline j.axis j.half with
    | none => .next s
    | some t =>
      if (x.exited ∧ x.ovrDone = false) ∨ s.now < t then .next s
      else
        let s1 := (s.overrunEnd e).axNote j.axis 0x0C11
        let s2 := s1.setEng e { (s1.eng e) with resetting := true }
        .next ((s2.count Reg.ceaHaltCnt).event 0x0C11 [.h e, .h j.axis])

/-- ENGINE_RESET: the 16-clock reset of a halted engine ends and it returns to service (R147). -/
def execEngineReset (e : Nat) (s : State) : Host.Outcome State Fault Refusal :=
  let x := s.eng e
  if x.resetting then
    .next (s.setEng e { x with resetting := false, pc := 0, rf := [], pend := [], branch := none, slots := 0, rep := 0 })
  else .next s

/-! ### What a completed job writes -/

/-- The stop command that the URGENT_STOP handler writes (R147, R61): STEPPER nodes hold zero current, THIN nodes
freewheel, SMART nodes take their configured stop. -/
def stopWords : AxKind → List Word
  | .thin => [2, 0, 0, 0, 0, 0, 0, 0]
  | _ => [0, 0, 0, 0, 0, 0, 0, 0]

/-- CMU takes the eight command words of a THIN job (R162 to R165): the vector code, or a late command where the MODE or
the code is reserved. -/
def State.cmuTake (s : State) (a : Nat) (ws : List Word) : State :=
  let x := s.axis a
  let y := (s.desc a).ky
  let t := thinTable y
  let entry := fun (i : Nat) => fld (s.rd (Reg.cmuSwtab0 (16 * t + i / 8))) (4 * (i % 8) + 3) (4 * (i % 8))
  let r := cmuDecide entry (thinSectors y) (kq y 0x28) (kq y 0x2C) (fun k => ws.getD k 0) x.thin.cmu
  let s1 := s.setAxis a { x with thin := { x.thin with cmu := r.2 } }
  match r.1 with
  | some code =>
    let asc := decide (fld (ws.getD 0 0) 3 0 = 3)
    (s1.updAxis a (fun z => { z with
      cmd := { payload := [w32 code, 0, 0, 0], code := code, done := s.now, cycle := s.cyc.n }
      late := 0, lateBit := false, thin := { z.thin with zLate := false } })).setMap (Reg.cmuAscMap 0) a asc
  | none =>
    (((s1.lateCounted a).mapMark a 2).count Reg.cmuCmdBadCnt).axEvent a 0x0D0B [.w (ws.getD 0 0).toNat]

/-- A SMART or STEPPER command goes to SLC (R150, R260). -/
def State.slcTake (s : State) (a : Nat) (stop : Bool) (ws : List Word) : State :=
  s.updAxis a (fun x => { x with
    cmd := { stop := stop, payload := ws.take 4, done := s.now, cycle := s.cyc.n }, late := 0, lateBit := false })

/-- The command words of a job go to CMU or SLC. -/
def State.commandTo (s : State) (a : Nat) (stop : Bool) (ws : List Word) : State :=
  if (s.desc a).kind = .thin then s.cmuTake a ws else s.slcTake a stop ws

/-- A swap or an epoch change that a job took up is consumed by its EXIT (R45, R123, R125). BANK_SWAP carries the job's
start as its time. -/
def State.consumeSwap (s : State) (j : Job) : State :=
  let a := j.axis
  let s1 := if j.swap then
      let x := s.axis a
      let b := 1 - x.active % 2
      let s2 := s.setAxis a { x with active := b, swapAt := none, swapCycle := s.cyc.n }
      (s2.axNote a 0x0C03).eventAt 0x0C03 [.h a, .h b, .w s.cyc.n, .h 0] j.start
    else s
  if j.epoch then
    let x := s1.axis a
    let s2 := s1.setAxis a { x with epochDue := false, oldBank := [] }
    (s2.axNote a 0x0C03).eventAt 0x0C03 [.h a, .h x.active, .w s.cyc.n, .h 1] j.start
  else s1

/-- One event word pair of a custom kernel (R150, R153). -/
def State.kernelEvent (s : State) (e a : Nat) (w arg : Word) : State :=
  let code := fld w 15 0
  if code = 0 then s
  else if 0x0C01 ≤ code ∧ code ≤ 0x0C0F then s.axEvent a code [.w arg.toNat]
  else if 0x0CF0 ≤ code ∧ code ≤ 0x0CFF then (s.axNote a code).event code [.h e, .h a, .w arg.toNat]
  else (s.axNote a 0x0C16).event 0x0C16 [.h e, .h a, .h code]

/-- The writeback of a custom kernel: X words 0x20 to 0xFF as R150 states. -/
def State.customOut (s : State) (e : Nat) (j : Job) (x : Eng) : State :=
  let a := j.axis
  let w := fun (k : Nat) => Tab.get (0 : Word) x.fx k
  let s1 := s.updAxis a (fun z => { z with
    kx := x.fx.filter (fun p => decide (0x30 ≤ p.1)), winner := fld (w 0x28) 3 0, demand := w 0x29 })
  let s2 := s1.commandTo a false ((List.range 8).map (fun k => w (0x20 + k)))
  let s3 := (s2.kernelEvent e a (w 0x2A) (w 0x2B)).kernelEvent e a (w 0x2C) (w 0x2D)
  let req := (w 0x2E).toNat % 65536
  if req = 0 then s3 else s3.addCond a req

/-- Events of a library loop set (R117, R118, R124). -/
def State.loopEvents (s : State) (a : Nat) (o : LoopOut) : State :=
  let s1 := o.skips.foldl (fun st k => st.axEvent a 0x0C04 [.h k]) s
  let s2 := match o.crossNow with
    | some (l, u) => s1.axEvent a 0x0C02 [.h l, .h u]
    | none => s1
  match o.satNow with
  | some side => s2.axEvent a 0x0C05 [.h side]
  | none => s2

/-- Whether the following-error check is made (R120). -/
def Axis.feChecked (x : Axis) : Bool := x.st.runsJobs && decide (x.st ≠ .fault ∧ x.st ≠ .sto ∧ x.st ≠ .enabling) && x.posValid

/-- The estimates of a THIN computation, which the spec gives by no bit-exact rule (R166): free values. -/
def State.estimates (s : State) : Est × State :=
  let r := s.frees 6
  let w := fun k => loW (r.1.getD k 0)
  ({ psiA := w 0, psiB := w 1, ang := w 2, om := w 3, r := w 4, emf := w 5 }, r.2)

/-- The THIN part of a library job (R166 to R178): the sequencer and its command words. -/
def State.thinOut (s : State) (j : Job) (urg : Bool) (demand : Int) : State :=
  let a := j.axis
  let x := s.axis a
  let d := s.desc a
  let es := s.estimates
  let g := x.pgn
  let motion := decide (g.st = .running ∨ g.st = .homing)
  let rs := g.stopRamp d.pgn
  let up := match g.segs.head? with
    | some sg => (match sg.vel with | some v => decide (0 ≤ v) | none => decide (g.sp.p ≤ sg.target))
    | none => decide (0 ≤ g.sp.v)
  let i : ThinIn := {
    enabled := x.st.enabled, motion := motion, dirUp := up, demand := demand, cur := x.aux.take 3, incr := !d.absFb,
    om := if thinSensorless d.ky then none else some (wInt (satS 32 (divRound (x.fbVel * d.omNum) (max d.omDen 1 : Nat))))
    c2 := d.c2, a1 := rs.a1, a2 := rs.a2, vbrk := rs.vbrk, dt := s.per / halves d.c2, tqNum := d.tqNum, tqDen := d.tqDen
    cycle := s.cyc.n, per := (s.rd Reg.cycPeriod).toNat }
  let o := thinKernel d.ky i es.1 x.thin
  let fb := es.2.frees 2
  let s1 := if thinSensorless d.ky then fb.2 else es.2
  let fbP := if thinSensorless d.ky then (fb.1.getD 0 0).toInt else x.fbPos
  let fbV := if thinSensorless d.ky then (fb.1.getD 1 0).toInt else x.fbVel
  let fly := decide (o.th.flying = true)
  let s2 := s1.updAxis a (fun z => { z with
    thin := { o.th with flying := false }, fbPos := fbP, fbVel := fbV,
    revHeld := (z.revHeld || o.held) && !o.unheld, pgn := { z.pgn with flySeed := z.pgn.flySeed || o.runNow } })
  let s3 := s2.setMap (Reg.cmuHeldMap 0) a (s2.axis a).revHeld
  let s4 := if fly then s3.axEvent a 0x0D09 [.w o.th.om.toNat] else s3
  let s5 := if o.held ∧ ¬ x.revHeld then s4.axEvent a 0x0D07 [.w o.th.om.toNat] else s4
  s5.cmuTake a (if urg then stopWords .thin else thinCommand o)

/-- A library job's results: the loop set, then the command of the axis's kind (R113 to R120, R166, R179). -/
def State.libraryOut (s : State) (j : Job) (urg : Bool) : State :=
  let a := j.axis
  let d := s.desc a
  let x := s.axis a
  let sp := s.jobSetpt a j.half
  let fb := s.jobFb a j.half j.extrap
  let i : LoopIn := { spP := sp.p, spV := sp.v, spA := sp.a, fbP := fb.1, fbV := fb.2, aux := x.aux, sigs := s.mappedSigs a }
  let b := s.jobBanks a
  let o := loopSet d.loop b.1 b.2 i x.loop
  let fe := posError sp.p fb.1
  let feN := if x.feChecked then (feCheck (bankW b.1 0x154).toNat d.feN sp.p fb.1 x.loop.feCount).1 else x.loop.feCount
  let s1 := s.setAxis a { x with loop := { o.st with feCount := feN }, winner := o.st.winner, demand := wInt o.st.final, fe := fe }
  let s2 := s1.loopEvents a o
  match d.kind with
  | .smart => s2.commandTo a urg (if urg then stopWords .smart else smartCommand d.loop i o.st.final)
  | .thin => s2.thinOut j urg o.st.final
  | .stepper =>
    let t := fld (kw d.ky 0) 1 0
    let r := stepperKernel (clsDiv d.cls) d.ky (fun k => (Tab.get (0 : Word) s.cea.y (0x400 + 0x100 * t + k)).toInt) sp.p sp.v x.stepper
    (s2.updAxis a (fun z => { z with stepper := r.1 })).commandTo a urg (if urg then stopWords .stepper else r.2)

/-- The cost of a completed job in clocks: that of its instructions, or, for a library kernel, the time since dispatch
(R38, R155). -/
def State.jobCost (s : State) (j : Job) (x : Eng) : Nat :=
  if x.exited then x.cost else (s.co + 2 ^ 32 - j.start) % 2 ^ 32 / 80

/-- The cost is measured and compared with the recorded worst case (R155). -/
def State.costSeen (s : State) (e : Nat) (j : Job) (c : Nat) : State :=
  let k := j.kset
  let s1 := if s.rdFld (Reg.ceaKsetObs k) 15 0 < c then s.wrFld (Reg.ceaKsetObs k) 15 0 (min c 65535) else s
  if s.wcet k < c then
    ((s1.axNote j.axis 0x0C15).count Reg.ceaCostExcCnt).event 0x0C15 [.h e, .h j.axis, .h k, .h c]
  else s1

/-- The release slack of a job that finishes now (R41). -/
def State.slackSeen (s : State) (j : Job) : State :=
  match s.deadline j.axis j.half with
  | none => s
  | some t =>
    let sl := (t - s.now) / 1024
    let s1 : State := { s with cyc := { s.cyc with
      minSlack := some (match s.cyc.minSlack with | some m => min m sl | none => sl) } }
    if sl < (s.rd Reg.cycSlackThresh).toNat ∧ ¬ s.cyc.slackLow then
      let s2 : State := { s1 with cyc := { s1.cyc with slackLow := true } }
      s2.axEvent j.axis 0x0606 [.w (sl / 64)]
    else s1

/-- JOB_WRITEBACK_END: writeback ends, results and command are written, and the job finishes (R153). For a custom kernel
the engine must have executed EXIT; for a library kernel the rules of the control laws and of commutation give the
results. An EXIT in the CYCLE_OVERRUN handler writes nothing back: the job's results are discarded (R42), and the engine is stopped at the
deadline (R147). -/
def execJobWritebackEnd (e : Nat) (s : State) : Host.Outcome State Fault Refusal :=
  let x := s.eng e
  match x.job with
  | none => .next s
  | some j =>
    let lib := s.isLibrary j.kset
    if x.resetting ∨ x.ovrDone ∨ (x.exited = false ∧ (lib = false ∨ x.ovrPend)) then .next s
    else
      let c := s.jobCost j x
      let urg := x.urgDone || decide (x.sr 31 31 = 1)
      let s1 := s.setEng e { x with cost := c, jobsNow := x.jobsNow + 1 }
      let s2 := if lib then s1.libraryOut j urg else s1.customOut e j x
      let s3 := ((s2.consumeSwap j).costSeen e j c).slackSeen j
      let s4 : State := { s3 with cyc := { s3.cyc with done := some (max s.co (s3.cyc.done.getD 0)) } }
      .next (s4.endJob e)

end Sys2Proof.Machine
end

