-- ==== Sys2Proof/Machine/AxisRows.lean ====
section
/-! DEFINITION. Machine/AxisRows.lean: what befalls an axis without a work item: lost feedback and commands (R44), timeouts
of admission and enabling (R59), the following error (R120), the ends of segments, soft limits and homing (R190, R205,
R210), the sequencer of THIN axes (R169 to R178), steppers (R180) and the restarts of measured values (R51, R159). -/

namespace Sys2Proof.Machine

/-! ### The control cycle (R44, R51) -/

/-- FEEDBACK_LOST: the third consecutive axis-cycle without feedback (R44). -/
def execFeedbackLost (a : Nat) (s : State) : Host.Outcome State Fault Refusal :=
  let x := s.axis a
  if 3 ≤ x.noFb ∧ x.st.runsJobs = true ∧ x.conds.contains 0x0604 = false then
    .next ((s.axEvent a 0x0604 []).addCond a 0x0604)
  else .next s

/-- CMD_LOST: consecutive late commands reach LATE_LIM (R44). -/
def execCmdLost (a : Nat) (s : State) : Host.Outcome State Fault Refusal :=
  let x := s.axis a
  if (s.desc a).lateLim ≤ x.late ∧ x.st.runsJobs = true ∧ x.conds.contains 0x0605 = false then
    .next ((s.axEvent a 0x0605 []).addCond a 0x0605)
  else .next s

/-- FOLLOWING_ERROR: the following error exceeds FE_MAX in FE_N consecutive active cycles (R120). -/
def execFollowingError (a : Nat) (s : State) : Host.Outcome State Fault Refusal :=
  let x := s.axis a
  if x.feChecked ∧ (s.desc a).feN ≤ x.loop.feCount ∧ x.conds.contains 0x0C01 = false then
    .next ((s.axEvent a 0x0C01 [.i (x.fe / 2 ^ 32)]).addCond a 0x0C01)
  else .next s

/-- LOAD_RESTART: written 1, acts at the next boundary (R51). -/
def execLoadRestart (s : State) : Host.Outcome State Fault Refusal :=
  if s.hostOpen then .next (s.wrBit Reg.cycCtrl 1 true) else .next s

/-- SLACK_RESTART: written 1, acts at the next boundary (R51). -/
def execSlackRestart (s : State) : Host.Outcome State Fault Refusal :=
  if s.hostOpen then .next (s.wrBit Reg.cycCtrl 0 true) else .next s

/-- OBS_RESTART: written 1, acts at the next boundary (R159). -/
def execObsRestart (s : State) : Host.Outcome State Fault Refusal :=
  if s.hostOpen then .next (s.wrBit Reg.ceaCtrl 0 true) else .next s

/-! ### Admission and enabling (R59, R62, R63) -/

/-- ADMIT_TIMEOUT: T_ADMIT of a request expires at the next boundary, which judges it after admission (R58, R59, R62). -/
def execAdmitTimeout (a : Nat) (s : State) : Host.Outcome State Fault Refusal :=
  let x := s.axis a
  let t := s.admitCyc (s.rdFld Reg.axmAdmitTimes 31 16)
  if x.st ≠ .admitWait ∨ s.cyc.n + 1 < x.enCycle + t then .next s
  else .next (s.setAxis a { x with admitDue := true })

/-- ENABLE_TIMEOUT: an axis is not ready within T_EN: a fault condition, taken at the next boundary (R58, R59, R61). -/
def execEnableTimeout (a : Nat) (s : State) : Host.Outcome State Fault Refusal :=
  let x := s.axis a
  if x.st ≠ .enabling ∨ x.conds.contains 0x0706 = true ∨ s.cyc.n + 1 < x.enStart + s.admitCyc (s.rdFld Reg.axmAdmitTimes 15 0) then .next s
  else .next ((s.axEvent a 0x0706 []).addCond a 0x0706)

/-! ### Profiles (R190, R205, R210) -/

/-- SEG_DONE: an ended segment is logged with its TAG (R190); the index has bit 15 set for a virtual master (R214). -/
def execSegDone (i : Nat) (s : State) : Host.Outcome State Fault Refusal :=
  let w := Who.ofIdx i
  match (s.pgn w).ended with
  | [] => .next s
  | (tag, p) :: rest =>
    let s1 := (s.updPgn w (fun g => { g with ended := rest, lastTag := tag })).count Reg.pgnSegCnt
    let e : Int := match w with
      | .ax _ => p / 2 ^ 32
      | .vm _ => p
    .next (s1.pgnEvent w 0x0B01 [.h tag, .i e])

/-- SOFT_LIMIT: a velocity move has come to rest at a soft limit (R205). -/
def execSoftLimit (a : Nat) (s : State) : Host.Outcome State Fault Refusal :=
  match (s.axis a).pgn.softDue with
  | some side => .next ((s.updPgn (.ax a) (fun g => { g with softDue := none })).axEvent a 0x0B04 [.h side, .h 1])
  | none => .next s

/-- HOME_DONE: the axis is at rest after step 4; the shift and the return to READY are taken at the next boundary (R58, R210). -/
def execHomeDone (a : Nat) (s : State) : Host.Outcome State Fault Refusal :=
  let x := s.axis a
  if x.st = .homing ∧ x.pgn.hStep = 4 ∧ x.planRest = true then .next (s.setAxis a { x with homeDue := true }) else .next s

/-! ### THIN axes (R169 to R178) -/

/-- Puts the sequencer of a THIN axis. -/
def State.setThin (s : State) (a : Nat) (t : Thin) : State := s.updAxis a (fun x => { x with thin := t })

/-- The motion that PGN asks for is upward. -/
def Pgn.motionUp (g : Pgn) : Bool :=
  match g.segs.head? with
  | some sg => (match sg.vel with
    | some v => decide (0 ≤ v)
    | none => decide (g.sp.p ≤ sg.target))
  | none => decide (0 ≤ g.sp.v)

/-- The sequencer reaches RUN for a start: PGN takes the measured state (R198). -/
def State.thinRun (s : State) (a : Nat) (t : Thin) : State :=
  (s.setThin a t).updPgn (.ax a) (fun g => { g with flySeed := true })

/-- The time of one computation of a THIN axis, in 2^-6 ns (R168). -/
def State.thinPer (s : State) (a : Nat) : Nat := (s.rd Reg.cycPeriod).toNat / halves (s.desc a).c2

/-- A start of a THIN axis fails (R172). -/
def State.startFail (s : State) (a : Nat) : State :=
  let t := (s.axis a).thin
  let r := Sys2Proof.Machine.startFailed (s.desc a).ky (s.thinPer a) t
  let s1 := ((s.setThin a r.1).count Reg.cmuStartRetryCnt).axEvent a 0x0D03 [.h (t.att + 1), .h t.cs.code]
  if r.2 then ((s1.count Reg.cmuStartFailCnt).axEvent a 0x0D04 [.h (t.att + 1)]).startFailed a else s1

/-- ROTOR_LOST: at the boundary after the third residual above R_LOSS, the loss is shown and the profile held (R175,
R201). -/
def execRotorLost (a : Nat) (s : State) : Host.Outcome State Fault Refusal :=
  let x := s.axis a
  match x.thin.lostAt with
  | none => .next s
  | some n =>
    if s.cyc.n ≤ n then .next s
    else
      let act := b2n x.thin.holdOff
      let s1 := s.setAxis a { x with rotorLost := true, thin := { x.thin with lostAt := none } }
      let s2 := ((s1.setMap (Reg.cmuLostMap 0) a true).count Reg.cmuLostCnt).wr Reg.cmuLastLoss
        (w32 (a % 256 * 2 ^ 24 + act * 2 ^ 23 + n % 65536))
      let s3 := s2.axEvent a 0x0D01 [.w x.thin.om.toNat, .h act]
      let s4 := s3.updPgn (.ax a) (fun g => { g with lost := true, st := if g.st = .running then .held else g.st })
      let s5 := ((s4.setMap (Reg.pgnHoldMap 0) a true).count Reg.pgnHeldCnt).axEvent a 0x0B08 [.h 0x0D01]
      .next (if fld (kw (s.desc a).ky 0x40) 15 8 = 0 then s5.addCond a 0x0D01 else s5)

/-- RECATCH_DUE: T_RECATCH after a loss or a failed attempt an attempt begins with the probe (R176). -/
def execRecatchDue (a : Nat) (s : State) : Host.Outcome State Fault Refusal :=
  let t := (s.axis a).thin
  if t.cs = .lost ∧ t.left = 0 ∧ t.rec_ < fld (kw (s.desc a).ky 0x40) 15 8 then
    .next (s.setThin a { t with cs := .recatch, rec_ := t.rec_ + 1, left := 18 * halves (s.desc a).c2 })
  else .next s

/-- RECATCH: an attempt has ended (R176). -/
def execRecatchEnd (a : Nat) (s : State) : Host.Outcome State Fault Refusal :=
  let x := s.axis a
  let t := x.thin
  match t.recRes with
  | none => .next s
  | some ok =>
    let s1 := s.setThin a { t with recRes := none, rec_ := if ok then 0 else t.rec_ }
    let s2 := (s1.count (if ok then Reg.cmuRecatchOkCnt else Reg.cmuRecatchFailCnt)).axEvent a 0x0D02 [.h t.rec_, .h (b2n !ok)]
    if ok then
      let s3 := (s2.updAxis a (fun y => { y with rotorLost := false })).setMap (Reg.cmuLostMap 0) a false
      let s4 := (s3.replanMeasured a).setMap (Reg.pgnHoldMap 0) a false
      .next (s4.axEvent a 0x0B09 [.h x.pgn.segs.length])
    else if fld (kw (s.desc a).ky 0x40) 15 8 ≤ t.rec_ then .next (s2.addCond a 0x0D01)
    else .next s2

/-- MAG_TIME_ELAPSED: T_AL has elapsed in MAG: RUN, or a failed start where the flux is too low (R169, R172). -/
def execMagTimeElapsed (a : Nat) (s : State) : Host.Outcome State Fault Refusal :=
  let t := (s.axis a).thin
  if t.cs ≠ .mag ∨ t.left ≠ 0 then .next s
  else if magFails t then .next (s.startFail a)
  else .next (s.thinRun a (enterRun t { t with cs := .run }))

/-- ALIGN_STEP_END: T_AL / 2 of an alignment step has elapsed (R171). -/
def execAlignStepEnd (a : Nat) (s : State) : Host.Outcome State Fault Refusal :=
  let x := s.axis a
  let t := x.thin
  if t.cs ≠ .align ∨ t.left ≠ 0 ∨ t.curOk = false then .next s
  else
    let t1 := alignStepEnd (s.desc a).ky (s.thinPer a) x.pgn.motionUp t
    if t1.cs = .run then .next (s.thinRun a t1) else .next (s.setThin a t1)

/-- START_TIMEOUT: I_ALIGN is not reached in T_AL / 4, or RAMP is not left within T_RAMP (R172). -/
def execStartTimeout (a : Nat) (s : State) : Host.Outcome State Fault Refusal :=
  if startFails (s.desc a).ky (s.thinPer a) (s.axis a).thin then .next (s.startFail a) else .next s

/-- RETRY_WAIT_ELAPSED: T_RETRY has elapsed in WAIT (R169). An axis that does not probe applies no V0 (R173). -/
def execRetryWaitElapsed (a : Nat) (s : State) : Host.Outcome State Fault Refusal :=
  let t := (s.axis a).thin
  let n := if thinProbes (s.desc a).ky then 2 * halves (s.desc a).c2 else 0
  if t.cs = .wait ∧ t.left = 0 then .next (s.setThin a { t with cs := .probe, left := n }) else .next s

/-- KE_WINDOW_FILLED: the mean Ke of a full window is compared with KE_NOM (R177). -/
def execKeWindowFilled (a : Nat) (s : State) : Host.Outcome State Fault Refusal :=
  let x := s.axis a
  let t := x.thin
  let y := (s.desc a).ky
  if thinInduction y ∨ t.keN < fld (kw y 0x44) 31 16 ∨ t.keN = 0 then .next s
  else
    let v := keVerdict y t
    let s1 := s.setThin a { t with keMean := w32 v.1, keSum := 0, keN := 0 }
    if v.2.1 then
      .next (((s1.updAxis a (fun z => { z with keLow := true })).axEvent a 0x0D05 [.w v.1]).addCond a 0x0D05)
    else if v.2.2 then
      .next (((s1.updAxis a (fun z => { z with keHigh := true })).axEvent a 0x0D06 [.w v.1]).addCond a 0x0D06)
    else .next s1

/-- OFFSET_FIT: 64 samples complete a fit of the current-sensor offsets; a mean within the limits is applied at the next boundary
(R178). In a CSTATE that takes no fit the samples are discarded (R182). -/
def execOffsetFit (a : Nat) (s : State) : Host.Outcome State Fault Refusal :=
  let t := (s.axis a).thin
  if t.ofsN < 64 then .next s
  else if t.cs.noFit then .next (s.setThin a { t with ofsSum := [0, 0, 0], ofsN := 0 })
  else
    let v := offsetVerdict t
    let t1 : Thin := { t with ofsSum := [0, 0, 0], ofsN := 0, ofsDue := if v.2 then some (v.1.map wInt) else t.ofsDue }
    .next (((s.setThin a t1).count Reg.cmuOfsCnt).axEvent a 0x0D0A [.h (b2n !v.2)])

/-- HOLD_CURRENT_TIMEOUT: the setpoint velocity has been 0 for T_HOLD: I_HOLD (R180). -/
def execHoldCurrentTimeout (a : Nat) (s : State) : Host.Outcome State Fault Refusal :=
  let x := s.axis a
  let d := s.desc a
  if d.kind = .stepper ∧ msCycles (s.rd Reg.cycPeriod).toNat (kw d.ky 0x14).toNat ≤ x.stepper.zeroV ∧ x.stepper.hold = false then
    .next (s.setAxis a { x with stepper := { x.stepper with hold := true } })
  else .next s

end Sys2Proof.Machine
end

