-- ==== Sys2Proof/Machine/Island.lean ====
section
/-! DEFINITION. Machine/Island.lean: the commands of the safety island (R359 to R389). -/

namespace Sys2Proof.Machine

/-- Axes to which the section gives any safety function (R364). -/
def SafetySec.given (x : SafetySec) : List Nat :=
  (List.range 256).filter (fun a =>
    x.axes.any (fun e => decide (e.axis = a)) || x.mons.any (fun e => decide (e.axis = a))
      || x.maps.any (fun m => m.axes.contains a))

/-- ISLAND_START: both channels pass their checks (R363, R364, R382). `crcA` and `crcB` are the CRC-32C that each channel
forms of the section, `testOk` that both passed self-test. -/
def execIslandStart (crcA crcB : Word) (testOk : Bool) (s : State) : Host.Outcome State Fault Refusal :=
  if s.sfi.st ≠ .init ∨ s.cyc.running = false then .next s
  else if s.safety.present ∧ (crcA ≠ s.safety.crc ∨ crcB ≠ s.safety.crc) then .next (s.islandFault 7)
  else if testOk = false then .next (s.islandFault 8)
  else
    let s1 := s.updSfi (fun x => { x with st := .normal, scaOk := true, scbOk := true, selfTest := true })
    .next (if s1.safety.present ∧ s1.safety.startReset then
      s1.safety.given.foldl (fun st a => st.demand { axis := a, func := .sto, src := .start }) s1
    else s1)

/-- SFI_EVALUATION: at UL_END both channels evaluate: positions at S, then demands, then what they monitor (R360, R368 to R371). -/
def execSfiEvaluation (s : State) : Host.Outcome State Fault Refusal :=
  if s.sfi.st ≠ .normal ∨ s.cyc.running = false ∨ s.sfi.evalCycle = some s.cyc.n ∨ s.now < s.instant Reg.cycUlEnd then .next s
  else
    let s0 := (s.touch 4 0).touch 5 0
    let s1 := s0.updSfi (fun x => { x with evalCycle := some s.cyc.n })
    let sm := s1.safety.mons.zipIdx.foldl (fun st p => st.evalPos p.2 p.1) s1
    let s2 := if sm.glb.st = .safe ∨ sm.glb.st = .fault then sm.ctrlReact else sm
    let s3 := s2.mapDemands
    let s4 := s3.safety.mons.zipIdx.foldl (fun st p => st.judgeMon p.2 p.1) s3
    let s5 := s4.refreshDemands.updSfi Sfi.trimStops
    let idle := fun (p : ResetPin) => !p.level && decide (p.since + 100 * msU ≤ s5.now)
    -- a discrepancy latch follows its pins: together at the demand level, then back
    .next (s5.updSfi (fun x => { x with
      ins := x.ins.map (fun p =>
        let d := s5.safeInDecl p.1
        let i := p.2
        if i.disc = false then p
        else if SafeIn.bothDemand d i then (p.1, { i with both := true })
        else if i.both ∧ SafeIn.differs d i = false then (p.1, { i with back := true })
        else p)
      stuck := x.stuck && !(idle x.rstA && idle x.rstB) }))

/-- POS_DISC: the two position sources of monitored axis entry `k` disagree, or one is missing, for too long (R368). -/
def execPosDisc (k : Nat) (s : State) : Host.Outcome State Fault Refusal :=
  match s.safety.mons[k]? with
  | none => .next s
  | some m =>
    let r := s.mon k
    if s.sfi.st ≠ .normal ∨ r.disc ∨ r.discNow m = false then .next s
    else
      let d := match s.posOf m.axis m.p1, s.posOf m.axis m.p2 with
        | some a, some b => (scalePos m.n1 m.d1 a - scalePos m.n2 m.d2 b).natAbs / 2 ^ 32
        | _, _ => 0
      let s1 := (s.setMon k { r with disc := true }).sfiLast 0x110A m.axis
      let s2 := s1.sfiEvent 0x110A [.h m.axis, .w d]
      .next (s2.demand { axis := m.axis, func := s2.reactFunc m.axis, src := .breach })

/-- SFI_CROSS_COMPARE: at E the channels exchange and compare (R361), the gate takes its PDUs (R362), and permits, brakes
and outputs follow (R364 to R366). `agree`: no difference but in inputs inside their discrepancy time; `delivered`: both
parts came by E + 1.0 us; `same`: SCB computed the same PDU bytes. -/
def execSfiCrossCompare (agree delivered same : Bool) (s : State) : Host.Outcome State Fault Refusal :=
  if s.sfi.st ≠ .normal ∨ s.sfi.evalCycle ≠ some s.cyc.n ∨ s.sfi.xcmpCycle = some s.cyc.n then .next s
  else
    let i1 := s.inject 0x1D 0
    let i2 := i1.2.inject 0x1E 0
    let i3 := i2.2.inject 0x1E 1
    let s0 := i3.2
    if i1.1 ∨ agree = false ∨ delivered = false then .next (s0.islandFault 1)
    else if i2.1 then .next (s0.islandFault 3)
    else if i3.1 then .next (s0.islandFault 2)
    else
      .next (s0.updSfi (fun x => { x with xcmpCycle := some s.cyc.n, txOk := same })).sfiPermits

/-- SCA_CLOCK: no tick of SCA for 3 nominal base periods (R361). -/
def execScaClock (s : State) : Host.Outcome State Fault Refusal :=
  if s.sfi.st = .normal ∧ s.sfi.scaTick + 3 * s.per ≤ s.now then
    .next ((s.updSfi (fun x => { x with scaOk := false })).islandFault 2)
  else .next s

/-- SCB_CLOCK: no tick of SCB for 3 nominal base periods (R361). -/
def execScbClock (s : State) : Host.Outcome State Fault Refusal :=
  if s.sfi.st = .normal ∧ s.sfi.scbTick + 3 * s.per ≤ s.now then
    .next ((s.updSfi (fun x => { x with scbOk := false })).islandFault 3)
  else .next s

/-- CONN_LOST: the watchdog of uplink connection `c` expires (R375). -/
def execConnLost (c : Nat) (s : State) : Host.Outcome State Fault Refusal :=
  match s.safety.conns[c]? with
  | none => .next s
  | some d =>
    let x := s.conn c
    if d.down ∨ ¬ x.started ∨ x.lost ∨ s.now < x.okAt + d.wd * 10 * usU then .next s
    else
      let s1 := s.setConn c { x with lost := true, inputs := 0, ack := 0, poss := [] }
      .next (((s1.sfiCount 2).sfiLast 0x1105 c).sfiEvent 0x1105 [.h c])

/-- SS1_TIMEOUT: T_SS1 or T_SS1_MAX of a stop of an axis has elapsed and STO is applied (R370). -/
def execSs1Timeout (a : Nat) (s : State) : Host.Outcome State Fault Refusal :=
  let due := fun (r : StopRun) => decide (r.axis = a) && !r.done && !r.late && decide (r.since + r.limit * msU ≤ s.now)
  if s.sfi.st ≠ .normal ∨ s.sfi.stops.any due = false then .next s
  else
    let s1 := s.updSfi (fun x => { x with stops := x.stops.map (fun r => if due r then { r with late := true } else r) })
    .next (s1.sfiPermits)

/-- SBC_ENGAGE: T_SBC after the torque permit of an axis went to 0 its brake is engaged (R366). -/
def execSbcEngage (a : Nat) (s : State) : Host.Outcome State Fault Refusal :=
  if s.sfi.brakeOff.contains a ∧ s.sfi.permit.contains a = false ∧
      Tab.get 0 s.sfi.permitOff a + (s.safeAxis a).tSbc * msU ≤ s.now then
    .next (s.updSfi (fun x => { x with brakeOff := x.brakeOff.filter (fun b => decide (b ≠ a)) })).driveOuts
  else .next s

/-- SAFE_INPUT_CHANGE: pin A or B of SFI_INk reaches a filtered level (R378). A filtered level stands for F_IN at least: a change
sooner after the last is none. -/
def execSafeInputChange (k : Nat) (chanB lvl : Bool) (s : State) : Host.Outcome State Fault Refusal :=
  let i := s.safeIn k
  let d := s.safeInDecl k
  if 8 ≤ k ∨ (if chanB then i.b else i.a) = lvl ∨ s.now < (if chanB then i.bAt else i.aAt) + d.fIn * (msU / 10) then .next s
  else
    let i1 : SafeIn := if chanB then { i with b := lvl, bAt := s.now } else { i with a := lvl, aAt := s.now }
    let since := match i.diffAt with
      | some t => some t
      | none => some s.now
    let i2 : SafeIn := { i1 with diffAt := if SafeIn.differs d i1 then since else none }
    .next (s.updSfi (fun x => { x with ins := Tab.set {} x.ins k i2 }))

/-- INPUT_DISC: the pins of a safe input have disagreed for longer than T_DISC (R378). -/
def execInputDisc (k : Nat) (s : State) : Host.Outcome State Fault Refusal :=
  let i := s.safeIn k
  let d := s.safeInDecl k
  match i.diffAt with
  | none => .next s
  | some t =>
    if d.used = false ∨ i.disc ∨ s.sfi.st ≠ .normal ∨ s.now ≤ t + d.tDisc * msU then .next s
    else
      let s1 := s.updSfi (fun x => { x with ins := Tab.set {} x.ins k { i with disc := true, both := false, back := false } })
      .next (((s1.sfiCount 3).sfiLast 0x1108 k).sfiEvent 0x1108 [.h k])

/-- A pad of safe output `k` reads back other than it is driven (R379). A pad that is off and reads on is stuck on; a pad
that is on and reads off switches the pair off, and the axes it carries take their reaction. -/
def State.readBack (s : State) (k : Nat) (chanB : Bool) : State :=
  let o := Tab.get {} s.sfi.outs k
  if 4 ≤ k ∨ s.sfi.st ≠ .normal ∨ (s.safety.outs.getD k {}).used = false then s
  else if o.on = false then s.islandFault 9
  else
    let s1 := s.updSfi (fun x => { x with outs := Tab.set {} x.outs k { o with cutOff := true, rbSeen := true } })
    let s2 := ((s1.sfiCount 4).sfiLast 0x1109 k).sfiEvent 0x1109 [.h k, .h (b2n chanB)]
    let s3 := s2.driveOuts
    (s3.outAxes k).foldl (fun st a =>
      st.demand { axis := a, func := st.reactFunc a, src := .breach }) s3

/-- Detector 0x20 makes the readback of an output that is on fail, once a cycle (R515). -/
def State.readBackInject (s : State) (k : Nat) : State :=
  if (Tab.get {} s.sfi.outs k).on then
    let r := s.inject 0x20 k
    if r.1 then r.2.readBack k false else r.2
  else s

/-- OUT_READBACK: a pad of safe output `k` of a channel differs from its drive. -/
def execOutReadback (k : Nat) (chanB : Bool) (s : State) : Host.Outcome State Fault Refusal := .next (s.readBack k chanB)

/-- OUTPUT_TEST_PULSE: each channel pulses an on pad off every TEST_T; a pulse that readback does not show counts as a
stuck-on pad (R379). -/
def execOutputTestPulse (k : Nat) (seen : Bool) (s : State) : Host.Outcome State Fault Refusal :=
  let o := Tab.get {} s.sfi.outs k
  if o.on = false ∨ s.now < o.testAt + (s.safety.outs.getD k {}).testT * secTicks then .next s
  else
    let s1 := s.updSfi (fun x => { x with outs := Tab.set {} x.outs k { o with testAt := s.now } })
    let s2 := (((s1.send (.pin (outPin k false) false)).send (.pin (outPin k true) false)).send
      (.pin (outPin k false) true)).send (.pin (outPin k true) true)
    .next (if seen then s2 else s2.islandFault 9)

/-- A reset is rejected (R381). -/
def State.resetReject (s : State) (cause : Nat) : State := (s.sfiCount 6).sfiEvent 0x110C [.h cause]

/-- A discrepancy whose pins have been at the demand level together and returned is cleared by a reset (R378). -/
def SafeIn.reset (i : SafeIn) : SafeIn := if i.disc && i.back then { i with disc := false, both := false, back := false } else i

/-- The demands that a reset leaves: those whose source is active, the discrepancies and demands that it clears being gone (R369, R381). -/
def State.liveDemands (s : State) : List Demand :=
  let s0 := s.updSfi (fun x => { x with ins := x.ins.map (fun p => (p.1, p.2.reset)) })
  let s1 := s0.updSfi (fun x => ({ x with demands := x.demands.filter (fun d => decide (d.src ≠ .breach) && s0.srcActive d) } : Sfi).trimStops)
  s.sfi.demands.filter (fun d => if d.src = .breach then s1.srcActive d else s0.srcActive d)

/-- A valid reset clears every latched item whose source is inactive (R381). -/
def State.resetTake (s : State) : State :=
  let live := s.liveDemands
  let gone := s.sfi.demands.length - live.length
  let discs := s.sfi.ins.filter (fun p => p.2.disc && p.2.back)
  let cuts := s.sfi.outs.filter (fun p => p.2.cutOff)
  if s.resetNeeded ∧ gone = 0 ∧ discs = [] ∧ cuts = [] then s.resetReject 4
  else
    let s1 := s.updSfi (fun x => ({ x with
      demands := live
      mons := x.mons.map (fun p =>
        let on := live.any (fun d => decide (d.src = .breach) && decide ((s.safety.mons[p.1]?).map (·.axis) = some d.axis))
        (p.1, if on then p.2 else { p.2 with breach := [], disc := false }))
      ins := x.ins.map (fun p => (p.1, p.2.reset))
      outs := x.outs.map (fun p => (p.1, { p.2 with cutOff := false }))
      resetAt := some s.now } : Sfi).trimStops)
    ((s1.sfiCount 5).sfiEvent 0x110B [.h (gone + discs.length + cuts.length)]).sfiPermits

/-- SAFE_RESET: pin A or B of SAFE_RESET takes a filtered level, which stands for 1 ms at least; the rise of the second pin takes or rejects a reset
(R381). -/
def execSafeReset (chanB lvl : Bool) (s : State) : Host.Outcome State Fault Refusal :=
  let me := if chanB then s.sfi.rstB else s.sfi.rstA
  let other := if chanB then s.sfi.rstA else s.sfi.rstB
  if me.level = lvl ∨ s.now < me.since + msU then .next s
  else
    let rest := fun (p : ResetPin) => decide (p.level = false) && decide (p.since + 100 * msU ≤ s.now)
    let idle := rest me && rest other
    let me1 : ResetPin := { level := lvl, since := s.now, idleOk := lvl && idle }
    let s1 := s.updSfi (fun x => if chanB then { x with rstB := me1 } else { x with rstA := me1 })
    if lvl = false then .next s1
    else
      let s2 := if idle then s1.updSfi (fun x => { x with stuck := false }) else s1
      if other.level = false ∨ s2.sfi.stuck then .next s2
      else if s.now > other.since + 10 * msU then .next (s2.resetReject 1)
      else if other.idleOk = false then .next (s2.resetReject 2)
      else if s2.sfi.st = .normal then .next s2.resetTake
      else .next s2

/-- RESET_STUCK: a reset pin is still active 2 s after a reset was taken (R381). -/
def execResetStuck (s : State) : Host.Outcome State Fault Refusal :=
  match s.sfi.resetAt with
  | none => .next s
  | some t =>
    if s.now < t + 2000 * msU then .next s
    else
      let s1 := s.updSfi (fun x => { x with resetAt := none })
      if s.sfi.rstA.level ∨ s.sfi.rstB.level then .next ((s1.updSfi (fun x => { x with stuck := true })).resetReject 3)
      else .next s1

/-- SFI_SUPPLY_TRIP: the supply monitor of SCA or SCB trips (R363). -/
def execSfiSupplyTrip (chanB : Bool) (s : State) : Host.Outcome State Fault Refusal :=
  if s.sfi.st = .normal then .next (s.islandFault (if chanB then 5 else 4)) else .next s

end Sys2Proof.Machine
end

