-- ==== Sys2Proof/Machine/FabCore.lean ====
section
/-! DEFINITION. Machine/FabCore.lean: frames of the fabric and of the twin link (R313, R316, R320 to R324, R335). -/

namespace Sys2Proof.Machine

/-- The 16 bytes of a header (R313). -/
def FabHdr.bytes (h : FabHdr) : List Byte :=
  leBytes 1 h.ftype ++ leBytes 1 (h.origin % 64 + 64 * b2n h.noId) ++ leBytes 1 h.hops ++ leBytes 1 h.ttl
    ++ leBytes 1 (b2n h.wrapped + 2 * b2n h.dual + 4 * (h.port % 2) + 8 * (h.links % 4)) ++ [0] ++ leBytes 2 h.len ++ leBytes 8 h.cycle

/-- The CRC over header and body, with HOPS and TTL taken as 0. -/
def fabCrc (hdr body : List Byte) : Nat := (crc32c (hdr.take 2 ++ [0, 0] ++ hdr.drop 4 ++ body)).toNat

/-- A fabric frame from its MAC header to before its FCS: the addresses name the origin and the port it leaves by. -/
def fabFrame (etype : Nat) (h : FabHdr) (out : Nat) (body : List Byte) : List Byte :=
  macHdr (macAddr true h.origin false 0 0 (0x10 + out)) (macAddr false h.origin false 0 0 (0x10 + out)) etype
    ++ h.bytes ++ body ++ leBytes 4 (fabCrc h.bytes body)

/-- Reads a frame: its header and body, where EtherType, length and check are right. -/
def readFab (etype : Nat) (fr : List Byte) : Option (FabHdr × List Byte) :=
  let b := (fr.drop 14).take 16
  let f := leAt b 4 1
  let o := leAt b 1 1
  let h : FabHdr :=
    { ftype := leAt b 0 1, origin := o % 64, noId := o.testBit 6, hops := leAt b 2 1, ttl := leAt b 3 1, wrapped := f.testBit 0
      dual := f.testBit 1, port := b2n (f.testBit 2), links := f / 8 % 4, len := leAt b 6 2, cycle := leAt b 8 8 }
  let body := (fr.drop 30).take h.len
  if beAt fr 12 2 = etype ∧ fr.length = 34 + h.len ∧ leAt fr (30 + h.len) 4 = fabCrc b body then some (h, body) else none

/-- Wire time of a frame given from its MAC header to before its FCS: 12 bytes more of preamble and FCS, at 1.25 byte per ns, in
2^-16 ns. -/
def fabTime (len : Nat) : Nat := (len + 12) * 4 * 65536 / 5

/-! ### Bodies -/

/-- The body of a HELLO (R316). -/
def helloBody (serial partner id : Nat) (assigned bound : Bool) (st role epoch : Nat) (candle : List Byte) (d0 d1 : Nat) : List Byte :=
  leBytes 8 serial ++ leBytes 8 partner ++ leBytes 1 (id % 64 + 64 * b2n assigned + 128 * b2n bound)
    ++ leBytes 1 (st % 16 + 16 * (role % 8)) ++ leBytes 4 epoch ++ padTo 32 candle ++ leBytes 4 d0 ++ leBytes 4 d1 ++ [0, 0]

/-- What a HELLO says, with what was known of its sender's place. -/
def Member.ofHello (b : List Byte) (links now : Nat) (old : Option Member) : Member :=
  let i := leAt b 16 1
  let c := leAt b 17 1
  { serial := leAt b 0 8, partner := leAt b 8 8, id := i % 64, assigned := i.testBit 6, bound := i.testBit 7
    cstate := c % 16, role := c / 16 % 8, epoch := leAt b 18 4, candle := (b.drop 22).take 32, d0 := leAt b 54 4, d1 := leAt b 58 4
    hops0 := old.bind (·.hops0), hops1 := old.bind (·.hops1), links := links, seenAt := now }

/-- A record of a FAB_DATA body is closed by an RCRC over the low word of CYCLE and the record (R256, R322). -/
def fabSeal (cycle : Nat) (r : List Byte) : List Byte := sealRec (cycle % 2 ^ 32) false r

/-- The record of a line angle (R322). -/
def laRecordBytes (m idx st : Nat) (ang vel acc : Int) : List Byte :=
  fabSeal m ([1] ++ leBytes 1 (idx % 16) ++ leBytes 1 (st % 16) ++ [0] ++ leBytes 8 m ++ leBytes 8 (dInt ang).toNat
    ++ leBytes 8 (dInt vel).toNat ++ leBytes 8 (dInt acc).toNat)

/-- A block of signals (R324): sent in cycle `n`, with the values at the end of cycle `m`. -/
def sigBlockBytes (n m first : Nat) (vals : List Word) : List Byte :=
  fabSeal n ([2] ++ leBytes 1 vals.length ++ leBytes 2 (first % 16384) ++ leBytes 8 m ++ wordBytes vals)

/-- The COMMIT record (R328). The spec names its fields and not where they stand: the order and sizes it gives, after a type
byte and three zeros (DEDUCED from the other record types, log entry 66). -/
def commitBytes (n e prefix_ at_ : Nat) : List Byte :=
  fabSeal n ([3, 0, 0, 0] ++ leBytes 4 e ++ leBytes 4 prefix_ ++ leBytes 8 at_)

/-- A record of a FAB_DATA body. -/
inductive FabRec where
  | angle (idx : Nat) (r : Nat × Nat × Int × Int × Int)   -- index; cycle, state, angle, velocity, acceleration
  | sigs (first m : Nat) (vals : List Word)
  | commit (e prefix_ at_ : Nat)
  | bad
deriving DecidableEq, Repr

/-- Length of the record at the head of a body, 0 where its type is unknown. -/
def fabRecLen (b : List Byte) : Nat :=
  match leAt b 0 1 with
  | 1 => 40
  | 2 => 16 + 4 * leAt b 1 1
  | 3 => 24
  | _ => 0

/-- Reads one record. -/
def fabRecOf (cycle : Nat) (r : List Byte) : FabRec :=
  if recOk (cycle % 2 ^ 32) false r = false then .bad
  else match leAt r 0 1 with
    | 1 => .angle (leAt r 1 1 % 16) (leAt r 4 8, leAt r 2 1 % 16, sgn 64 (leAt r 12 8), sgn 64 (leAt r 20 8), sgn 64 (leAt r 28 8))
    | 2 => .sigs (leAt r 2 2 % 16384) (leAt r 4 8) (bytesWords (leAt r 1 1) (r.drop 12))
    | 3 => .commit (leAt r 4 4) (leAt r 8 4) (leAt r 12 8)
    | _ => .bad

/-- The records of a FAB_DATA body behind its candle prefix. The count bounds the walk. -/
def fabRecs (cycle : Nat) : Nat → List Byte → List FabRec
  | 0, _ => []
  | k + 1, b =>
    let n := fabRecLen b
    if n = 0 ∨ b.length < n then [] else fabRecOf cycle (b.take n) :: fabRecs cycle k (b.drop n)

end Sys2Proof.Machine
end

