-- ==== Sys2Proof/Machine/Eiu.lean ====
section
/-! DEFINITION. Machine/Eiu.lean: the encoder interface EIU (R69 to R93): quadrature, index, sin/cos, serial encoders,
probes and the posting of local samples. -/

namespace Sys2Proof.Machine

/-- An encoder channel. -/
def State.enc (s : State) (k : Nat) : EncCh := Tab.get {} s.eiu k
/-- Puts an encoder channel, with the status bits that show it. -/
def State.setEnc (s : State) (k : Nat) (c : EncCh) : State :=
  let s1 : State := { s with eiu := Tab.set {} s.eiu k c }
  let w := setBit (setBit (setBit (setBit (s1.rd (Reg.eiuStatus k)) 0 c.posValid) 1 c.est.standstill) 2 c.est.bound) 4 c.idxSeen
  s1.wr (Reg.eiuStatus k) w

/-- MODE of a channel. -/
def State.encMode (s : State) (k : Nat) : Nat := s.rdFld (Reg.eiuMode k) 3 0
/-- The counter of the channel runs: QUAD and the sin/cos modes. -/
def encCounts (m : Nat) : Bool := m = 1 || m = 2 || m = 5 || m = 6
/-- The sin/cos modes. -/
def encSc (m : Nat) : Bool := m = 2 || m = 5 || m = 6
/-- The modes with BiSS frames; the other serial ones read SSI. -/
def encBiss (m : Nat) : Bool := m = 4 || m = 6

/-- The estimator settings of a channel (EIU_SPEED_CFG). -/
def State.encCfg (s : State) (k : Nat) : SpeedCfg :=
  let f := s.rdFld (Reg.eiuSpeedCfg k)
  { nE := f 31 28, estep := f 27 24, eHi := f 23 16, tSs := f 15 0 }

/-- What the image says of a channel beside its registers. -/
def State.encDecl (s : State) (k : Nat) : EncDecl := Tab.get {} s.ctrl.encs k

/-- A sticky flag of EIU_STATUS. -/
def State.encFlag (s : State) (k i : Nat) : State := s.wrBit (Reg.eiuStatus k) i true

/-! ### POS_VALID (R70) -/

/-- POS_VALID is cleared with a cause; the axes fed meet a fault condition, and their HOMED is cleared (R61, R70, R210). -/
def State.posInvalid (s : State) (k cause : Nat) : State :=
  let c := s.enc k
  if c.posValid = false then s.setEnc k { c with idxSeen := false }
  else
    let s1 := (s.setEnc k { c with posValid := false, idxSeen := false }).event 0x0809 [.h k, .h cause]
    (s1.axesOfChan k).foldl (fun st a => ((st.posLost a).addCond a 0x0809)) s1

/-- The supply named by SUPPLY has been on for ENC_SETTLE, 20 ms, or none is named (R70). -/
def State.encSettled (s : State) (k : Nat) : Bool :=
  let p := s.rdFld (Reg.eiuMode k) 19 16
  if p = 15 then true
  else
    let o := Tab.get {} s.pem.outs p
    o.on && decide (o.onAt + 20 * msU ≤ s.now)

/-- POS_VALID of a QUAD or SINCOS channel is first set: the position starts at 0 (R70). -/
def State.encFirst (s : State) (k : Nat) : State :=
  let c := s.enc k
  let m := s.encMode k
  if (m = 1 ∨ m = 2) ∧ c.everSet = false ∧ s.cyc.running = true ∧ s.encSettled k = true then
    s.setEnc k { c with
      posValid := true, everSet := true, idxSeen := false, pos := 0, sPos := 0, convs := [], edges := [], est := {}, estPre := {} }
  else s

/-- ENC_SETTLE: the supply of an encoder has been on for 20 ms (R70). -/
def execEncSettle (k : Nat) (s : State) : Host.Outcome State Fault Refusal := .next (s.encFirst k)

/-- The sample of S is taken: position, speed, and the registers that show them (R84, R88). -/
def State.encSample (s : State) (k t : Nat) (pos : Int) : State :=
  let c := s.enc k
  let e := c.est.atS (s.encCfg k) t (some pos)
  let s1 := s.setEnc k { c with est := e, sPos := pos, sValid := true }
  (s1.wr64 (Reg.eiuPosLo k) (Reg.eiuPosHi k) (dInt pos)).wr64 (Reg.eiuSpeedLo k) (Reg.eiuSpeedHi k) (dInt e.v)

/-- An S without a valid sample: the speed alone is evaluated (R88). -/
def State.encQuiet (s : State) (k t : Nat) : State :=
  let c := s.enc k
  let e := c.est.atS (s.encCfg k) t none
  (s.setEnc k { c with est := e }).wr64 (Reg.eiuSpeedLo k) (Reg.eiuSpeedHi k) (dInt e.v)

/-- The channel is sampled at the S of cycle `n`: an axis that it feeds is active in it, or it feeds a line angle alone (R79). -/
def State.encDue (s : State) (k n : Nat) : Bool :=
  let l := s.axesOfChan k
  l.isEmpty || l.any (fun a => (s.desc a).active n)

/-- Some axis fed by the channel is of class C2: the channel is sampled in both halves (R35). -/
def State.encC2 (s : State) (k : Nat) : Bool := (s.axesOfChan k).any (fun a => (s.desc a).c2)

/-- The sample of the second half of a QUAD channel, taken before an edge later than its S counts (R35, R88). -/
def State.halfSample (s : State) (k : Nat) : State :=
  let c := s.enc k
  if s.cyc.running = false ∨ s.encMode k ≠ 1 ∨ c.sHalf ∨ s.encC2 k = false then s
  else (s.setEnc k { c with sHalf := true }).encSample k (s.sampleAt 1) c.pos

/-! ### Quadrature and index (R71 to R74) -/

/-- The position that an index event latches into EIU_IDX_POS (R73). -/
def State.idxPos (s : State) (k : Nat) : Int :=
  let c := s.enc k
  if encSc (s.encMode k) then c.pos - c.convPos + c.count * 2 ^ 32 else c.pos

/-- An index event latches its position. -/
def State.idxLatch (s : State) (k : Nat) : State :=
  s.wr64 (Reg.eiuIdxPosLo k) (Reg.eiuIdxPosHi k) (dInt (s.idxPos k))

/-- A line after its filter: a level that comes sooner than FILT samples after the line's last accepted change cannot have been
stable for FILT samples, and is removed (R71). Answers the level and the clock of the last accepted change. -/
def lineFilt (filt clk : Nat) (was now : Bool) (last : Nat) : Bool × Nat :=
  if was = now ∨ clk < last + filt then (was, last) else (now, clk)

/-- A fault condition of every axis that a channel feeds (R61). -/
def State.chanCond (s : State) (k code : Nat) : State := (s.axesOfChan k).foldl (fun st a => st.addCond a code) s

/-- QUAD_EDGE: the lines of a channel change (R71, R72). An edge whose time is at or before S belongs to S, though its filter
delay ends later (R88, R90). With overrate an index event is latched and not checked (R90). ENC_ILLEGAL carries the position
count (DESIGN CHOICE, log entry 26). -/
def execQuadEdge (k : Nat) (a b z : Bool) (s : State) : Host.Outcome State Fault Refusal :=
  let c := s.enc k
  let m := s.encMode k
  if encCounts m = false then .next s
  else
    let filt := s.rdFld (Reg.eiuQcfg k) 6 0
    let la := lineFilt filt s.clk c.a a c.lnA
    let lb := lineFilt filt s.clk c.b b c.lnB
    let lz := lineFilt filt s.clk c.z z c.lnZ
    let c0 : EncCh := { c with a := la.1, b := lb.1, z := lz.1, lnA := la.2, lnB := lb.2, lnZ := lz.2, gate := false }
    let i1 := s.inject 0x13 k
    let s := i1.2
    match if i1.1 then none else quadStep c.a c.b la.1 lb.1 with
    | none =>
      let s1 := (((s.setEnc k c0).encFlag k 8).count (Reg.eiuIllegalCnt k)).event 0x0801 [.h k, .i c.count]
      .next (if s.rdBit (Reg.eiuQcfg k) 31 then s1.posInvalid k 3 else s1)
    | some d =>
      if d = 0 then .next (s.setEnc k c0)
      else
        let t := s.now - filt * clkU
        let rate := max (s.rdFld (Reg.eiuQcfg k) 23 16) 1
        let least := max (800 / rate) (if encSc m then 100 else 0)
        let i2 := s.inject 0x15 k
        let s := if s.sampleAt 1 < t then i2.2.halfSample k else i2.2
        let c := s.enc k
        let fast := i2.1 || (c.counted && decide (s.clk - c.edgeClk < least))
        let inGate := la.1 && lb.1 && lz.1
        let atS := s.cyc.running && c.sValid && !c.posted.contains 0 && decide (t ≤ s.sampleAt 0)
        let p := c.pos + d * 2 ^ 32
        let e : SpeedEst := { ((if atS then c.estPre else c.est).edge d t) with refPos := p }
        let c1 : EncCh := { c with
          a := la.1, b := lb.1, z := lz.1, lnA := la.2, lnB := lb.2, lnZ := lz.2, count := c.count + d, edgeClk := s.clk, counted := true
          gate := inGate && !fast }
        let h : CountEdge := { t := t, pos := p, dir := d, gap := e.gap (s.encCfg k) }
        let c2 : EncCh := if m = 1 then { c1 with
            pos := p, est := e, estPre := if atS then e else c.estPre
            edges := keepSince CountEdge.t (s.now - probeSpan) (h :: c.edges) } else c1
        let s1 := s.setEnc k c2
        let s2 := if m = 1 ∧ atS = true then s1.encSample k (s.sampleAt 0) p else s1
        if fast then
          let s3 := (((s2.encFlag k 10).event 0x0803 [.h k]).chanCond k 0x0803).posInvalid k 1
          .next (if inGate then s3.idxLatch k else s3)
        else .next s2

/-- INDEX_EVENT: the count has entered the gate state with Z active (R73, R74). -/
def execIndexEvent (k : Nat) (s : State) : Host.Outcome State Fault Refusal :=
  let c := s.enc k
  if c.gate = false then .next s
  else
    let p := s.idxPos k
    let lines := s.rdFld (Reg.eiuLines k) 23 0
    let d := c.count - c.idxLast
    let s1 := (s.idxLatch k).setEnc k { c with gate := false, idxSeen := true, idxLast := c.count }
    let s2 := (s1.axesOfChan k).foldl (fun st i => st.updPgn (.ax i) (fun g =>
      if g.hStep = 3 ∧ (g.hMethod = 7 ∨ g.hRelease.isSome = true) ∧ g.hIdx = none then { g with hIdx := some p } else g)) s1
    if lines = 0 ∨ c.idxSeen = false then .next s2
    else
      let i := s2.inject 0x14 k
      if i.1 = false ∧ indexOk lines (s.rdFld (Reg.eiuLines k) 31 24) d = true then .next i.2
      else
      let s2 := i.2
      let s3 := ((s2.encFlag k 9).count (Reg.eiuIdxErrCnt k)).event 0x0802 [.h k, .i d]
      .next (if s.rdBit (Reg.eiuQcfg k) 30 then s3.posInvalid k 2 else s3)

/-! ### Probes (R85, R86) -/

/-- A probe of a channel. -/
def EncCh.probe (c : EncCh) (p : Nat) : Probe := c.probes.getD p {}

/-- Puts a probe, shown in EIU_PROBE_STATUS. -/
def State.setProbe (s : State) (k p : Nat) (x : Probe) : State :=
  let c := s.enc k
  let s1 : State := { s with eiu := Tab.set {} s.eiu k { c with probes := c.probes.set p x } }
  let r := Reg.eiuProbeStatus k
  s1.wr r (setBit (setBit (setBit (s1.rd r) (8 * p) x.armed) (8 * p + 1) x.full) (8 * p + 2) x.extrap)

/-- SRC of a probe. -/
def State.probeSrc (s : State) (k p : Nat) : Nat := s.rdFld (Reg.eiuProbeCtrl k) (16 * p + 3) (16 * p)
/-- CONT of a probe. -/
def State.probeCont (s : State) (k p : Nat) : Bool := s.rdBit (Reg.eiuProbeCtrl k) (16 * p + 13)

/-- Writes a probe's result. -/
def State.probeLatch (s : State) (k p : Nat) (pos : Int) (t : Nat) (extrap : Bool) : State :=
  let x := (s.enc k).probe p
  let s1 := s.setProbe k p { x with armed := false, full := true, extrap := extrap, pend := none }
  let tm := (timeOf t).toNat
  ((((s1.wr64 (Reg.eiuProbePosLo k p) (Reg.eiuProbePosHi k p) (dInt pos)).wr (Reg.eiuProbeTime0 k p) (w32 (tm % 2 ^ 32))).wr
    (Reg.eiuProbeTime1 k p) (w32 (tm / 2 ^ 32 % 2 ^ 32))).wr (Reg.eiuProbeTime2 k p) (w32 (tm / 2 ^ 64)))

/-- The position of a channel at a probe time (R86), with EXTRAP, or none where it is not known yet: the count edges up to that time are
still in the filter of their lines (`done`: no command of the present clock is left), or the conversion that bounds it is to come. -/
def State.probePos (s : State) (k t : Nat) (done : Bool) : Option (Int × Bool) :=
  let c := s.enc k
  let m := s.encMode k
  if m = 1 then
    let due := t + s.rdFld (Reg.eiuQcfg k) 6 0 * clkU
    if due < s.now ∨ (done = true ∧ due ≤ s.now) then some (c.quadAt t, false) else none
  else if encSc m then (lerpIn t c.convs).map (fun p => (p, false))
  else some (c.sPos + divRound (c.est.v * ((t : Int) - c.est.sTime.getD (s.sampleAt 0)) * 256) secTicks, true)

/-- A probe takes an edge of a time: it is latched as soon as its position is known. -/
def State.probeTake (s : State) (k p t : Nat) (done : Bool) : State :=
  match s.probePos k t done with
  | some (pos, ex) => s.probeLatch k p pos t ex
  | none => s.setProbe k p { ((s.enc k).probe p) with armed := false, pend := some t }

/-- A selected edge reaches a probe (R85). One that meets FULL is lost, unless ACK clears it in the same clock. -/
def State.probeEdge (s : State) (k p : Nat) (lvl : Bool) (t : Nat) : State :=
  let x := (s.enc k).probe p
  let e := s.rdFld (Reg.eiuProbeCtrl k) (16 * p + 12) (16 * p + 11)
  let sel := if e = 0 then lvl else if e = 1 then !lvl else decide (e = 2)
  if sel = false then s
  else if t < x.armAt then s
  else if x.full ∨ x.pend.isSome then s.setProbe k p { x with late := some t }
  else if x.armed = false ∧ x.ackClk ≠ some s.clk then s
  else s.probeTake k p t false

/-- ARM of a probe. -/
def State.probeArm (s : State) (k p : Nat) : State :=
  let x := (s.enc k).probe p
  s.setProbe k p { x with armed := true, lau := false, armAt := 0 }

/-- ACK of a probe: FULL is cleared, and an edge that met it in this clock is latched (R85). -/
def State.probeAck (s : State) (k p : Nat) : State :=
  let x := (s.enc k).probe p
  let s1 := s.setProbe k p { x with
    full := false, armed := x.armed || s.probeCont k p, ackClk := if x.full then some s.clk else x.ackClk, late := if x.full then none else x.late }
  match x.late with
  | some t => if x.full then s1.probeTake k p t false else s1
  | none => s1

/-- The end of a clock for a probe: an edge that met FULL is lost, and one that waits is latched once its position is known (R85, R86). -/
def State.probeSettle (s : State) (k p : Nat) : State :=
  let x := (s.enc k).probe p
  let s1 := if x.late.isSome then ((s.setProbe k p { x with late := none }).encFlag k 14).event 0x0808 [.h k, .h p] else s
  match x.pend with
  | some t => s1.probeTake k p t true
  | none => s1

/-- PROBE_ARM: ARM is written to a probe (R85). -/
def execProbeArm (k p : Nat) (s : State) : Host.Outcome State Fault Refusal :=
  if s.hostOpen then .next (s.probeArm k p) else .next s

/-- PROBE_ACK: ACK is written to a probe (R85). -/
def execProbeAck (k p : Nat) (s : State) : Host.Outcome State Fault Refusal :=
  if s.hostOpen then .next (s.probeAck k p) else .next s

/-! ### Sin/cos (R75 to R78) -/

/-- Correction coefficients in use. -/
def State.scFit (s : State) (k : Nat) : ScFit :=
  { osSin := (s.rd (Reg.eiuScOsSin k)).toInt, osCos := (s.rd (Reg.eiuScOsCos k)).toInt, gain := (s.rd (Reg.eiuScGain k)).toNat
    phi := (s.rd (Reg.eiuScPhase k)).toInt }

/-- Counter and angle merged (R76): the corrected count, the merged position and the quadrant difference. -/
def scMerge (f : ScFit) (coarse : Bool) (count : Int) (sv cv : Int) : Int × Int × Int :=
  let r := scCorrect sv cv f.osSin f.osCos f.gain f.phi
  let th := atanLine r.1 r.2
  let d := quadDiff count th
  if coarse ∨ d = 2 then (count, count * 2 ^ 32, d)
  else
    let n := count + d
    (n, n / 4 * 4 * 2 ^ 32 + th * 2 ^ 20, d)

/-- SC_SIGNAL's effect (R77). The radius is logged in 2^-14 of the nominal amplitude (DESIGN CHOICE, log entry 27). -/
def State.scLost (s : State) (k : Nat) : State :=
  let c := s.enc k
  if c.signal then s
  else
    let f := s.scFit k
    let r := scCorrect c.scS c.scC f.osSin f.osCos f.gain f.phi
    let rad := Nat.sqrt ((r.1 * r.1 + r.2 * r.2).toNat) / 2 ^ 17
    (((s.setEnc k { c with signal := true }).encFlag k 11).event 0x0804 [.h k, .h rad]).posInvalid k 4

/-- Conversions lie 244.140625 ns apart (R75). -/
def convU : Nat := 16000000
/-- The instant of conversion `n` of a cycle: S + n x 244.140625 ns, placed to 0.25 ns (R75). -/
def State.convAt (s : State) (n : Nat) : Nat := s.sampleAt 0 + quarterNs (n * convU)

/-- SINCOS_CONVERSION: a conversion pair, in units of 2^-31 of the nominal amplitude (R75 to R78), at the next conversion instant of
the cycle. The first one of a channel finds the counter in the quadrant of the comparators, and leaves the position as it stands. -/
def execSincosConversion (k : Nat) (sv cv : Int) (s : State) : Host.Outcome State Fault Refusal :=
  let c := s.enc k
  let n := c.convK
  let t := s.convAt n
  if encSc (s.encMode k) = false ∨ s.cyc.running = false ∨ s.now < t ∨ s.per / convU ≤ n then .next s
  else
    let f := s.scFit k
    let v := c.est.v.natAbs / 2 ^ 24
    let coarse := decide (2000000 < v)
    let r := scCorrect sv cv f.osSin f.osCos f.gain f.phi
    let count := if c.scSeen then c.count else c.count + quadDiff c.count (atanLine r.1 r.2)
    let m := scMerge f coarse count sv cv
    let hit := s.inject 0x17 k
    let s := hit.2
    let pos := if c.convs = [] then c.pos else c.pos + (m.2.1 - c.convPos)
    let dir : Int := if pos < c.pos then -1 else if c.pos < pos then 1 else c.fitDir
    let turned := decide (c.fitDir ≠ 0 ∧ dir ≠ c.fitDir)
    let fitOn := scFitRadius r.1 r.2 && decide (200 ≤ v ∧ v ≤ 400000) && (c.fitFrom.isNone || !turned)
    let est := c.est.moveTo (s.encCfg k) pos t
    let c1 : EncCh := { c with
      count := m.1, pos := pos, convPos := m.2.1, convs := keepSince Prod.fst (s.now - probeSpan) ((t, pos) :: c.convs), convK := n + 1,
      scSeen := true, scS := sv, scC := cv, badRun := if scBad r.1 r.2 then c.badRun + 1 else 0, signal := c.signal && scBad r.1 r.2
      fitFrom := if fitOn then some (c.fitFrom.getD pos) else none, fitDir := dir, est := est }
    let s1 := (s.setEnc k c1).wrBit (Reg.eiuStatus k) 3 coarse
    let s2 := if n = 0 ∨ (n = 32 ∧ s.encC2 k = true) then s1.encSample k t pos else s1
    let s3 := if hit.1 then s2.scLost k else s2
    if m.2.2 = 2 ∧ coarse = false then
      .next (((s3.encFlag k 12).event 0x0805 [.h k, .h 2]).posInvalid k 5)
    else .next s3

/-- SC_SIGNAL: the corrected radius has been out of range for 4 conversions (R77). -/
def execScSignal (k : Nat) (s : State) : Host.Outcome State Fault Refusal :=
  if (s.enc k).badRun < 4 then .next s else .next (s.scLost k)

/-- FIT_COMPLETED: a fit over FIT_LINES lines is complete: applied at the next boundary, or rejected (R78). -/
def execFitCompleted (k : Nat) (osSin osCos gain phi : Int) (s : State) : Host.Outcome State Fault Refusal :=
  let c := s.enc k
  match c.fitFrom with
  | none => .next s
  | some p =>
    if (c.pos - p).natAbs < (s.encDecl k).lines * 4 * 2 ^ 32 then .next s
    else
      let f : ScFit := { osSin := osSin, osCos := osCos, gain := gain, phi := phi }
      let ok := fitOk (s.scFit k) f
      let w := s.rd (Reg.eiuScFit k)
      let hi := if ok then fld w 31 16 else min 65535 (fld w 31 16 + 1)
      let lo := if ok then min 65535 (fld w 15 0 + 1) else fld w 15 0
      let s1 := s.setEnc k { c with fitFrom := none, fit := if ok then some f else c.fit }
      .next ((s1.wr (Reg.eiuScFit k) (w32 (hi * 65536 + lo))).event 0x0806 [.h k, .h (b2n !ok)])

/-- An accepted fit is applied at a boundary: the position's step moves the estimator's references with it (R78). -/
def State.scApply (s : State) (k : Nat) : State :=
  let c := s.enc k
  match c.fit with
  | none => s
  | some f =>
    let m := scMerge f (s.rdBit (Reg.eiuStatus k) 3) c.count c.scS c.scC
    let s1 := s.setEnc k { (c.shift (m.2.1 - c.convPos)) with fit := none, convPos := m.2.1, count := m.1 }
    (((s1.wr (Reg.eiuScOsSin k) (wInt f.osSin)).wr (Reg.eiuScOsCos k) (wInt f.osCos)).wr (Reg.eiuScGain k) (wInt f.gain)).wr
      (Reg.eiuScPhase k) (wInt f.phi)

/-! ### Serial encoders (R79 to R83) -/

/-- The clock period of a serial channel, t_clk. -/
def State.serClk (s : State) (k : Nat) : Nat := s.rdFld (Reg.eiuSerCfg k) 31 24 * 50 * nsU
/-- LATCH_DELAY. -/
def State.latchDelay (s : State) (k : Nat) : Nat := s.rdFld (Reg.eiuSerTiming k) 21 11 * clkU

/-- A read is due at the S of cycle `n`: in each active cycle of the channel's axis, or in every base cycle where it feeds a line angle
alone (R79); in the combined modes at the start and on REREAD alone (R69). -/
def State.readDue (s : State) (k n : Nat) : Bool :=
  let m := s.encMode k
  if m = 3 ∨ m = 4 then s.encDue k n
  else decide (m = 5 ∨ m = 6) && (!(s.enc k).ref_ || s.rdBit (Reg.eiuMode k) 31)

/-- SERIAL_READ_START: the clock of a read is started so that the encoder latches at S - LATCH_DELAY, to the nearest clock (R79): at the
S of the present cycle or of the next. An SSI burst waits for TM after the one before it (R80). -/
def execSerialReadStart (k : Nat) (s : State) : Host.Outcome State Fault Refusal :=
  let c := s.enc k
  let m := s.encMode k
  let ahead := decide (s.cyc.c0 + s.per ≤ s.now + s.latchDelay k + clkU / 2)
  let t := if ahead then s.cyc.c0 + s.per else s.cyc.c0
  let placed := decide (t ≤ s.now + s.latchDelay k + clkU / 2 ∧ s.now + s.latchDelay k < t + clkU)
  let free := encBiss m || decide (c.serEnd + s.rdFld (Reg.eiuSerTiming k) 31 22 * 100 * nsU ≤ s.now)
  if s.cyc.running = false ∨ s.readDue k (s.cyc.n + b2n ahead) = false ∨ c.reading ∨ c.readFor = some t ∨ placed = false ∨ free = false then
    .next s
  else .next (s.setEnc k { c with
    reading := true, abs := decide (m = 5 ∨ m = 6), readFor := some t, readAt := s.now, readOk := false, again := false })

/-- The data bits of a frame without the bits at two places. -/
def dropBits (n v : Nat) (a b : Option Nat) : Nat × Nat :=
  (List.range n).foldl (fun acc i => if a = some i ∨ b = some i then acc
    else (acc.1 + (v / 2 ^ i % 2) * 2 ^ acc.2, acc.2 + 1)) (0, 0)

/-- The signed difference of two values modulo 2^BITS (R82). -/
def bitsDiff (bits v w : Nat) : Int := sgn bits ((v + 2 ^ bits - w % 2 ^ bits) % 2 ^ bits)

/-- Judges a frame (R80 to R82): value and verdict. The check bits follow the data bits; `ack` is the number of clocks after which the
start bit came. -/
def State.serJudge (s : State) (k : Nat) (frame ack delay : Nat) : Nat × SerVerdict :=
  let c := s.enc k
  let d := s.encDecl k
  let biss := encBiss (s.encMode k)
  let bits := s.rdFld (Reg.eiuSerCfg k) 23 18
  let chk := s.rdFld (Reg.eiuSerCfg k) 17 16
  let w := s.rdFld (Reg.eiuSerCrc k) 20 16
  let cb := if biss then w else if chk = 1 ∨ chk = 2 then 1 else 0
  let data := frame / 2 ^ cb % 2 ^ bits
  let tail := frame % 2 ^ cb
  let crc := serialCrc w (s.rdFld (Reg.eiuSerCrc k) 15 0) bits data
  let want := if s.rdBit (Reg.eiuSerCrc k) 31 then 2 ^ w - 1 - crc else crc
  let good := if biss then decide (tail = want)
    else if chk = 1 then oddParity bits data == decide (tail = 1)
    else if chk = 2 then oddParity bits data != decide (tail = 1)
    else true
  let v := if biss then (dropBits bits data d.nE d.nW).1
    else if s.rdBit (Reg.eiuSerCfg k) 15 then grayDecode bits data else data
  let err := biss && (match d.nE with | some i => decide (data / 2 ^ i % 2 = 0) | none => false)
  let warn := biss && (match d.nW with | some i => decide (data / 2 ^ i % 2 = 0) | none => false)
  let verdict :=
    if biss ∧ s.rdFld (Reg.eiuSerCfg k) 11 8 < ack then .bad 3
    else if biss ∧ 1600 < delay then .bad 4
    else if good = false then .bad 1
    else if err then .bad 2
    else if c.rawSeen ∧ d.jump < (bitsDiff bits v c.raw).natAbs then .bad 5
    else .good warn
  (v, verdict)

/-- One LSB of a serial encoder in raw position units: 2^SHIFT counts. -/
def State.serLsb (s : State) (k : Nat) : Nat := 2 ^ (32 + sgn 8 (s.rdFld (Reg.eiuSerCfg k) 7 0)).toNat

/-- When the last bit of a frame has come, from the start of its clock (R80, R81). -/
def State.frameTime (s : State) (k ack delay : Nat) : Nat :=
  let bits := s.rdFld (Reg.eiuSerCfg k) 23 18
  if encBiss (s.encMode k) then
    let most := s.rdFld (Reg.eiuSerCfg k) 11 8
    if most < ack then most * s.serClk k
    else (if 1600 < delay then 1600 else delay) * clkU + (ack + 2 + bits + s.rdFld (Reg.eiuSerCrc k) 20 16) * s.serClk k
  else s.rdFld (Reg.eiuSerTiming k) 10 0 * clkU + bits * s.serClk k

/-- A valid value gives the position of its S (R82). In the combined modes it becomes the reference of the sin/cos position: what the
axis has moved since that S stays. A read that ends after the cycle of its S gives no sample. -/
def State.serTake (s : State) (k v : Nat) : State :=
  let c := s.enc k
  let bits := s.rdFld (Reg.eiuSerCfg k) 23 18
  let lsb : Int := s.serLsb k
  let p : Int := if c.rawSeen then c.serPos + bitsDiff bits v c.raw * lsb else (v : Int) * lsb
  let t := c.readFor.getD (s.sampleAt 0)
  let c1 : EncCh := { c with
    reading := false, readOk := true, serEnd := s.now, raw := v, rawSeen := true, serPos := p, ref_ := c.ref_ || c.abs
    posValid := true, everSet := true, idxSeen := c.idxSeen && c.posValid, again := false }
  if c.abs then
    let was := ((c.convs.find? (fun q => decide (q.1 = t))).map (·.2)).getD c.pos
    let s1 := s.setEnc k (c1.shift (p - was))
    if c.again then s1 else s1.wrBit (Reg.eiuMode k) 31 false
  else
    let s1 := s.setEnc k { c1 with pos := p, est := c.est.moveTo (s.encCfg k) p t }
    if t = s.sampleAt 0 then s1.encSample k t p else s1

/-- SERIAL_READ_END: a frame is complete (R80 to R82). `frame` holds the data and check bits, most significant first as they
came; `ack` the clocks until the start bit came; `delay` the measured line delay in units of 1.25 ns. -/
def execSerialReadEnd (k frame ack delay : Nat) (s : State) : Host.Outcome State Fault Refusal :=
  let c := s.enc k
  if c.reading = false ∨ s.now < c.readAt + s.frameTime k ack delay then .next s
  else
    let j := s.serJudge k frame ack delay
    let s0 := if encBiss (s.encMode k) then s.wrFld (Reg.eiuSerTiming k) 10 0 (min delay 2047) else s
    let i := s0.inject 0x16 k
    let s0 := if c.biss then i.2.setEnc k { (i.2.enc k) with bissFrames := c.bissFrames + 1 } else i.2
    match if i.1 then SerVerdict.bad 1 else j.2 with
    | .bad kind =>
      let s1 := s0.setEnc k { (s0.enc k) with reading := false, biss := false, again := false, serEnd := s.now }
      let s2 := if c.biss then (s1.wrBit (Reg.eiuBissCmd k) 30 false).wrBit (Reg.eiuBissCmd k) 29 true else s1
      .next (((s2.encFlag k 13).count (Reg.eiuSerErrCnt k)).event 0x0807 [.h k, .h kind])
    | .good warn =>
      let s2 := s0.serTake k j.1
      .next (if warn then (s2.encFlag k 13).event 0x0807 [.h k, .h 6] else s2)

/-- REREAD is set (R70); during a read it is served by the next one (R90). -/
def State.rereadSet (s : State) (k : Nat) : State :=
  let c := s.enc k
  (if c.reading then s.setEnc k { c with again := true } else s).wrBit (Reg.eiuMode k) 31 true

/-- REREAD: an absolute re-read is requested (R70, R93). -/
def execReread (k : Nat) (s : State) : Host.Outcome State Fault Refusal :=
  let m := s.encMode k
  if s.hostOpen = true ∧ (m = 5 ∨ m = 6) then .next (s.rereadSet k) else .next s

/-- A write to EIU_BISS_CMD (R83). -/
def State.bissWrite (s : State) (k : Nat) (v : Word) : State :=
  let c := s.enc k
  let s1 := ((s.wrFld (Reg.eiuBissCmd k) 28 25 (fld v 28 25)).wrFld (Reg.eiuBissCmd k) 14 8 (fld v 14 8)).wrFld (Reg.eiuBissCmd k)
    7 0 (fld v 7 0)
  if bit v 31 = false ∨ c.biss then s1
  else ((s1.setEnc k { c with biss := true, bissFrames := 0 }).wrBit (Reg.eiuBissCmd k) 30 true).wrBit (Reg.eiuBissCmd k) 29 false

/-- BISS_REGISTER_READ: START with WRITE 0 (R83). -/
def execBissRegisterRead (k slave addr : Nat) (s : State) : Host.Outcome State Fault Refusal :=
  if s.hostOpen then .next (s.bissWrite k (w32 (2 ^ 31 + slave % 8 * 2 ^ 25 + addr % 128 * 256))) else .next s

/-- BISS_REGISTER_WRITE: START with WRITE 1 (R83). -/
def execBissRegisterWrite (k slave addr data : Nat) (s : State) : Host.Outcome State Fault Refusal :=
  if s.hostOpen then
    .next (s.bissWrite k (w32 (2 ^ 31 + 2 ^ 28 + slave % 8 * 2 ^ 25 + addr % 128 * 256 + data % 256)))
  else .next s

/-- BISS_TRANSACTION_END: a register transaction ends, at least 40 frames after its start: the register read, or ERR where
the encoder did not answer (R83). -/
def execBissTransactionEnd (k data : Nat) (ok : Bool) (s : State) : Host.Outcome State Fault Refusal :=
  let c := s.enc k
  if c.biss = false ∨ c.bissFrames < 40 then .next s
  else
    let s1 := (s.setEnc k { c with biss := false }).wrBit (Reg.eiuBissCmd k) 30 false
    if ok = false then .next (s1.wrBit (Reg.eiuBissCmd k) 29 true)
    else if s.rdBit (Reg.eiuBissCmd k) 28 then .next s1
    else .next (s1.wrFld (Reg.eiuBissCmd k) 7 0 (data % 256))

/-! ### Samples (R36, R84) -/

/-- STANDSTILL_TIMEOUT: no edge for T_SS: speed 0 and STANDSTILL (R89). The index has bit 15 set for a node-fed axis. -/
def execStandstillTimeout (i : Nat) (s : State) : Host.Outcome State Fault Refusal :=
  let quiet := fun (e : SpeedEst) (c : SpeedCfg) => (!e.standstill || decide (0 < e.run)) && decide (e.edges.headD 0 + c.tSs * usU ≤ s.now)
  let stop := fun (e : SpeedEst) => ({ e with v := 0, bound := false, standstill := true, run := 0, edges := [] } : SpeedEst)
  if 0x8000 ≤ i then
    let a := i - 0x8000
    let x := s.axis a
    if quiet x.est (s.desc a).speed then .next (s.setAxis a { x with est := stop x.est, fbVel := 0 }) else .next s
  else
    let c := s.enc i
    if quiet c.est (s.encCfg i) then
      .next ((s.setEnc i { c with est := stop c.est }).wr64 (Reg.eiuSpeedLo i) (Reg.eiuSpeedHi i) 0)
    else .next s

/-- When a channel's sample is posted after its S, in 2^-16 ns (R84). -/
def State.postDelay (s : State) (k : Nat) : Nat :=
  postTime (s.encMode k) (s.rd (Reg.eiuSerCfg k)) (s.rd (Reg.eiuSerTiming k)) (s.rd (Reg.eiuSerCrc k)) (s.encDecl k).tld

/-- Feedback of an axis for a half of this cycle is in: its position and speed at that S (R36, R44). -/
def State.landFb (s : State) (a half : Nat) (pos vel : Int) : State :=
  let s1 := s.updAxis a (fun x => { x with
    fbPos := pos, fbVelPrev := x.fbVel, fbVel := vel, fbTimePrev := x.fbTime, fbTime := s.sampleAt half, fbSeen := true
    fbFresh := !x.fbSeen || (x.fbGap && x.posValid), fbGap := x.fbGap && !x.posValid, fbNow := half :: x.fbNow
    noFb := 0, fbExtrap := false, pgn := { x.pgn with fbHist := ((s.sampleAt half, pos) :: x.pgn.fbHist).take 512 } })
  let s2 := if half = 0 then s1.limTrips a pos else s1
  (s2.delCond a 0x0604).makeReady a half false

/-- The channel has a sample of a half: of the second one only for class C2, by its count or its conversion (R35, R75, R79). -/
def State.encHas (s : State) (k half : Nat) : Bool :=
  let c := s.enc k
  if half = 0 then c.sValid
  else decide (half = 1) && s.encC2 k && (if encSc (s.encMode k) then decide (33 ≤ c.convK) else c.sHalf)

/-- LOCAL_SAMPLE_POST: EIU posts a channel's sample of a half to the dispatcher (R36, R84). -/
def execLocalSamplePost (k half : Nat) (s : State) : Host.Outcome State Fault Refusal :=
  let c := s.enc k
  if s.cyc.running = false ∨ s.encMode k = 0 ∨ c.posted.contains half ∨ s.now < s.sampleAt half + s.postDelay k then .next s
  else
    let s0 := if half = 1 then s.halfSample k else s
    let c1 := s0.enc k
    if s0.encHas k half = false then .next s0
    else
      let s1 := s0.setEnc k { c1 with posted := half :: c1.posted }
      .next (((s1.axesOfChan k).filter (fun a => (s.desc a).active s.cyc.n && (decide (half = 0) || (s.desc a).c2))).foldl
        (fun st a => st.landFb a half c1.sPos c1.est.v) s1)

/-- What EIU does at S, the start of a cycle: fits are applied, POS_VALID is first set, QUAD positions are sampled, and so is a serial
one whose read for this S has already ended. -/
def State.encAtS (s : State) (k : Nat) : State :=
  let s1 := (s.scApply k).encFirst k
  let c := s1.enc k
  let m := s1.encMode k
  let s2 := s1.setEnc k { c with posted := [], convK := 0, sValid := false, estPre := c.est, sHalf := false }
  if m = 1 ∨ ((m = 3 ∨ m = 4) ∧ c.readOk = true ∧ c.readFor = some (s2.sampleAt 0)) then s2.encSample k (s2.sampleAt 0) c.pos else s2

/-- The end of a cycle: the speed is evaluated at an S of it that has had no sample (R88). -/
def State.encEnd (s : State) (k : Nat) : State :=
  let c := s.enc k
  let m := s.encMode k
  if m = 0 then s
  else if m = 1 then s.halfSample k
  else if c.sValid = false then (if s.encDue k s.cyc.n then s.encQuiet k (s.sampleAt 0) else s)
  else if encSc m ∧ s.encC2 k = true ∧ c.convK ≤ 32 then s.encQuiet k (s.sampleAt 1)
  else s

end Sys2Proof.Machine
end

