-- ==== Sys2Proof/Machine/LauCore.lean ====
section
/-! DEFINITION. Machine/LauCore.lean: the master model, exact gearing, cam interpolation and the solving of crossings
(R219 to R237). -/

namespace Sys2Proof.Machine

/-- The signed reading of the low 64 bits (R9). -/
def wrap64 (x : Int) : Int := sgn 64 (x % 2 ^ 64).toNat

/-- The master model (R226): a value, its speed and its acceleration at S. -/
structure MModel where
  th : Int
  v  : Int
  a  : Int
deriving DecidableEq, Repr

/-- The model `tau` after S (R226). -/
def MModel.at_ (m : MModel) (tau : Int) : Int :=
  let d : Int := secTicks
  m.th + divRound (m.v * tau * (2 ^ 8 * 2 * d) + m.a * tau * tau * 2 ^ 16) (2 * d * d)

/-- The model's speed `tau` after S. -/
def MModel.velAt (m : MModel) (tau : Int) : Int := m.v + divRound (m.a * tau * 2 ^ 8) secTicks

/-- Mean acceleration from two speeds a period apart (R226); the period in units of 2^-16 ns. -/
def accOf (v vPrev : Int) (per : Nat) : Int :=
  if per = 0 then 0 else divRound ((v - vPrev) * (1000000000 * 256)) per

/-! ### Source scaling (R219) -/

/-- Adds a change of source position into the line angle and the remainder (R219): SNUM counts are SDEN turns. -/
def scaleStep (snum : Int) (sden : Nat) (dpos rem ang : Int) : Int × Int :=
  let n := dpos * sden * (if snum < 0 then -1 else 1) + rem
  let k : Int := max snum.natAbs 1
  (wrap64 (ang + n / k), n % k)

/-- The source speed scaled to turns per second. -/
def scaleVel (snum : Int) (sden : Nat) (v : Int) : Int := if snum = 0 then 0 else divRound (v * sden) snum

/-! ### Substitutes (R224) -/

/-- A substitute over one period: the change of angle and the new speed under a deceleration to rest; the flag tells that
rest is reached. -/
def decelStep (v : Int) (dec per : Nat) : Int × Int × Bool :=
  let dv : Int := divRound ((dec : Int) * per) (1000000000 * 256)
  let sg : Int := if v < 0 then -1 else 1
  if (v.natAbs : Int) ≤ dv then
    (sg * ((phaseDist v.natAbs 0 dec : Nat) : Int), 0, true)
  else
    let m : MModel := { th := 0, v := v, a := -sg * dec }
    (m.at_ per, v - sg * dv, false)

/-! ### Ratios (R228, R230) -/

/-- Adds master travel through a ratio, carrying the remainder (R228). -/
def ratioStep (num : Int) (den : Nat) (d sp rem : Int) : Int × Int :=
  let n := num * d + rem
  let k : Int := max den 1
  (sp + n / k, n % k)

/-- A ratio applied to a speed or an acceleration. -/
def ratioOf (num : Int) (den : Nat) (x : Int) : Int := divRound (num * x) (max den 1 : Nat)

/-- The setpoint in a ramp at travel u (R230): the engagement setpoint plus r0 u + (r1 - r0) u^2 / (2 RAMP_D), rounded
toward minus infinity; with the remainder over 2 RAMP_D d0 d1. -/
def rampAt (r : RatioRamp) (n1 : Int) (d1 : Nat) (u : Int) : Int :=
  let den : Int := 2 * r.len * r.d0 * d1
  let x := 2 * r.len * r.n0 * d1 * u + (n1 * r.d0 - r.n0 * d1) * u * u
  r.e + (r.dir * x) / (if den = 0 then 1 else den)

/-- The setpoint when the ramp is complete, with its remainder over d1: e + (r0 + r1) RAMP_D / 2 (R230). -/
def rampEnd (r : RatioRamp) (n1 : Int) (d1 : Nat) : Int × Int :=
  let den : Int := 2 * r.d0 * d1
  let x := r.dir * ((r.n0 * d1 + n1 * r.d0) * r.len)
  let k := if den = 0 then 1 else den
  (r.e + x / k, (x % k) * d1 / k)

/-- The ratio in force at travel u of a ramp, over a common denominator. -/
def rampRatio (r : RatioRamp) (n1 : Int) (d1 : Nat) (u : Int) : Int × Nat :=
  (r.n0 * d1 * r.len + (n1 * r.d0 - r.n0 * d1) * u, max (r.d0 * d1 * r.len) 1)

/-! ### Cams (R234, R236) -/

/-- The interval and the fraction of a master offset: k, numerator r with u = r / SPAN. -/
def camPlace (h : CamHdr) (x : Int) : Nat × Nat :=
  let n := h.n - 1
  let y := x.toNat * n
  if h.span ≤ x.toNat then (n - 1, h.span) else (y / h.span, y % h.span)

/-- Cubic Hermite value (order 0), first and second derivatives (order 1, 2, per interval) at u = r / s. -/
def hermite (order : Nat) (r s : Nat) (p0 m0 p1 m1 : Int) : Int :=
  let u : Int := r
  let w : Int := s
  match order with
  | 0 => divRound ((2 * u * u * u - 3 * u * u * w + w * w * w) * p0 + (u * u * u - 2 * u * u * w + u * w * w) * m0 +
      (3 * u * u * w - 2 * u * u * u) * p1 + (u * u * u - u * u * w) * m1) (w * w * w)
  | 1 => divRound ((6 * u * u - 6 * u * w) * p0 + (3 * u * u - 4 * u * w + w * w) * m0 +
      (6 * u * w - 6 * u * u) * p1 + (3 * u * u - 2 * u * w) * m1) (w * w)
  | _ => divRound ((12 * u - 6 * w) * p0 + (6 * u - 4 * w) * m0 + (6 * w - 12 * u) * p1 + (6 * u - 2 * w) * m1) w

/-- The offset within a table and the whole periods passed (R236). -/
def camOffset (h : CamHdr) (x : Int) : Int × Int :=
  if h.periodic ∧ h.span ≠ 0 then (x % h.span, x / h.span) else (x, 0)

/-- The cam value and its derivatives at a master offset. `pt` answers point k: (P, M). -/
def camValue (pt : Nat → Int × Int) (h : CamHdr) (x : Int) : Int × Int × Int :=
  let (y, k) := camOffset h x
  let first := (pt 0).1
  let last := (pt (h.n - 1)).1
  if h.periodic = false ∧ y < 0 then (first, 0, 0)
  else if h.periodic = false ∧ (h.span : Int) < y then (last, 0, 0)
  else
    let (i, r) := camPlace h y
    let (p0, m0) := pt i
    let (p1, m1) := pt (i + 1)
    (hermite 0 r h.span p0 m0 p1 m1 + (if h.periodic then k * (last - first) else 0),
      hermite 1 r h.span p0 m0 p1 m1, hermite 2 r h.span p0 m0 p1 m1)

/-- Speed and acceleration through a cam (R236): cam'(x) v and cam''(x) v^2 + cam'(x) a. The derivatives are per interval,
so a factor (N - 1) / SPAN enters once or twice. -/
def camRates (h : CamHdr) (d1 d2 v a : Int) : Int × Int :=
  let n : Int := (h.n - 1 : Nat)
  let s : Int := max h.span 1
  (divRound (d1 * n * v) s, divRound (d1 * n * a * s + d2 * n * n * v * v) (s * s))

/-! ### Crossings (R237) -/

/-- A crossing of `c` in the positive direction between two values (R237). -/
def crossUp (a b c : Int) : Bool := decide (wrap64 (a - c) < 0) && decide (0 ≤ wrap64 (b - c))
/-- A crossing in the negative direction. -/
def crossDown (a b c : Int) : Bool := decide (0 < wrap64 (a - c)) && decide (wrap64 (b - c) ≤ 0)
/-- A crossing in a direction: 0 positive, 1 negative, 2 either. -/
def crosses (dir : Nat) (a b c : Int) : Bool :=
  if dir = 0 then crossUp a b c else if dir = 1 then crossDown a b c else crossUp a b c || crossDown a b c

/-- The smallest `k` from `lo + 1` to `hi` with `ok k`, for an `ok` that holds from some point to `hi`. -/
def firstOk (ok : Nat → Bool) : Nat → Nat → Nat → Nat
  | 0, _, hi => hi
  | fuel + 1, lo, hi =>
    if hi ≤ lo + 1 then hi
    else
      let m := (lo + hi) / 2
      if ok m then firstOk ok fuel lo m else firstOk ok fuel m hi

/-- The first crossing of `c` by `f` on one monotone stretch of the 1/64 ns grid, after `lo` up to `hi`. -/
def crossOn (f : Nat → Int) (dir : Nat) (c : Int) (lo hi : Nat) : Option Nat :=
  if crosses dir (f lo) (f hi) c then
    let up := crossUp (f lo) (f hi) c
    some (firstOk (fun k => if up then decide (0 ≤ wrap64 (f k - c)) else decide (wrap64 (f k - c) ≤ 0)) 40 lo hi)
  else none

/-- The first crossing on consecutive monotone stretches that end at the given grid points. -/
def crossAlong (f : Nat → Int) (dir : Nat) (c : Int) : Nat → List Nat → Option Nat
  | _, [] => none
  | lo, hi :: rest =>
    match crossOn f dir c lo hi with
    | some k => some k
    | none => crossAlong f dir c hi rest

/-- A time of the 1/64 ns grid in units of 2^-16 ns. -/
abbrev grid64 : Nat := 1024

/-- The grid point at which a model turns round, if any lies between `lo` and `hi`. -/
def turnPoint (m : MModel) (lo hi : Nat) : List Nat :=
  if m.a = 0 then []
  else
    let t := divRound (-m.v * secTicks) (m.a * 2 ^ 8 * grid64)
    if (lo : Int) < t ∧ t < hi then [t.toNat] else []

/-- Solves the model for the earliest crossing with lo ≤ tau < hi, all in 1/64 ns; the value just before `lo` counts as
the side it comes from (R237). -/
def solveModel (m : MModel) (dir : Nat) (c : Int) (lo hi : Nat) : Option Nat :=
  let f := fun (k : Nat) => m.at_ ((k : Int) * grid64)
  crossAlong f dir c (lo - 1) (turnPoint m (lo - 1) (hi - 1) ++ [hi - 1])

/-- Solves a plan of PGN for the earliest crossing in the same window; `c0` is the time of S (R226, R237). -/
def solvePlan (g : Pgn) (c0 : Nat) (dir : Nat) (c : Int) (lo hi : Nat) : Option Nat :=
  let f := fun (k : Nat) => (g.eval (c0 + k * grid64)).p
  let pts := (g.phases.filterMap (fun ph =>
    if c0 < ph.t then
      let k := (ph.t - c0) / grid64
      if lo - 1 < k ∧ k < hi - 1 then some k else none
    else none))
  crossAlong f dir c (lo - 1) (pts ++ [hi - 1])

/-- VALUE is behind (R240). -/
def isBehind (dir : Nat) (value at_ : Int) : Bool :=
  let d := wrap64 (value - at_)
  if dir = 0 then decide (d ≤ 0) else if dir = 1 then decide (0 ≤ d) else false

/-- VALUE after a firing (R239). -/
def nextValue (dir step : Nat) (v : Int) : Int := if dir = 1 then wrap64 (v - step) else wrap64 (v + step)

/-- A line angle modulo PERIOD lies within a window of a track (R243). -/
def Track.inside (t : Track) (ang : Int) : Bool :=
  let x := (ang % (max t.period 1 : Nat)).toNat
  t.windows.any (fun w => decide (w.1 ≤ x) && decide (x < w.2))

end Sys2Proof.Machine
end

