-- ==== Sys2Proof/Machine/LauOps.lean ====
section
/-! DEFINITION. Machine/LauOps.lean: what LAU does at S and at LAU_POST: line angles with their losses and substitutes (R217 to
R226), links (R227 to R236), compare units, tracks and capture windows (R237 to R244). -/

namespace Sys2Proof.Machine

/-! ### Sources (R218 to R223) -/

/-- Position and speed of an axis as a source or master (R218): its channel's at S, or of an axis fed by a node the
feedback of the previous S, the newest that can have landed by LAU_POST; extrapolated where it has not landed (R39). -/
def State.axSource (s : State) (a : Nat) : Int × Int :=
  let x := s.axis a
  match (s.desc a).chan with
  | some k =>
    let c := s.enc k
    if c.sValid then (c.sPos, c.est.v) else (x.extrapAt (s.sampleAt 0), x.fbVel)
  | none =>
    let t := s.sampleAt 0 - s.per
    (if x.fbTime < t then x.extrapAt t else x.fbPos, x.fbVel)

/-- The master model of an axis's feedback (R226). -/
def State.axModel (s : State) (a : Nat) : MModel :=
  let x := s.axis a
  let p := s.axSource a
  let t := s.sampleAt 0
  -- a channel posted after LAU_POST: its sample of this S is ahead of the feedback that has landed
  let ahead := (s.desc a).chan.isSome && decide (x.fbTime ≠ t)
  let a0 := if ahead then if x.fbSeen = false ∨ x.fbGap then 0 else accOf p.2 x.fbVel (t - x.fbTime)
    else if x.fbFresh then 0 else accOf p.2 x.fbVelPrev (x.fbTime - x.fbTimePrev)
  { th := p.1, v := p.2, a := a0 }

/-- What a source says at S: the cause of its loss, 0 for none (R223); the angle and its speed; the position from which the
next change is measured; the remainder of R219. -/
structure SrcNow where
  cause : Nat := 0
  ang   : Int := 0
  vel   : Int := 0
  pos   : Int := 0
  rem   : Int := 0
  extrap : Bool := false
  subst : Bool := false
  age   : Nat := 0
deriving DecidableEq, Repr

/-- A source position scaled to the line angle (R219). -/
def LineAngle.scaled (x : LineAngle) (p v : Int) : SrcNow :=
  let r := if x.ever then scaleStep x.decl.snum x.decl.sden (modDiff (dInt p) (dInt x.srcPos)) x.rem x.srcAng else (x.decl.ang0, 0)
  { ang := r.1, vel := scaleVel x.decl.snum x.decl.sden v, pos := p, rem := r.2 }

/-- A lost source: its own values stand. -/
def LineAngle.lostNow (x : LineAngle) (cause : Nat) : SrcNow :=
  { cause := cause, ang := x.srcAng, vel := x.srcVel, pos := x.srcPos, rem := x.rem }

/-- An AXIS source at S. -/
def State.srcAxis (s : State) (x : LineAngle) : SrcNow :=
  let a := x.decl.srcIndex
  let y := s.axis a
  let p := s.axSource a
  if y.posValid = false then x.lostNow 1
  else if y.st = .fault ∨ y.st = .sto ∨ 3 ≤ y.noFb then x.lostNow 2
  else if y.rotorLost then x.lostNow 3
  else { (x.scaled p.1 p.2) with extrap := decide (0 < y.noFb) }

/-- An ENCODER source at S. -/
def State.srcEncoder (s : State) (x : LineAngle) : SrcNow :=
  let c := s.enc x.decl.srcIndex
  if c.posValid = false then x.lostNow 4 else x.scaled c.sPos c.est.v

/-- A REMOTE source at S (R220): the newest record, extrapolated over its age. -/
def State.srcRemote (s : State) (x : LineAngle) : SrcNow :=
  match x.record with
  | none => x.lostNow 5
  | some r =>
    let age := s.cyc.n - r.cycle
    if x.decl.ageMax < age then { (x.lostNow 5) with age := age }
    else
      let m : MModel := { th := r.ang, v := r.vel, a := r.acc }
      let tau : Int := (age * s.per : Nat)
      { ang := wrap64 (m.at_ tau), vel := m.velAt tau, extrap := decide (2 ≤ age), subst := decide (r.st ≠ LaSt.valid.code), age := age }

/-- Phase advance of a locked source over a time, in raw turns (R221). -/
def LineAngle.advance (x : LineAngle) (dt : Nat) : Int := ((x.freq * x.decl.stepRaw * dt / (2 ^ 24 * secTicks) : Nat) : Int)

/-- Causes 6 and 7 of a periodic source (R223). -/
def State.periodicLoss (s : State) (x : LineAngle) : Nat :=
  let f := x.freq * 1000
  if x.decl.missMax ≤ x.miss ∨ f < x.decl.fMin * 2 ^ 24 ∨ x.decl.fMax * 2 ^ 24 < f ∨ 4 ≤ x.bad then 6
  else if x.decl.src = .periodicFin ∧ ((s.fin x.decl.srcIndex).masked ∨ (s.fin x.decl.srcIndex).withheld) then 7
  else 0

/-- A periodic source at S (R221): the phase extrapolated from the last accepted edge. -/
def State.srcPeriodic (s : State) (x : LineAngle) : SrcNow :=
  let c := s.periodicLoss x
  let t := x.edges.headD 0
  { cause := if c ≠ 0 then c else if x.locked then 0 else 6
    ang := wrap64 (x.pllAng + x.advance (s.sampleAt 0 - t)), vel := ((x.freq * x.decl.stepRaw / 2 ^ 32 : Nat) : Int) }

/-- The source of a line angle at S. -/
def State.srcNow (s : State) (x : LineAngle) : SrcNow :=
  match x.decl.src with
  | .axis => s.srcAxis x
  | .encoder => s.srcEncoder x
  | .remote => s.srcRemote x
  | .periodicFin => s.srcPeriodic x
  | .periodicPps => s.srcPeriodic x
  | _ => {}

/-! ### Line angles at S (R217, R224, R225) -/

/-- The substitute at a time (R224). -/
def LineAngle.substAt (x : LineAngle) (t : Nat) : LineAngle :=
  if x.decl.loss = 2 then { x with st := .held, ang := x.lostAng, vel := 0, acc := 0 }
  else
    let m : MModel := { th := x.lostAng, v := x.lostVel, a := 0 }
    if x.st ≠ .ramp ∧ t < x.endAt then
      { x with st := .coast, ang := wrap64 (m.at_ ((t : Int) - x.lostAt)), vel := x.lostVel, acc := 0 }
    else
      let u := m.at_ ((x.endAt : Int) - x.lostAt)
      let (du, v, rest) := decelStep x.lostVel x.decl.lossDec (t - x.endAt)
      let sg : Int := if x.lostVel < 0 then 1 else -1
      { x with st := if rest then .held else .ramp, ang := wrap64 (u + du), vel := v
               acc := if rest then 0 else sg * x.decl.lossDec }

/-- The correction in force at a time (R225). -/
def LineAngle.corrAt (x : LineAngle) (t : Nat) : Int :=
  if x.st = .rejoin then
    if x.endAt ≤ t then 0 else divRound (x.corr0 * ((x.endAt : Int) - t)) (max x.decl.tRejoin 1 * nsU : Nat)
  else x.corr

/-- What a line angle's evaluation raises: the loss with its cause, the return with its correction. -/
inductive LaNote where
  | lost (cause : Nat)
  | back (corr : Int)
deriving DecidableEq, Repr

/-- A line angle evaluated at the S of the present cycle. -/
def State.laEval (s : State) (n : Nat) : LineAngle × Option LaNote :=
  let x := s.la n
  let t := s.sampleAt 0
  match x.decl.src with
  | .none => (x, none)
  | .virtual =>
    let g := (s.pgn (.vm n)).eval t
    ({ x with st := .valid, ang := g.p, vel := g.v, acc := g.a, ever := true, jumped := !x.ever }, none)
  | _ =>
    let q := s.srcNow x
    let y : LineAngle := { x with
      srcAng := q.ang, srcVel := q.vel, srcPos := q.pos, rem := q.rem, extrap := q.extrap, subst := q.subst
      jumped := false }
    let acc := if x.decl.src = .periodicFin ∨ x.decl.src = .periodicPps ∨ x.fresh then 0 else accOf q.vel x.vel s.per
    let follow := fun (z : LineAngle) (a : Int) =>
      let c := z.corrAt t
      { z with corr := c, ang := wrap64 (q.ang + c), vel := q.vel, acc := a
               st := if z.st = .rejoin ∧ t < z.endAt then .rejoin else .valid }
    if x.ever = false then
      if q.cause = 0 then (follow { y with ever := true, fresh := false, jumped := true } 0, none)
      else ({ y with cause := if x.decl.src = .periodicFin ∨ x.decl.src = .periodicPps then x.cause else q.cause }, none)
    else if x.st = .valid ∨ x.st = .rejoin then
      if q.cause = 0 then (follow { y with fresh := false } acc, none)
      else
        let z : LineAngle := { y with
          cause := q.cause, back := 0, lostAng := x.ang, lostVel := x.vel, lostAt := t - s.per, st := .coast, locked := false, good := 0
          bad := 0, endAt := if x.decl.loss = 0 then t + x.decl.tCoast * nsU else t }
        (z.substAt t, some (.lost q.cause))
    else
      let back := if q.cause = 0 then x.back + 1 else 0
      let z := ({ y with back := back } : LineAngle).substAt t
      let periodic := decide (x.decl.src = .periodicFin ∨ x.decl.src = .periodicPps)
      if q.cause = 0 ∧ (periodic = true ∨ x.decl.nBack ≤ back) then
        let c := wrap64 (z.ang - q.ang)
        let w : LineAngle := { y with
          back := 0, corr0 := c, corr := if x.decl.rejoin = 2 then 0 else c, endAt := t + x.decl.tRejoin * nsU, fresh := false
          jumped := true, st := if x.decl.rejoin = 1 then .rejoin else .valid }
        (follow w 0, some (.back c))
      else (z, none)

/-- LAU_LAn_STATUS. -/
def LineAngle.statusWord (x : LineAngle) : Word :=
  w32 (x.st.code * 2 ^ 28 + b2n x.extrap * 2 ^ 27 + b2n x.locked * 2 ^ 26 + b2n x.subst * 2 ^ 25 + x.cause % 256)

/-- Puts a line angle, shown in its registers. -/
def State.laShow (s : State) (n : Nat) (x : LineAngle) : State :=
  ((((s.setLa n x).wr (Reg.lauLaStatus n) x.statusWord).wr64 (Reg.lauLaAngleLo n) (Reg.lauLaAngleHi n) (dInt x.ang)).wr64
    (Reg.lauLaVelLo n) (Reg.lauLaVelHi n) (dInt x.vel)).wr64 (Reg.lauLaCorrLo n) (Reg.lauLaCorrHi n) (dInt x.corr)

/-- Evaluates a line angle at S, with its traces (R220, R224, R225). -/
def State.laAtS (s : State) (n : Nat) : State :=
  let x := s.la n
  let r := s.laEval n
  let age := match x.decl.src with
    | .remote => (s.srcRemote x).age
    | _ => 0
  let late := decide (2 ≤ age) && decide (age ≤ x.decl.ageMax)
  let s1 := s.laShow n { r.1 with lateRun := late }
  let s2 := if late then
      let s3 := s1.count Reg.lauRemoteLateCnt
      if x.lateRun then s3 else s3.event 0x0A03 [.h n, .h age]
    else s1
  match r.2 with
  | some (.lost c) => (s2.count Reg.lauSrcLostCnt).event 0x0A01 [.h n, .h c]
  | some (.back c) => s2.event 0x0A02 [.h n, .i c]
  | none => s2

/-! ### Masters (R226, R228) -/

/-- The model of a line angle at the last S evaluated. -/
def LineAngle.model (x : LineAngle) : MModel := { th := x.ang, v := x.vel, a := x.acc }

/-- Value, speed and acceleration of a master at a time, from the model of the present S (R226). -/
def State.masterAt (s : State) (m : Master) (t : Nat) : Int × Int × Int :=
  let tau : Int := (t : Int) - s.sampleAt 0
  match m with
  | .la n =>
    let x := s.la n
    if x.decl.src = .virtual then
      let p := (s.pgn (.vm n)).eval t
      (p.p, p.v, p.a)
    else (wrap64 (x.model.at_ tau), x.model.velAt tau, x.acc)
  | .axisFb a =>
    let q := s.axModel a
    (wrap64 (q.at_ tau), q.velAt tau, q.a)
  | .axisSp a =>
    let g := (s.axis a).pgn
    if t = g.t0 then (wrap64 g.sp.p, g.sp.v, g.sp.a)
    else if (s.desc a).c2 = true ∧ t + halfU = g.t0 then (wrap64 g.sp0.p, g.sp0.v, g.sp0.a)
    else if s.linked a then
      let q : MModel := { th := g.sp.p, v := g.sp.v, a := g.sp.a }
      let d : Int := (t : Int) - g.t0
      (wrap64 (q.at_ d), q.velAt d, q.a)
    else
      let p := g.eval t
      (wrap64 p.p, p.v, p.a)

/-! ### Links (R228 to R236) -/

/-- The points of a table that offsets between two values reach, with 2 points either side, and its first and last; none where the
offsets span more than 8 intervals (R236). -/
def camReach (h : CamHdr) (lo hi : Int) : Option (List Nat) :=
  let n : Int := (h.n - 1 : Nat)
  let k := fun (x : Int) => x * n / (max h.span 1 : Nat)
  let a := k lo - 2
  let b := k hi + 3
  if 8 < k hi - k lo then none
  else
    let pt := fun (j : Int) =>
      if h.periodic then
        let m := (j % max n 1).toNat
        if m = 0 then [0, h.n - 1] else [m]
      else [min j.toNat (h.n - 1)]
    some (([0, h.n - 1] ++ (List.range (b - a + 1).toNat).flatMap (fun (i : Nat) => pt (a + i))).eraseDups)

/-- Stages points of cam table `i` from DRAM: an uncorrectable word leaves them not staged (R21, R506). -/
def State.camStage (s : State) (i : Nat) (h : CamHdr) (lo hi : Int) : CamStage × State :=
  match camReach h lo hi with
  | none => ({ ok := false }, s)
  | some ks =>
    let base := (s.rd64 Reg.lauCamBaseLo Reg.lauCamBaseHi).toNat + i * 0x100000
    ks.foldl (fun (acc : CamStage × State) k =>
      let q := acc.2.touchDram (base + 16 * k) 16
      let b := q.2.dramRead (base + 16 * k) 16
      ({ pts := (k, sgn 64 (leAt b 0 8), sgn 64 (leAt b 8 8)) :: acc.1.pts, ok := acc.1.ok && !q.1 }, q.2)) ({}, s)

/-- A staged point: P and M (R234). -/
def CamStage.pt (c : CamStage) (k : Nat) : Int × Int := ((c.pts.find? (fun p => decide (p.1 = k))).map (·.2)).getD (0, 0)

/-- The points that an offset needs are staged. -/
def CamStage.covers (c : CamStage) (h : CamHdr) (x : Int) : Bool :=
  let y := (camOffset h x).1
  let i := (camPlace h y).1
  let has := fun (k : Nat) => c.pts.any (fun p => decide (p.1 = k))
  c.ok && has 0 && has (h.n - 1) && (decide (h.periodic = false ∧ (y < 0 ∨ (h.span : Int) < y)) || (has i && has (i + 1)))

/-- The header of a cam table. -/
def State.camHdr (s : State) (i : Nat) : CamHdr := Tab.get { n := 2, span := 1, periodic := false } s.lau.cams i

/-- A follower after master travel `d` (R228, R230, R236); the flag tells that a ramp has ended. -/
def State.linkMove (s : State) (l : Link) (d : Int) : Link × Bool :=
  match l.kind with
  | .cam i x0 =>
    let h := s.camHdr i
    let t := l.travel + d
    let c0 := match l.camX0 with
      | some c => some c
      | none => if l.stage.covers h x0 then some (camValue l.stage.pt h x0).1 else none
    let sp := match c0 with
      | some c => if l.stage.covers h (x0 + t) then l.e + (camValue l.stage.pt h (x0 + t)).1 - c else l.sp
      | none => l.sp
    ({ l with travel := t, camX0 := c0, sp := sp }, false)
  | .ratio num den =>
    match l.ramp with
    | none =>
      let r := ratioStep num den d l.sp l.rem
      ({ l with sp := r.1, rem := r.2 }, false)
    | some r =>
      let u := r.u + r.dir * d
      let r1 : RatioRamp := { r with u := u }
      if u < 0 then ({ l with sp := (ratioStep r.n0 r.d0 (r.dir * u) r.e 0).1, ramp := some r1 }, false)
      else if (r.len : Int) ≤ u then
        let e := rampEnd r num den
        let q := ratioStep num den (r.dir * (u - r.len)) e.1 e.2
        ({ l with sp := q.1, rem := q.2, ramp := none }, true)
      else ({ l with sp := rampAt r num den u, ramp := some r1 }, false)

/-- The ratio in force of a link: that of its ramp, or the slope of its cam. -/
def State.linkRatio (s : State) (l : Link) : Int × Nat :=
  match l.kind with
  | .ratio num den =>
    (match l.ramp with
     | none => (num, max den 1)
     | some r => if r.u < 0 then (r.n0, max r.d0 1) else rampRatio r num den r.u)
  | .cam i x0 =>
    let h := s.camHdr i
    let v := camValue l.stage.pt h (x0 + l.travel)
    (v.2.1 * (h.n - 1 : Nat), max h.span 1)

/-- The setpoint of a follower, with the master's speed and acceleration (R228, R236). -/
def State.linkSetpt (s : State) (l : Link) (v a : Int) : Setpt :=
  match l.kind with
  | .ratio _ _ =>
    let r := s.linkRatio l
    { p := wrap64 l.sp, v := ratioOf r.1 r.2 v, a := ratioOf r.1 r.2 a }
  | .cam i x0 =>
    let h := s.camHdr i
    let c := camValue l.stage.pt h (x0 + l.travel)
    let k := camRates h c.2.1 c.2.2 v a
    { p := wrap64 l.sp, v := k.1, a := k.2 }

/-- A link as it engages at a setpoint `e` and a master value: the old ratio is that of the link it replaces, or 0 (R230). -/
def newLink (q : LinkReq) (old : Int × Nat) (e : Int) (m : Option Int) (v : Int) : Link :=
  { master := q.master, kind := q.kind, sp := e, mPrev := m, e := e, stage := q.stage
    ramp := if q.rampD = 0 then none
            else some { n0 := old.1, d0 := old.2, len := q.rampD, dir := if v < 0 then -1 else 1, e := e } }

/-- What an evaluation of a link met: nothing, a change, the end of a ramp. `old` is the link that rules at the very instant
where another engages at once: at the plan origin the old link still applies (R194, R230). -/
structure LinkStep where
  link   : Link
  old    : Option Link := none
  change : Bool := false
  ramped : Bool := false
deriving DecidableEq, Repr

/-- A link evaluated at an instant (R228, R230). `origin` tells that the instant is the plan origin of this boundary, where a change
at once takes effect. -/
def State.linkStep (s : State) (l : Link) (t : Nat) (origin : Bool) : LinkStep :=
  let m := s.masterAt l.master t
  match l.mPrev with
  | none =>
    let dir := fun (r : RatioRamp) => { r with dir := if m.2.1 < 0 then -1 else 1 }
    { link := { l with mPrev := some m.1, ramp := l.ramp.map dir } }
  | some mp =>
    let d := modDiff (dInt m.1) (dInt mp)
    let whole := s.linkMove l d
    let plain : Link := { whole.1 with mPrev := some m.1 }
    match l.next with
    | none => { link := plain, ramped := whole.2 }
    | some q =>
      let c := s.masterAt q.master t
      match q.at_ with
      | none =>
        if origin then
          { link := newLink q (s.linkRatio whole.1) whole.1.sp (some c.1) c.2.1, old := some plain, change := true, ramped := whole.2 }
        else { link := plain, ramped := whole.2 }
      | some w =>
        let prev := if q.master = l.master then some mp else q.prev
        match prev with
        | none => { link := { plain with next := some { q with prev := some c.1 } }, ramped := whole.2 }
        | some p =>
          if crosses w.dir p c.1 w.value then
            let tot := modDiff (dInt c.1) (dInt p)
            let part := modDiff (dInt w.value) (dInt p)
            let dOld := if q.master = l.master then part else divRound (d * part) tot
            let o := s.linkMove l dOld
            let n := newLink q (s.linkRatio o.1) o.1.sp (some c.1) tot
            let r := s.linkMove n (modDiff (dInt c.1) (dInt w.value))
            { link := r.1, change := true, ramped := o.2 || r.2 }
          else { link := { plain with next := some { q with prev := some c.1 } }, ramped := whole.2 }

/-- The link ends in a ratio of 0 (R232). -/
def Link.released (l : Link) : Bool :=
  match l.kind with
  | .ratio num _ => decide (num = 0 ∧ l.ramp = none)
  | .cam _ _ => false

/-- Puts a link, shown in the map. -/
def State.setLink (s : State) (a : Nat) (l : Link) : State :=
  let s1 : State := { s with lau := { s.lau with links := Tab.put s.lau.links a l } }
  s1.setMap (Reg.lauLinkMap 0) a true

/-- The cam of a link whose points were not staged in time: the master moves more than eight intervals in a cycle, or reaches points
that are not on chip (R21, R236). -/
def State.camMissed (s : State) (l : Link) (v : Int) : Option Nat :=
  match l.kind with
  | .cam i x0 =>
    let h := s.camHdr i
    if 8 * h.span < v.natAbs * 256 * s.per / secTicks * (h.n - 1) ∨ l.stage.covers h (x0 + l.travel) = false ∨ l.camX0 = none then some i
    else none
  | .ratio _ _ => none

/-- CAM_STAGE_MISS: the axis is late in a half of this cycle (R21, R236). -/
def State.camLate (s : State) (a half i : Nat) : State :=
  ((((s.count Reg.lauCamStageCnt).axEvent a 0x0A07 [.h i]).lateCounted a).mapMark a 2).updAxis a (fun x =>
    { x with ranHalf := half :: x.ranHalf, lauWait := x.lauWait.filter (fun q => decide (q.1 ≠ half)) })

/-- LAU supplies the setpoint of a linked axis for an instant (R227): `half` 0 of class C2 is its first. -/
def State.linkSp (s : State) (a half t : Nat) (sp : Setpt) : State :=
  s.updPgn (.ax a) (fun g => { g with sp := sp, t0 := t, sp0 := if half = 0 then sp else g.sp0 })

/-- A linked axis at an instant: the new setpoint and what it raises (R228 to R233). At the instant of its engagement the link only
takes the master's value; `commit` is false where the instant has its setpoint already. -/
def State.linkAt (s : State) (a half t : Nat) (origin commit : Bool) : State :=
  match s.lau.links.find? (fun p => decide (p.1 = a)) with
  | none => s
  | some (_, l) =>
    let r := s.linkStep l t origin
    let ruling := r.old.getD r.link
    let mr := s.masterAt ruling.master t
    let go := commit && l.mPrev.isSome
    let miss := if go then s.camMissed ruling mr.2.1 else none
    let sp := s.linkSetpt ruling mr.2.1 mr.2.2
    let fast := go && miss.isNone && decide (((s.desc a).pgn.vlim : Int) < sp.v.natAbs)
    let s1 := s.setLink a { r.link with vlim := fast }
    let s2 := if go = false then s1 else if miss.isSome then s1.updPgn (.ax a) (fun g => { g with t0 := t }) else s1.linkSp a half t sp
    let s3 := if r.change then s2.axEvent a 0x0A04 [.h 0] else s2
    let s4 := if r.ramped then s3.axEvent a 0x0A04 [.h 1] else s3
    let s5 := if fast ∧ ¬ l.vlim then (s4.count Reg.lauGearVlimCnt).axEvent a 0x0A06 [] else s4
    let s6 := match miss with
      | some i => s5.camLate a half i
      | none => s5
    if r.link.released then
      (s6.linkEnd a 1).updPgn (.ax a) (fun g => { (g.setRest r.link.sp) with complete := true, sp0 := if half = 0 then { p := r.link.sp } else g.sp0 })
    else s6

/-- A GEAR_SET that waits for its crossing (R230). -/
def State.armedAt (s : State) (a half t : Nat) : State :=
  match s.lau.armedLinks.find? (fun p => decide (p.1 = a)) with
  | none => s
  | some (_, q) =>
    let c := s.masterAt q.master t
    let keep : State :=
      { s with lau := { s.lau with armedLinks := Tab.put s.lau.armedLinks a { q with prev := some c.1 } } }
    match q.prev, q.at_ with
    | some p, some w =>
      if crosses w.dir p c.1 w.value then
        let e := (s.axis a).pgn.sp.p
        let n := newLink q (0, 1) e (some c.1) (modDiff (dInt c.1) (dInt p))
        let r := s.linkMove n (modDiff (dInt c.1) (dInt w.value))
        let s1 := (s.unarmLink a).setLink a r.1
        let s2 := match s.camMissed r.1 c.2.1 with
          | some i => (s1.updPgn (.ax a) (fun g => { g with t0 := t })).camLate a half i
          | none => s1.linkSp a half t (s.linkSetpt r.1 c.2.1 c.2.2)
        if r.2 then s2.axEvent a 0x0A04 [.h 1] else s2
      else keep
    | _, _ => keep

/-- The offsets of a cam that its master reaches in the next cycle: between the last instant of this cycle and that of the next one, by
the master model, in order. -/
def State.camAhead (s : State) (a : Nat) (m : Master) (from_ : Int) (x : Int) : Int × Int :=
  let t := s.actLast a
  let at_ := fun (u : Nat) => x + modDiff (dInt (s.masterAt m u).1) (dInt from_)
  (min (at_ t) (at_ (t + s.per)), max (at_ t) (at_ (t + s.per)))

/-- Stages the points of a link asked for, around X0 (R236). -/
def State.stageReq (s : State) (a : Nat) (q : LinkReq) : LinkReq × State :=
  match q.kind with
  | .cam i x0 =>
    let p := s.camAhead a q.master (s.masterAt q.master (s.actLast a)).1 x0
    let r := s.camStage i (s.camHdr i) p.1 p.2
    ({ q with stage := r.1 }, r.2)
  | .ratio _ _ => (q, s)

/-- Stages, during a cycle, the cam points that a link reaches in the next one (R21, R236); those of X0 too until cam(X0) is known. -/
def State.stageLink (s : State) (a : Nat) : State :=
  match s.lau.links.find? (fun p => decide (p.1 = a)) with
  | none => match s.lau.armedLinks.find? (fun p => decide (p.1 = a)) with
    | none => s
    | some (_, q) =>
      let r := s.stageReq a q
      { r.2 with lau := { r.2.lau with armedLinks := Tab.put r.2.lau.armedLinks a r.1 } }
  | some (_, l) =>
    let r1 := match l.next with
      | some q => let r := s.stageReq a q; (some r.1, r.2)
      | none => (none, s)
    let r2 : CamStage × State := match l.kind, l.mPrev with
      | .cam i x0, some m =>
        let h := s.camHdr i
        let p := s.camAhead a l.master m (x0 + l.travel)
        let r := r1.2.camStage i h p.1 p.2
        if l.camX0.isSome then r
        else
          let q := r.2.camStage i h x0 x0
          ({ pts := r.1.pts ++ q.1.pts, ok := r.1.ok && q.1.ok }, q.2)
      | _, _ => (l.stage, r1.2)
    match l.kind with
    | .cam _ _ => { r2.2 with lau := { r2.2.lau with links := Tab.put r2.2.lau.links a { l with next := r1.1, stage := r2.1 } } }
    | .ratio _ _ => if r1.1.isSome then { r1.2 with lau := { r1.2.lau with links := Tab.put r1.2.lau.links a { l with next := r1.1 } } } else r1.2

/-- Links between an axis and a master that follows no axis setpoint, at most 8. -/
def State.linkDepth (s : State) : Nat → Nat → Nat
  | 0, _ => 0
  | f + 1, a =>
    match s.lau.links.find? (fun p => decide (p.1 = a)) with
    | some (_, l) => match l.master with
      | .axisSp b => if s.linked b then 1 + State.linkDepth s f b else 0
      | _ => 0
    | none => 0

/-- A follower in a cycle (R227 to R230): a link just engaged takes its master's value at the plan origin, then the setpoints of the
cycle's instants follow, save those that PGN has produced. -/
def State.linkPost (s : State) (a : Nat) : State :=
  let d := s.desc a
  let t0 := fun (st : State) => (st.pgn (.ax a)).t0
  let link := fun (st : State) => (st.lau.links.find? (fun p => decide (p.1 = a))).map (·.2)
  let fresh := match link s with
    | some l => l.mPrev.isNone
    | none => false
  let s1 := if fresh then s.linkAt a 0 (t0 s) false false else s
  let one := fun (half : Nat) (st : State) =>
    let t := s.actAt a half
    if st.linked a then
      if t0 st < t then st.linkAt a half t (decide (t = s.actLast a)) true else st
    else st.armedAt a half t
  if d.active s.cyc.n then
    let s2 := one 0 s1
    if d.c2 then one 1 s2 else s2
  else
    let atOnce := match link s1 with
      | some l => (match l.next with
        | some q => q.at_.isNone
        | none => false)
      | none => false
    if atOnce then s1.linkAt a 0 (t0 s1) true false else s1

/-- All links of the cycle, those of a master before those that follow it (R227, R228), and the staging for the next (R236). -/
def State.linksPost (s : State) : State :=
  let all := fun (st : State) => (List.range 256).filter (fun a => st.linked a || st.lau.armedLinks.any (fun p => decide (p.1 = a)))
  let s1 := forAll (List.range 5) (fun dep st =>
    forAll ((all s).filter (fun a => decide (s.linkDepth 8 a = dep))) (fun a st' => st'.linkPost a) st) s
  forAll (all s1) (fun a st => st.stageLink a) s1

end Sys2Proof.Machine
end

