-- ==== Sys2Proof/Machine/LauEvents.lean ====
section
/-! DEFINITION. Machine/LauEvents.lean: angle-scheduled events: crossings solved for a cycle, compare units, cam switch tracks,
capture windows and items held for an angle (R237 to R245). -/

namespace Sys2Proof.Machine

/-! ### Sources of events (R224, R226, R242) -/

/-- A source of events at S: its model, and the plan where it is a virtual master. -/
structure EvtSrc where
  model : MModel
  plan  : Option Pgn := none
deriving DecidableEq, Repr

/-- A line angle as a source of events; none while its events are suspended (R224). -/
def State.laEvt (s : State) (x : LineAngle) (n : Nat) : Option EvtSrc :=
  let ok := match x.st with
    | .valid => true
    | .rejoin => true
    | .coast => x.decl.evtSubst
    | .ramp => x.decl.evtSubst
    | .held => x.decl.evtSubst && x.ever
    | _ => false
  if ok then some { model := x.model, plan := if x.decl.src = .virtual then some (s.pgn (.vm n)) else none } else none

/-- An axis's feedback as a source of events; none while suspended (R242). -/
def State.axEvt (s : State) (a : Nat) : Option EvtSrc :=
  let x := s.axis a
  if x.st = .fault ∨ x.st = .sto ∨ x.posValid = false then none else some { model := s.axModel a }

/-- The source of a unit at S. Before LAU_POST a line angle is evaluated for the S that has just passed. -/
def State.unitEvt (s : State) (x : Unit128) : Option EvtSrc :=
  if x.axisSrc then s.axEvt x.src
  else s.laEvt (if s.lau.posted then s.la x.src else (s.laEval x.src).1) x.src

/-- The value `tau` after S. -/
def EvtSrc.at_ (e : EvtSrc) (c0 : Nat) (tau : Int) : Int :=
  match e.plan with
  | some g => wrap64 (if 0 ≤ tau then (g.eval (c0 + tau.toNat)).p else e.model.at_ tau)
  | none => wrap64 (e.model.at_ tau)

/-- The earliest crossing in a direction with lo ≤ tau < hi, in 1/64 ns after S (R237). -/
def EvtSrc.solve (e : EvtSrc) (c0 dir : Nat) (c : Int) (lo hi : Nat) : Option Nat :=
  match e.plan with
  | some g => solvePlan g c0 dir c lo hi
  | none => solveModel e.model dir c lo hi

/-- 0.4 us in 1/64 ns, the earliest time of a local edge (R237). -/
abbrev evtLead : Nat := 25600

/-- The window of a local edge and that of a remote stamp, in 1/64 ns after S (R237). -/
def State.evtWindow (s : State) (remote : Bool) : Nat × Nat :=
  let per := s.per / grid64
  let act := (s.rd Reg.cycAct).toNat
  if remote then (act, act + per) else (evtLead, per + evtLead)

/-- Lateness in ns of an edge placed at a time of 1/64 ns after S, for a crossing between two samples (R242). -/
def State.lateNs (s : State) (p v c : Int) (t : Nat) : Nat :=
  let tot := modDiff (dInt v) (dInt p)
  let back := divRound ((modDiff (dInt v) (dInt c)) * (s.per / grid64 : Nat)) tot
  ((t : Int) + max back 0).toNat / 64

/-! ### Edges (R241, R242) -/

/-- An edge is lost (R242): `owner` is the unit, or 0x8000 plus the track. -/
def State.evtLost (s : State) (owner cause : Nat) : State :=
  (s.count Reg.lauEvtLostCnt).event 0x0A0B [.h (owner % 0x8000), .h cause]

/-- An edge on a local output. -/
def State.evtLocal (s : State) (owner out t : Nat) (level : Bool) (axis : Option Nat) : State :=
  let r := s.foutEdge out { t := t, level := level, axis := axis }
  if r.2 then r.1.evtLost owner 1 else r.1

/-- An edge to be carried to a node. -/
def State.evtRemote (s : State) (owner node out t : Nat) (level : Bool) : State :=
  { s with lau := { s.lau with acts := s.lau.acts ++ [{ node := node, out := out, t := t, level := level, owner := owner }] } }

/-- The node table entry of a node. -/
def State.nodeEnt (s : State) (n : Nat) : NodeEnt :=
  NodeEnt.of (s.rd (Reg.slcNodeTab (4 * n))) (s.rd (Reg.slcNodeTab (4 * n + 1))) (s.rd (Reg.slcNodeTab (4 * n + 2)))
    (s.rd (Reg.slcNodeTab (4 * n + 3)))

/-- Inserts an entry in order of time. -/
def insertAct (e : ActAt) : List ActAt → List ActAt
  | [] => [e]
  | h :: t => if e.t < h.t then e :: h :: t else h :: insertAct e t

/-- The actuate-at entries of the records of the present cycle to a node, in order of time. -/
def State.actsOf (s : State) (node : Nat) : List ActAt :=
  let lo := s.instant Reg.cycAct
  (s.lau.acts.filter (fun e => decide (e.node = node ∧ lo ≤ e.t ∧ e.t < lo + s.per))).foldl (fun l e => insertAct e l) []

/-- The entries that a node's record can carry in the present cycle (R261, R265). -/
def State.actRoom (s : State) (node : Nat) : Nat :=
  let sent := (s.slotsOn true s.cyc.n).any (fun p => decide (p.2.kind = 0) && (s.recsOf p.2).any (fun r => decide (r.node = node)))
  if sent then (s.nodeEnt node).actEntries else 0

/-- Entries of past cycles are gone, and the latest-timed that find no room in this cycle's record are lost (R242). -/
def State.actsTrim (s : State) : State :=
  let lo := s.instant Reg.cycAct
  let keep := s.lau.acts.filter (fun e => decide (lo ≤ e.t))
  let s1 : State := { s with lau := { s.lau with acts := keep } }
  let nodes := (keep.map (·.node)).eraseDups
  forAll nodes (fun node st =>
    forAll ((st.actsOf node).drop (st.actRoom node)) (fun e st' =>
      let st1 : State := { st' with lau := { st'.lau with acts := st'.lau.acts.erase e } }
      st1.evtLost e.owner 2) st) s1

/-! ### Compare units (R239 to R242, R244) -/

/-- A compare unit. -/
def State.unit (s : State) (u : Nat) : Unit128 := Tab.get {} s.lau.units u

/-- LAU_UNITu_STAT. -/
def Unit128.statWord (x : Unit128) : Word :=
  w32 (x.kind.code * 2 ^ 28 + b2n x.armed * 2 ^ 27 + b2n x.behind * 2 ^ 26 + b2n x.opened * 2 ^ 25 + min x.fireCnt 0xFFFF)

/-- Puts a compare unit, shown in its registers and in COMPARE_BEHIND of its axis (R65). -/
def State.setUnit (s : State) (u : Nat) (x : Unit128) : State :=
  let old := s.unit u
  let s1 : State := { s with lau := { s.lau with units := Tab.set {} s.lau.units u x } }
  let s2 := (s1.wr (Reg.lauUnitStat u) x.statWord).setMap (Reg.lauCmpArmedMap 0) u x.armed
  let mark := fun (a : Nat) (st : State) => st.updAxis a (fun y => { y with
    behind := s1.lau.units.any (fun p => p.2.axisSrc && p.2.behind && decide (p.2.src = a)) })
  let s3 := if old.axisSrc ∧ old.behind then mark old.src s2 else s2
  if x.axisSrc ∧ x.behind then mark x.src s3 else s3

/-- The source's value at S, whether or not its events are suspended (R240). -/
def State.unitValue (s : State) (x : Unit128) : Int :=
  if x.axisSrc then wrap64 (s.axModel x.src).th else wrap64 (s.la x.src).ang

/-- BEHIND is judged at the S of the boundary at which the unit was armed (R240). -/
def State.unitJudge (s : State) (u : Nat) : State :=
  let x := s.unit u
  if x.judge = false then s
  else
    let beh := isBehind x.dir x.value (s.unitValue x)
    let s1 := s.setUnit u { x with judge := false, behind := beh && !x.catchUp, catchUp := beh && x.catchUp }
    if beh ∧ x.catchUp = false then s1.event 0x0A08 [.h u] else s1

/-- A firing (R241): the result words, FIRED and FIRE_CNT; a one-shot unit disarms, another goes on to its next VALUE. -/
def State.unitFired (s : State) (u t : Nat) (val : Int) : State :=
  let x := s.unit u
  let c0 := s.sampleAt 0
  let per := max s.per 1
  let k : Int := if c0 ≤ t then ((t - c0) / per : Nat) else -(((c0 - t + per - 1) / per : Nat) : Int)
  let cyc := (s.cyc.n : Int) + k
  let stamp := ((t : Int) - c0 - k * per) / grid64
  let one := decide (x.step = 0)
  let y : Unit128 := { x with
    fireCnt := min 0xFFFF (x.fireCnt + 1), behind := false, resVal := val, resStamp := stamp.toNat, resCycle := cyc.toNat
    armed := !one, value := if one then x.value else nextValue x.dir x.step x.value, opened := false, models := [] }
  let s1 := (s.setUnit u y).wr64 (Reg.lauUnitResLo u) (Reg.lauUnitResHi u) (dInt val)
  let s2 := (s1.wr (Reg.lauUnitResStamp u) (wInt stamp)).wr (Reg.lauUnitResCycle u) (wInt cyc)
  let s3 := s2.setMap (Reg.lauCmpFiredMap 0) u true
  if one then s3.event 0x0A09 [.h u] else s3

/-- A LOCAL or REMOTE unit fires at a time after S in 1/64 ns: its edge and pulse end are placed (R241). -/
def State.unitFire (s : State) (u k : Nat) (val : Int) (up : Option Bool) : State :=
  let x := s.unit u
  let t := s.sampleAt 0 + k * grid64
  let ax := if x.axisSrc then some x.src else none
  let put := fun (t' : Nat) (lvl : Bool) (st : State) => match x.kind with
    | .localOut o => st.evtLocal u o t' lvl ax
    | .remoteOut n o => st.evtRemote u n o t' lvl
    | _ => st
  let s1 := put t x.level s
  let s2 := if x.pulse = 0 then s1 else put (t + x.pulse * nsU) (!x.level) s1
  let y := s2.unit u
  (s2.setUnit u { y with placed := match up with
    | some b => y.placed ++ [(t, x.value, b)]
    | none => y.placed }).unitFired u t val

/-- Direction of a crossing found by `crosses`. -/
def crossDir (p v c : Int) : Bool := crossUp p v c

/-- Fires at every crossing of the window, VALUE after VALUE. -/
def State.unitSolve (s : State) (u : Nat) (e : EvtSrc) (hi : Nat) : Nat → Nat → State
  | 0, _ => s
  | f + 1, lo =>
    let x := s.unit u
    if x.armed = false then s
    else match e.solve (s.sampleAt 0) x.dir x.value lo hi with
      | some k =>
        let up := crossDir (e.at_ (s.sampleAt 0) ((k : Int) * grid64 - grid64)) (e.at_ (s.sampleAt 0) ((k : Int) * grid64)) x.value
        State.unitSolve (s.unitFire u k x.value (some up)) u e hi f (k + 1)
      | none => s

/-- Edges placed whose crossing the first S after their time does not confirm (R242). -/
def State.unitConfirm (s : State) (u : Nat) (th : Int) : State :=
  let x := s.unit u
  let c0 := s.sampleAt 0
  let due := x.placed.filter (fun p => decide (p.1 ≤ c0))
  let bad := due.filter (fun p =>
    let d := wrap64 (th - p.2.1)
    if p.2.2 then decide (d < 0) else decide (0 < d))
  forAll bad (fun _ st => st.event 0x0A0C [.h u]) (s.setUnit u { x with placed := x.placed.filter (fun p => decide (c0 < p.1)) })

/-! ### Capture windows (R244) -/

/-- LAU arms the probe of a window, from the time at which it opens. -/
def State.lauArm (s : State) (k p t : Nat) : State :=
  s.setProbe k p { ((s.enc k).probe p) with armed := true, full := false, lau := true, armAt := t, pend := none, late := none, ackClk := none }

/-- LAU acknowledges and releases a probe. -/
def State.lauFree (s : State) (k p : Nat) : State :=
  s.setProbe k p { ((s.enc k).probe p) with armed := false, full := false, lau := false, armAt := 0, pend := none, late := none, ackClk := none }

/-- The window opens (R244). -/
def State.winOpen (s : State) (u t : Nat) (up : Bool) (e : EvtSrc) : State :=
  let x := s.unit u
  match x.kind with
  | .window k p _ =>
    let m : UnitModel := { at_ := s.sampleAt 0, th := e.model.th, v := e.model.v, a := e.model.a, plan := e.plan }
    (s.setUnit u { x with opened := true, openAt := t, openUp := up, models := [m] }).lauArm k p t
  | _ => s

/-- Travel in the direction of the opening, from VALUE. -/
def Unit128.inWin (x : Unit128) (v : Int) : Int := if x.openUp then wrap64 (v - x.value) else wrap64 (x.value - v)

/-- The time of a probe's result, in 2^-16 ns. -/
def State.probeTime (s : State) (k p : Nat) : Nat :=
  let t := (s.rd (Reg.eiuProbeTime0 k p)).toNat + (s.rd (Reg.eiuProbeTime1 k p)).toNat * 2 ^ 32
    + (s.rd (Reg.eiuProbeTime2 k p)).toNat * 2 ^ 64
  t / 2 ^ 48 * secTicks + t / 65536 % 2 ^ 32 * 65536 + t % 65536

/-- The source at a time, from the model of the cycle that holds it (R226, R244). -/
def Unit128.valueAt (x : Unit128) (t : Nat) : Int :=
  match (match x.models.find? (fun m => decide (m.at_ ≤ t)) with
    | some m => some m
    | none => x.models.getLast?) with
  | none => 0
  | some m =>
    let e : EvtSrc := { model := { th := m.th, v := m.v, a := m.a }, plan := m.plan }
    e.at_ m.at_ ((t : Int) - m.at_)

/-- LAU reads the probes of open windows: an edge within the window gives MARK_CAPTURED, one outside is ignored. -/
def State.lauProbe (s : State) (u : Nat) : State :=
  let x := s.unit u
  match x.kind with
  | .window k p w =>
    if x.opened = false ∨ ((s.enc k).probe p).full = false then s
    else
      let t := s.probeTime k p
      let v := x.valueAt t
      let d := x.inWin v
      if x.openAt ≤ t ∧ 0 ≤ d ∧ d < w then
        ((s.lauFree k p).event 0x0A0D [.h u, .i v]).unitFired u t v
      else s.lauArm k p x.openAt
  | _ => s

/-- The window closes without an edge (R244). -/
def State.winClose (s : State) (u : Nat) : State :=
  let x := s.unit u
  match x.kind with
  | .window k p _ =>
    let one := decide (x.step = 0)
    let y : Unit128 := { x with
      opened := false, models := [], armed := !one, value := if one then x.value else nextValue x.dir x.step x.value }
    ((s.setUnit u y).lauFree k p).event 0x0A0E [.h u]
  | _ => s

/-- An open window at S: an edge is read, then the window is judged. -/
def State.winAtS (s : State) (u : Nat) (e : EvtSrc) : State :=
  let x0 := s.unit u
  let m : UnitModel := { at_ := s.sampleAt 0, th := e.model.th, v := e.model.v, a := e.model.a, plan := e.plan }
  let s1 := (s.setUnit u { x0 with models := (m :: x0.models).take 80 }).lauProbe u
  let x := s1.unit u
  match x.kind with
  | .window _ _ w =>
    let d := x.inWin e.model.th
    if x.opened ∧ x.openAt ≤ s.sampleAt 0 ∧ (d < 0 ∨ (w : Int) ≤ d) then s1.winClose u else s1
  | _ => s1

/-- A compare unit at LAU_POST (R237 to R244). -/
def State.unitPost (s00 : State) (u : Nat) : State :=
  let s := s00.unitJudge u
  let x := s.unit u
  match s.unitEvt x with
  | none => if x.srcPrev.isSome then s.setUnit u { x with srcPrev := none, catchUp := false } else s
  | some e =>
    let th := wrap64 e.model.th
    let prev := x.srcPrev
    let s0 := s.unitConfirm u th
    let s1 := s0.setUnit u { (s0.unit u) with srcPrev := some th, catchUp := false }
    if x.armed = false then s1
    else
      let win := match x.kind with
        | .window _ _ _ => true
        | _ => false
      let remote := match x.kind with
        | .remoteOut _ _ => true
        | _ => false
      let w := s.evtWindow remote
      let missed := match prev with
        | some p => crosses x.dir p th x.value
        | none => false
      let pv := prev.getD th
      if x.catchUp then
        let k := s.per / grid64
        let v := e.at_ (s.sampleAt 0) s.per
        if win then s1.unitFired u (s.sampleAt 0 + k * grid64) v else s1.unitFire u k v none
      else if win then
        if x.opened then s1.winAtS u e
        else if missed then (s1.winOpen u (s.sampleAt 0) (crossDir pv th x.value) e)
        else match e.solve (s.sampleAt 0) x.dir x.value 1 (s.per / grid64 + 1) with
          | some k =>
            let up := crossDir (e.at_ (s.sampleAt 0) ((k : Int) * grid64 - grid64)) (e.at_ (s.sampleAt 0) ((k : Int) * grid64)) x.value
            s1.winOpen u (s.sampleAt 0 + k * grid64) up e
          | none => s1
      else
        let s2 := if missed then
            ((s1.count Reg.lauEvtLateCnt).event 0x0A0A [.h u, .w (s.lateNs pv th x.value w.1)]).unitFire u w.1 x.value none
          else s1
        s2.unitSolve u e w.2 64 w.1

/-! ### Cam switches (R243) -/

/-- The boundaries of a track: angle within the period, and whether it is an ON. -/
def Track.bounds (t : Track) : List (Nat × Bool) := t.windows.flatMap (fun w => [(w.1, true), (w.2, false)])

/-- An edge of a track's output. -/
def State.trackEdge (s : State) (i : Nat) (t : Track) (k : Nat) (lvl : Bool) : State :=
  let at_ := s.sampleAt 0 + k * grid64
  match t.remote with
  | some (node, out) => s.evtRemote (0x8000 + i) node out at_ lvl
  | none => s.evtLocal (0x8000 + i) t.out at_ lvl none

/-- What a line angle travels in the lead of a boundary met in a direction: LEAD_ON where a window is entered, else LEAD_OFF (R243). -/
def Track.leadTravel (t : Track) (v : Int) (on up : Bool) : Int :=
  divRound (v * ((if on = up then t.leadOn else t.leadOff) * nsU : Nat) * 256) secTicks

/-- One boundary `b` of a track in one direction: placed at its crossing, or late where the model missed it. -/
def State.trackBound (s : State) (i : Nat) (t : Track) (e : EvtSrc) (b : Int) (on up : Bool) : State :=
  let rt := Tab.get {} s.lau.trackRt i
  let enter := decide (on = up)
  let c := b - t.leadTravel e.model.v on up
  let lvl := if enter then t.level else !t.level
  let dir := if up then 0 else 1
  let w := s.evtWindow t.remote.isSome
  let mark := fun (st : State) =>
    let r := Tab.get {} st.lau.trackRt i
    let st' : State := { st with lau := { st.lau with trackRt := Tab.put st.lau.trackRt i { r with done := (b, up) :: r.done } } }
    st'
  if rt.done.contains (b, up) ∨ rt.old.contains (b, up) then s
  else
    let th := wrap64 e.model.th
    match (match rt.srcPrev with
      | some p => if crosses dir p th c then some p else none
      | none => none) with
    | some p =>
      mark (((s.count Reg.lauEvtLateCnt).event 0x0A0A [.h i, .w (s.lateNs p th c w.1)]).trackEdge i t w.1 lvl)
    | none =>
      match e.solve (s.sampleAt 0) dir c w.1 w.2 with
      | some k => mark (s.trackEdge i t k lvl)
      | none => s

/-- A cam switch track at LAU_POST. -/
def State.trackPost (s : State) (i : Nat) (t : Track) : State :=
  let x := s.la t.la
  let rt := Tab.get {} s.lau.trackRt i
  let setRt := fun (st : State) (f : TrackRt → TrackRt) =>
    let st' : State := { st with lau := { st.lau with trackRt := Tab.set {} st.lau.trackRt i (f (Tab.get {} st.lau.trackRt i)) } }
    st'
  match s.laEvt x t.la with
  | none => setRt s (fun _ => {})
  | some e =>
    let th := wrap64 e.model.th
    let s0 := setRt s (fun r => { r with old := rt.done, done := [] })
    let s1 := if x.jumped then
        s0.trackEdge i t (s.evtWindow t.remote.isSome).1 (if t.inside e.model.th then t.level else !t.level)
      else s0
    let per : Int := max t.period 1
    let reach := e.model.v.natAbs * 256 * s.per / secTicks / max t.period 1 + 2
    let s2 := forAll t.bounds (fun b st =>
      forAll [true, false] (fun up st' =>
        let at_ := e.model.th + t.leadTravel e.model.v b.2 up
        forAll (List.range (2 * reach + 1)) (fun k st'' =>
          st''.trackBound i t e (at_ - at_ % per + ((k : Int) - reach) * per + b.1) b.2 up) st') st) s1
    setRt s2 (fun r => { r with srcPrev := some th })

/-! ### Items held for an angle (R245) -/

/-- Items held by LAU. -/
def State.heldItems (s : State) : List Taken := s.wks.taken.filter (fun t => decide (t.stage = .heldLau))

/-- The item is a move for an axis in READY. -/
def State.moveFromReady (s : State) (t : Taken) : Bool :=
  ([Opc.moveAbs, Opc.moveRel, Opc.moveVel].contains t.item.opcode) && decide (hType t.item.handle = 1) &&
    decide ((s.axis (hIdx t.item.handle)).st = .ready)

/-- Changes a taken item. -/
def State.updTaken (s : State) (seq : Nat) (f : Taken → Taken) : State :=
  { s with wks := { s.wks with taken := s.wks.taken.map (fun t => if t.seq = seq then f t else t) } }

/-- The move-start window of an axis, in 1/64 ns after S: the plan origin at the next boundary, the last instant that PGN has produced by
then, to the actuation instant after it (R194, R237). -/
def State.moveWindow (s : State) (a : Nat) : Nat × Nat :=
  let d := s.desc a
  let per : Int := (s.per / grid64 : Nat)
  let v := clsDiv d.cls
  let n : Int := s.cyc.n
  let n1 := s.cyc.n + 1
  let last : Int := (n1 - (n1 + v - d.phase % v) % v : Nat)
  let next : Int := (d.nextActive n1 : Nat)
  let off := fun (t : Nat) => (((t - s.cyc.c0) / grid64 : Nat) : Int)
  ((max 1 (off (s.actLast a) + (last - n) * per)).toNat, (off (s.actAt a 0) + (next - n) * per).toNat)

/-- An item held for an angle, at LAU_POST (R245). -/
def State.heldPost (s : State) (t : Taken) : State :=
  let la := hIdx t.item.dueLa
  let x := s.la la
  match s.laEvt x la with
  | none => s.updTaken t.seq (fun u => { u with laPrev := none })
  | some e =>
    let th := wrap64 e.model.th
    let c := sgn 64 t.item.due
    let dir := t.item.dueDir
    let release := fun (st : State) (start : Option Nat) =>
      st.updTaken t.seq (fun u => { u with stage := .staged (s.cyc.n + 1), startAt := start })
    let seen := match t.laPrev with
      | some p => crosses dir p th c
      | none => false
    if s.moveFromReady t then
      let w := s.moveWindow (hIdx t.item.handle)
      if seen then
        release ((s.count Reg.lauEvtLateCnt).event 0x0A0A [.h t.item.tag, .w (s.lateNs (t.laPrev.getD th) th c (s.per / grid64))]) none
      else match e.solve (s.sampleAt 0) dir c w.1 w.2 with
        | some k => release s (some (s.sampleAt 0 + k * grid64))
        | none => s.updTaken t.seq (fun u => { u with laPrev := some th })
    else if seen then release s none
    else s.updTaken t.seq (fun u => { u with laPrev := some th })

/-! ### LAU_POST (R227) -/

/-- LAU's whole work for the cycle: line angles, linked setpoints, solved edges. -/
def State.lauPost (s : State) : State :=
  let s1 := forAll ((s.lau.angles.filter (fun p => decide (p.2.decl.src ≠ .none))).map (·.1)) (fun n st => st.laAtS n) s
  let s2 : State := { s1 with lau := { s1.lau with posted := true } }
  let s3 := s2.linksPost
  let s4 := forAll ((s3.lau.units.filter (fun p => p.2.armed || !p.2.placed.isEmpty)).map (·.1)) (fun u st => st.unitPost u) s3
  let s5 := forAll s4.lau.tracks.zipIdx (fun p st => st.trackPost p.2 p.1) s4
  let s6 := forAll s5.heldItems (fun t st => st.heldPost t) s5.actsTrim
  forAll s6.axesInUse (fun a st =>
    let w := (st.axis a).lauWait
    forAll w (fun q st' => st'.makeReady a q.1 q.2) (st.updAxis a (fun x => { x with lauWait := [] }))) s6

end Sys2Proof.Machine
end

