-- ==== Sys2Proof/Machine/LauItems.lean ====
section
/-! DEFINITION. Machine/LauItems.lean: the work items of LAU (R229 to R231, R235, R239, R240), its timed rows and the edges of
periodic sources (R221, R224, R225). -/

namespace Sys2Proof.Machine

/-! ### Handles at service (R15, R217) -/

/-- The object of a slot exists: a line angle or a capture channel is declared, a cam table valid. -/
def State.objLive (s : State) (t i : Nat) : Bool :=
  match t with
  | 2 => decide ((s.la i).decl.src ≠ .none)
  | 3 => decide (s.rdFld (Reg.capChCfg i) 23 19 ≠ 0)
  | 5 => s.lau.cams.any (fun p => decide (p.1 = i))
  | _ => true

/-- The three handle checks of R15: the status of the first failure. -/
def State.handleCheck (s : State) (types : List Nat) (h : Word) : Option Nat :=
  if handleRange types h = false then some Stat.badHandle
  else if s.handleFresh h = false ∨ s.objLive (hType h) (hIdx h) = false then some Stat.stale
  else none

/-! ### GEAR_SET and GEAR_CHANGE_AT (R229 to R231) -/

/-- The link arguments of an item. -/
def gearReq (it : Item) (master : Master) : LinkReq :=
  let f := it.u 52 1
  let when_ := decide (f / 4 % 2 = 1)
  { master := master
    kind := if f / 2 % 2 = 1 then .cam (hIdx (w32 (it.u 24 4))) (it.s64 28) else .ratio (it.s64 24) (it.u 32 4)
    rampD := it.u 44 8
    at_ := if when_ then some { value := it.s64 36, dir := f / 8 % 4 } else none }

/-- The argument checks of R229, third row. A step to a ratio of 0 is a release, which GEAR_CHANGE_AT may ask for (R232). -/
def gearBad (it : Item) (change : Bool) : Bool :=
  let f := it.u 52 1
  let cam := decide (f / 2 % 2 = 1)
  let ramp := it.u 44 8
  decide (f / 8 % 4 = 3) || decide (2 ^ 63 < ramp) ||
    (if cam then decide (ramp ≠ 0)
     else decide (it.u 32 4 = 0) || (!change && decide (it.u 24 8 = 0 ∧ ramp = 0)))

/-- Links above an axis through setpoint masters; `none` where the follower is among them. -/
def State.chainUp (s : State) (follower : Nat) : Nat → Nat → Option Nat
  | 0, _ => some 9
  | f + 1, a =>
    if a = follower then none
    else match s.lau.links.find? (fun p => decide (p.1 = a)) with
      | some (_, l) => match l.master with
        | .axisSp b => (State.chainUp s follower f b).map (· + 1)
        | _ => some 1
      | none => match s.lau.armedLinks.find? (fun p => decide (p.1 = a)) with
        | some (_, q) => match q.master with
          | .axisSp b => (State.chainUp s follower f b).map (· + 1)
          | _ => some 1
        | none => some 0

/-- Links below an axis through setpoint masters. -/
def State.chainDown (s : State) : Nat → Nat → Nat
  | 0, _ => 9
  | f + 1, a =>
    ((s.lau.links.map (fun p => (p.1, p.2.master)) ++ s.lau.armedLinks.map (fun p => (p.1, p.2.master))).map (fun p =>
      if p.2 = .axisSp a then 1 + State.chainDown s f p.1 else 0)).foldl max 0

/-- The master depends on the follower, or the chain would exceed four links (R229). -/
def State.chainBad (s : State) (a : Nat) (m : Master) : Bool :=
  match m with
  | .axisSp b =>
    (match s.chainUp a 9 b with
     | none => true
     | some up => decide (4 < up + 1 + s.chainDown 9 a))
  | _ => decide (4 < 1 + s.chainDown 9 a)

/-- The master is a line angle in a state that R229 does not take. -/
def State.masterOut (s : State) (m : Master) : Bool :=
  match m with
  | .la n =>
    let st := (s.la n).st
    decide (st ≠ .valid ∧ st ≠ .rejoin ∧ st ≠ .coast)
  | _ => false

/-- GEAR_SET at service (R229, R230). -/
def State.serveGearSet (s : State) (t : Taken) : State :=
  let it := t.item
  let a := t.axis
  let x := s.axis a
  let f := it.u 52 1
  let mh := w32 (it.u 20 4)
  let ch := w32 (it.u 24 4)
  let lk := s.linked a
  let m : Master := if hType mh = 2 then .la (hIdx mh) else if f % 2 = 1 then .axisSp (hIdx mh) else .axisFb (hIdx mh)
  match s.handleCheck [1, 2] mh, (if f / 2 % 2 = 1 then s.handleCheck [5] ch else none) with
  | some c, _ => s.completeHandle t mh c s.cyc.n
  | none, some c => s.completeHandle t ch c s.cyc.n
  | none, none =>
    if x.st ≠ .ready ∧ ¬ (x.st = .motion ∧ lk) then s.complete t Stat.wrongState
    else if gearBad it false ∨ s.chainBad a m then s.complete t Stat.badParam
    else if s.masterOut m then s.complete t Stat.wrongState
    else if x.st = .ready ∧ x.moved then s.later t
    else
      let q := gearReq it m
      let ans := if q.at_.isSome then Stat.deferred else Stat.ok
      if lk then
        let s1 := match s.lau.links.find? (fun p => decide (p.1 = a)) with
          | some (_, l) => s.setLink a { l with next := some q }
          | none => s
        s1.complete t ans
      else
        let s1 := s.setSt a .motion 0
        let s2 := if q.at_.isSome then
            let s3 : State := { s1 with lau := { s1.lau with armedLinks := Tab.put s1.lau.armedLinks a q } }
            s3
          else s1.setLink a (newLink q (0, 1) x.pgn.sp.p none 0)
        s2.complete t ans

/-- GEAR_CHANGE_AT at service (R231). -/
def State.serveGearChange (s : State) (t : Taken) : State :=
  let a := t.axis
  let f := t.item.u 52 1
  match s.lau.links.find? (fun p => decide (p.1 = a)) with
  | none => s.complete t Stat.wrongState
  | some (_, l) =>
    if l.next.isSome then s.complete t Stat.busy
    else match (if f / 2 % 2 = 1 then s.handleCheck [5] (w32 (t.item.u 24 4)) else none) with
      | some c => s.completeHandle t (w32 (t.item.u 24 4)) c s.cyc.n
      | none =>
        if gearBad t.item true then s.complete t Stat.badParam
        else if s.masterOut l.master then s.complete t Stat.wrongState
        else
          let q := gearReq t.item l.master
          (s.setLink a { l with next := some q }).complete t (if q.at_.isSome then Stat.deferred else Stat.ok)

/-! ### CAM_SET (R235) -/

/-- A link or a pending GEAR_SET or GEAR_CHANGE_AT uses a cam index. -/
def State.camUsed (s : State) (i : Nat) : Bool :=
  let by_ : LinkKind → Bool
    | .cam j _ => decide (j = i)
    | .ratio _ _ => false
  s.lau.links.any (fun p => by_ p.2.kind || (match p.2.next with
    | some q => by_ q.kind
    | none => false)) || s.lau.armedLinks.any (fun p => by_ p.2.kind)

/-- A range of DRAM lies in one region that the image places for the host (R24, R235). -/
def State.hostRegion (s : State) (a n : Nat) : Bool :=
  s.cfl.body.line.regions.any (fun r => r.host && decide (r.base ≤ a) && decide (a + n ≤ r.base + r.len))

/-- CAM_SET at service: the table's previous handle is retired, so that no item served after it uses the index (R246); the copy begins,
and the completion is held until it ends. -/
def State.serveCamSet (s : State) (t : Taken) : State :=
  let it := t.item
  let i := it.u 20 2
  let src := it.u 24 8
  let n := it.u 32 4
  let span := it.u 36 8
  if s.rdFld Reg.lauCfg 15 7 ≤ i then s.complete t Stat.noResource
  else if n < 2 ∨ 65536 < n ∨ span = 0 ∨ src % 16 ≠ 0 ∨ s.hostRegion src (16 * n) = false then s.complete t Stat.badParam
  else if s.camUsed i then s.complete t Stat.busy
  else
    let c : CamCopy := { seq := t.seq, index := i, src := src, hdr := { n := n, span := span, periodic := decide (it.u 44 1 % 2 = 1) } }
    let s1 := if s.objLive 5 i then s.retire 5 i else s
    let s2 : State := { s1 with lau := { s1.lau with copies := s1.lau.copies ++ [c], cams := Tab.del s1.lau.cams i } }
    (s2.setMap (Reg.lauCamMap 0) i false).hold t

/-- CAM_COPY_DONE: the oldest copy into a table ends and the new handle is returned (R55, R235). -/
def execCamCopyDone (i : Nat) (s : State) : Host.Outcome State Fault Refusal :=
  match s.lau.copies.find? (fun c => decide (c.index = i)) with
  | none => .next s
  | some c =>
    let base := (s.rd64 Reg.lauCamBaseLo Reg.lauCamBaseHi).toNat + i * 0x100000
    let s1 := s.dramWrite base (s.dramRead c.src (16 * c.hdr.n))
    let s3 : State := { s1 with lau := { s1.lau with
      cams := Tab.put s1.lau.cams i c.hdr, copies := s1.lau.copies.filter (fun d => decide (d.seq ≠ c.seq)) } }
    let s4 := s3.setMap (Reg.lauCamMap 0) i true
    .next (match s4.takenOf c.seq with
      | some t => s4.completeX t Stat.ok (s4.handleOf 5 i) s4.cyc.n []
      | none => s4)

/-! ### COMPARE_ARM (R239, R240) -/

/-- What a unit is to drive. -/
def armKind (it : Item) : CmpKind :=
  match it.u 21 1 % 4 with
  | 1 => .localOut (it.u 48 1)
  | 2 => .remoteOut (it.u 48 1) (it.u 49 1)
  | 3 => .window (it.u 48 1) (it.u 49 1) (it.u 52 8)
  | _ => .off

/-- The checks of a kind: a LOCAL output in MODE EVENT, a node with actuate-at entries, a channel and probe that exist. -/
def State.armKindOk (s : State) (k : CmpKind) : Bool :=
  match k with
  | .localOut o => decide (o < 16 ∧ s.foutMode o = 3)
  | .remoteOut n o => decide (o < 128) && (s.nodeEnt n).described && decide ((s.nodeEnt n).actEntries ≠ 0)
  | .window c p _ => decide (c < 8 ∧ p < 2)
  | .off => true

/-- A unit is emptied; the probe of its open window is released. -/
def State.unitClear (s : State) (u : Nat) : State :=
  let x := s.unit u
  let s1 := match x.kind with
    | .window k p _ => if x.opened then s.lauFree k p else s
    | _ => s
  s1.setUnit u { kind := .off, fireCnt := x.fireCnt, armCycle := x.armCycle, resVal := x.resVal, resStamp := x.resStamp
                 resCycle := x.resCycle, placed := x.placed, axisSrc := x.axisSrc, src := x.src }

/-- COMPARE_ARM at service: the table of R239 for every KIND, then the arming, or for DISARM the emptying. BEHIND is judged once the value
at the S of this boundary is known. -/
def State.serveCompareArm (s : State) (t : Taken) : State :=
  let it := t.item
  let u := it.u 20 1
  let c := it.u 21 1
  let dir := c / 4 % 4
  let src := w32 (it.u 24 4)
  let step := it.u 36 8
  let pulse := it.u 44 4
  let kind := armKind it
  match s.handleCheck [1, 2] src with
  | some e => s.completeHandle t src e s.cyc.n
  | none =>
    if 127 < u ∨ dir = 3 ∨ (dir = 2 ∧ step ≠ 0) ∨ 1000000 < pulse ∨ s.armKindOk kind = false then s.complete t Stat.badParam
    else if kind = .off then (s.unitClear u).complete t Stat.ok
    else
      let s1 := s.unitClear u
      let y := s1.unit u
      let x : Unit128 := {
        kind := kind, axisSrc := decide (hType src = 1), src := hIdx src, value := it.s64 28, dir := dir
        level := decide (c / 16 % 2 = 1), pulse := pulse, step := step, armed := true, armCycle := s.cyc.n, resVal := y.resVal
        resStamp := y.resStamp, resCycle := y.resCycle, catchUp := decide (c / 32 % 2 = 1), judge := true, placed := y.placed }
      ((s1.setUnit u x).wr (Reg.lauUnitArmCycle u) (w32 s.cyc.n)).complete t Stat.ok

/-! ### Line angles between S (R221, R224, R225) -/

/-- COAST_EXPIRY: T_COAST has elapsed, and the substitute decelerates (R224). -/
def execCoastExpiry (n : Nat) (s : State) : Host.Outcome State Fault Refusal :=
  let x := s.la n
  if x.st ≠ .coast ∨ s.now < x.endAt then .next s
  else
    let sg : Int := if x.lostVel < 0 then 1 else -1
    .next (s.laShow n { x with st := .ramp, acc := sg * x.decl.lossDec })

/-- REJOIN_SLEW_END: T_REJOIN has elapsed, and the correction is 0 (R225). -/
def execRejoinSlewEnd (n : Nat) (s : State) : Host.Outcome State Fault Refusal :=
  let x := s.la n
  if x.st ≠ .rejoin ∨ s.now < x.endAt then .next s else .next (s.laShow n { x with st := .valid, corr := 0 })

/-- A period of a periodic source times `num / 2`, in 2^-16 ns. -/
def LineAngle.halfPeriods (x : LineAngle) (num : Nat) : Nat := num * secTicks * 2 ^ 23 / max x.freq 1

/-- PERIODIC_EDGE_MISSING: an expected edge has not come within 1.5 periods (R221). -/
def execPeriodicEdgeMissing (n : Nat) (s : State) : Host.Outcome State Fault Refusal :=
  let x := s.la n
  if (x.decl.src ≠ .periodicFin ∧ x.decl.src ≠ .periodicPps) ∨ x.freq = 0 ∨ s.now < x.missRef + x.halfPeriods 3 then .next s
  else .next (s.setLa n { x with miss := x.miss + 1, missRef := x.missRef + x.halfPeriods 2 })

/-- An edge of the polarity of a periodic source is judged and tracked (R221). The loop's coefficients are not in the spec:
its estimates of phase and frequency are free values. -/
def State.periodicEdge (s : State) (n t : Nat) : State :=
  let x := s.la n
  let last := x.edges.headD 0
  if x.freq ≠ 0 ∧ t < last + x.halfPeriods 1 then s.count Reg.lauEdgeRejCnt
  else
    let es := (t :: x.edges).take 5
    let ideal := x.edgeAng + (x.miss + 1 : Nat) * (x.decl.stepRaw : Int)
    let y : LineAngle := { x with edges := es, miss := 0, missRef := t, edgeAng := ideal }
    if x.freq = 0 then
      match es with
      | [_, _, _, _, t0] =>
        s.setLa n { y with freq := 4 * secTicks * 2 ^ 24 / max (t - t0) 1, pllAng := ideal }
      | _ => s.setLa n { y with pllAng := ideal }
    else
      let e := modDiff (dInt (x.pllAng + x.advance (t - last))) (dInt ideal)
      let inTol := decide (e.natAbs ≤ x.decl.lockTol)
      let good := if inTol then x.good + 1 else 0
      let bad := if 4 * x.decl.lockTol < e.natAbs then x.bad + 1 else 0
      let r := s.frees 2
      let f := (r.1.getD 0 0).toNat
      let p := (r.1.getD 1 0).toInt
      let lock := !x.locked && decide (16 ≤ good)
      let fresh := lock && !x.ever
      r.2.setLa n { y with
        freq := f, good := good, bad := bad, locked := x.locked || lock
        edgeAng := if fresh then x.decl.ang0 else ideal
        pllAng := if fresh then x.decl.ang0 else p }

/-- An accepted edge of a fast input or of PPS_IN reaches the line angles that follow it. -/
def State.periodicEdges (s : State) (fin : Option Nat) (lvl : Bool) (t : Nat) : State :=
  forAll ((s.lau.angles.filter (fun p => match fin with
    | some k => decide (p.2.decl.src = .periodicFin ∧ p.2.decl.srcIndex = k) && (decide (p.2.decl.edge = 0) == lvl)
    | none => decide (p.2.decl.src = .periodicPps))).map (·.1)) (fun n st => st.periodicEdge n t) s

/-! ### Objects that an epoch retires (R55, R232, R246) -/

/-- Links that follow a master or use a cam end as for a STOP (R232 cause 5). -/
def State.linksRetire (s : State) (p : Master → LinkKind → Bool) : State :=
  let ls := (s.lau.links.filter (fun q => p q.2.master q.2.kind || (match q.2.next with
    | some r => p r.master r.kind
    | none => false))).map (·.1)
  let as_ := (s.lau.armedLinks.filter (fun q => p q.2.master q.2.kind)).map (·.1)
  forAll (ls ++ as_) (fun a st => st.stopPlan (.ax a) false 1 1 5) s

/-- The handle of a line angle is retired. -/
def State.laRetire (s : State) (n : Nat) : State :=
  let s1 := (s.linksRetire (fun m _ => decide (m = .la n))).retire 2 n
  let us := (s1.lau.units.filter (fun p => !p.2.axisSrc && decide (p.2.src = n) && p.2.armed)).map (·.1)
  let s2 := forAll us (fun u st => st.unitClear u) s1
  let held := s2.heldItems.filter (fun t => decide (hIdx t.item.dueLa = n))
  forAll held (fun t st => st.complete t Stat.stale) s2

/-- A cam table is removed and its handle retired. -/
def State.camRetire (s : State) (i : Nat) : State :=
  let s1 := s.linksRetire (fun _ k => match k with
    | .cam j _ => decide (j = i)
    | .ratio _ _ => false)
  let s2 := if s1.objLive 5 i then s1.retire 5 i else s1
  let s3 : State := { s2 with lau := { s2.lau with cams := Tab.del s2.lau.cams i } }
  s3.setMap (Reg.lauCamMap 0) i false

end Sys2Proof.Machine
end

