-- ==== Sys2Proof/Machine/Capture.lean ====
section
/-! DEFINITION. Machine/Capture.lean: the capture engine CAP (R477 to R485): samples and records, triggers, the ends of
captures and their descriptors; and the accepted transitions of fast inputs (R95), which CAP, EIU and LAU consume. -/

namespace Sys2Proof.Machine

/-! ### Settings (R477, R480) -/

/-- KIND of a channel. -/
def State.capKind (s : State) (c : Nat) : Nat := s.rdFld (Reg.capChCfg c) 31 29
/-- DIV of a channel, as a number of cycles. -/
def State.capDiv (s : State) (c : Nat) : Nat := 2 ^ s.rdFld (Reg.capChCfg c) 28 26
/-- Descriptor ring of a channel. -/
def State.capRing (s : State) (c : Nat) : Nat := 8 + s.rdFld (Reg.capChCfg c) 25 24
/-- Records of a half. -/
def State.capHalf (s : State) (c : Nat) : Nat := 2 ^ s.rdFld (Reg.capChCfg c) 23 19
/-- N of a channel. -/
def State.capN (s : State) (c : Nat) : Nat := s.rdFld (Reg.capChCfg c) 18 10
/-- The image declares the channel. -/
def State.capDeclared (s : State) (c : Nat) : Bool := decide (s.rdFld (Reg.capChCfg c) 23 19 ≠ 0)
/-- DRAM address of a record. -/
def State.capAddr (s : State) (c half i : Nat) : Nat :=
  (s.rd64 Reg.capBaseLo Reg.capBaseHi).toNat + Tab.get 0 s.ctrl.caps c + (half * s.capHalf c + i % s.capHalf c) * 16

/-- Declared channels of a kind that are capturing. -/
def State.capOn (s : State) (kind : Nat) : List Nat :=
  (List.range 32).filter (fun c => s.capDeclared c && decide (s.capKind c = kind) &&
    decide ((s.capCh c).st = .pre ∨ (s.capCh c).st = .post))

/-- An event of CAP, with what it triggers. -/
def State.capTriggers (s : State) (cs : List Nat) (at_ : Nat × Nat) : State := if cs = [] then s else s.trigger cs at_

/-! ### Ends of captures (R482, R484) -/

/-- The descriptor of a capture (R484). -/
def State.capDesc (s : State) (c : Nat) (cut : Bool) : List Byte × Nat × Nat :=
  let x := s.capCh c
  let kept := x.trigCycle - x.startCyc
  let cnt := (x.total - x.start) % s.capHalf c
  let flags := b2n x.forced + 2 * b2n x.lost + 4 * b2n (decide (kept < x.pre)) + 8 * b2n cut
  (leBytes 4 (s.handleOf 3 c).toNat ++ leBytes 1 x.mode ++ leBytes 1 flags ++ [0, 0] ++ leBytes 8 x.trigCycle
    ++ leBytes 4 x.trigStamp.toNat ++ leBytes 4 x.seq ++ leBytes 8 (s.capAddr c x.half x.start) ++ leBytes 4 cnt ++ leBytes 4 kept
    ++ leBytes 1 x.half, flags, cnt)

/-- A capture starts at record 0 of a half (R482). -/
def State.capBegin (s : State) (c half : Nat) : State :=
  let x := s.capCh c
  s.setCapCh c { x with
    st := .pre, half := half, wpos := 0, total := 0, fresh := true, cross := false, last := [], keys := [], start := 0, startCyc := 0
    trigCycle := 0, trigStamp := 0
    trigMark := false, forced := false, lost := false, lostNow := false, keyCycle := none, armCycle := s.cycleNo, rearm := false }

/-- The half that a new capture may use, if one is free. -/
def CapChan.freeHalf (x : CapChan) : Option Nat :=
  if x.busy.contains (1 - x.half) = false ∧ x.half ≤ 1 ∧ x.total ≠ 0 then some (1 - x.half)
  else if x.busy.contains 0 = false then some 0
  else if x.busy.contains 1 = false then some 1
  else none

/-- A capture goes on in the free half, in NORMAL and AUTO. -/
def State.capAgain (s : State) (c : Nat) : State :=
  let x := s.capCh c
  if x.st = .held ∧ (2 ≤ x.mode ∨ x.rearm = true) ∧ x.waitDesc = [] then
    match x.freeHalf with
    | some h => s.capBegin c h
    | none => s
  else s

/-- Descriptors on chip are written while the ring has room (R484). -/
def State.capFlush (s : State) (c : Nat) : State :=
  let x := s.capCh c
  match x.waitDesc with
  | [] => s
  | d :: rest =>
    let r := s.capRing c
    if s.ringRoom r 1 then
      let i := (s.rd (Reg.wksRingProd r)).toNat
      (s.ringPut r d).setCapCh c { x with waitDesc := rest, posted := x.posted ++ [((d.getD 40 0).toNat, i)] }
    else s

/-- A capture ends: its descriptor is posted, CAPTURE_DONE. -/
def State.capEnd (s : State) (c : Nat) (cut : Bool) : State :=
  let x := s.capCh c
  let d := s.capDesc c cut
  let s1 := (s.setCapCh c { x with
    st := .held, endCycle := some s.cycleNo, seq := x.seq + 1, busy := if x.busy.contains x.half then x.busy else x.half :: x.busy
    waitDesc := x.waitDesc ++ [padTo 64 d.1] }).capFlush c
  ((s1.count Reg.capDoneCnt).event 0x1501 [.h c, .h d.2.1, .w d.2.2]).capAgain c

/-- The consumer of a CAPTURE ring has moved: descriptors that it has passed free their halves (R482). -/
def State.capRelease (s : State) (r : Nat) : State :=
  forAll ((List.range 32).filter (fun c => s.capDeclared c && decide (s.capRing c = r))) (fun c st =>
    let x := st.capCh c
    let cons := st.rd (Reg.wksRingCons r)
    let passed := fun (i : Nat) => decide (0 < (cons - w32 i).toInt)
    let gone := (x.posted.filter (fun p => passed p.2)).map (·.1)
    let s1 := st.setCapCh c { x with posted := x.posted.filter (fun p => !passed p.2), busy := x.busy.filter (fun h => !gone.contains h) }
    ((s1.capFlush c).capFlush c).capAgain c) s

/-! ### Records (R478 to R480) -/

/-- Writes one record; a record that would overwrite START ends the capture instead (R482). -/
def State.capRecord (s : State) (c word : Nat) (v : Word) (key : Bool) (at_ : Nat × Nat) : State :=
  let x := s.capCh c
  let h := s.capHalf c
  if x.st ≠ .pre ∧ x.st ≠ .post then s
  else if x.st = .post ∧ h ≤ x.total - x.start then s.capEnd c true
  else
    let b := leBytes 4 at_.1 ++ leBytes 4 at_.2 ++ leBytes 4 (capFlags word key x.trigMark x.lostNow) ++ leBytes 4 v.toNat
    let pos := (x.wpos + 1) % h
    let last := (x.last ++ List.replicate (word + 1 - x.last.length) 0).set word v
    (s.dramWrite (s.capAddr c x.half x.wpos) b).setCapCh c { x with
      wpos := pos, total := x.total + 1, last := last, trigMark := false, lostNow := false, lost := x.lost || x.lostNow
      cross := x.cross || decide (pos = 0 ∨ pos = h / 2) }

/-- A key set begins: its record number and cycle are kept, at most two. One of the trigger's own cycle is among the two from which START
is taken (R495). -/
def State.capKey (s : State) (c cycle : Nat) : State :=
  let x := s.capCh c
  let keys := ((x.total, cycle) :: x.keys).take 2
  let k := keys.getD 1 (x.total, cycle)
  let y := if x.st = .post then { x with start := k.1, startCyc := k.2 } else x
  s.setCapCh c { y with fresh := false, cross := false, keys := keys }

/-- Whether the next sample is a key set: the first sample in any state, and after a crossing one in PRE or in the cycle of the trigger
(R478, R482, R495). -/
def CapChan.keyDue (x : CapChan) (cycle : Nat) : Bool :=
  x.fresh || (x.cross && decide (x.st = .pre ∨ (x.st = .post ∧ x.trigCycle = cycle)))

/-- Triggers of NOW and of CHANGE that a sample fires (R483). -/
def State.capAfter (s : State) (c : Nat) (first wrote : Bool) (at_ : Nat × Nat) : State :=
  let now := if first ∧ (s.capCh c).trig = 0 ∧ (s.capCh c).st = .pre then [c] else []
  let chg := if wrote then
      (s.cap.chans.filter (fun p => decide (p.2.trig = 2 ∧ p.2.tsel = c ∧ (p.2.st = .pre ∨ p.2.st = .held)))).map (·.1)
    else []
  s.capTriggers (now ++ chg) at_

/-- A sample of all words of a channel (R478). -/
def State.capSample (s : State) (c : Nat) (vals : List Word) (at_ : Nat × Nat) : State :=
  let x := s.capCh c
  let key := x.keyDue at_.1
  let mask := s.rd (Reg.capChMask c)
  let s1 := if key then s.capKey c at_.1 else s
  let pick := vals.zipIdx.filter (fun p => key || decide ((p.1 &&& mask) ≠ (x.last.getD p.2 0 &&& mask)))
  let s2 := forAll pick (fun p st => st.capRecord c p.2 p.1 key at_) s1
  s2.capAfter c x.fresh (!key && !pick.isEmpty) at_

/-- Channels of a kind that sample in the present cycle. -/
def State.capDue (s : State) (kind : Nat) : List Nat := (s.capOn kind).filter (fun c => decide (s.cycleNo % s.capDiv c = 0))

/-- KINDs 0 and 1 at a sampling boundary (R477). -/
def State.capBoundary (s : State) : State :=
  let at_ := (s.cycleNo, 0)
  let first := fun c => s.rdFld (Reg.capChSrc c) 15 0
  let s1 := forAll (s.capDue 0) (fun c st =>
    st.capSample c ((List.range (st.capN c)).map (fun k => Tab.get 0 st.sigPrev (first c + k))) at_) s
  forAll (s.capDue 1) (fun c st =>
    let o := st.rdFld (Reg.capChSrc c) 31 16
    st.capSample c ((List.range (st.capN c)).map (fun k => Tab.get 0 (st.axis (first c + k)).pub o)) at_) s1

/-- KIND 2 after LAU_POST (R477). -/
def State.capLine (s : State) : State :=
  forAll (s.capDue 2) (fun c st =>
    let f := st.rdFld (Reg.capChSrc c) 15 0
    st.capSample c ((List.range (st.capN c)).map (fun k =>
      if k % 2 = 0 then st.rd (Reg.lauLaAngleLo (f + k / 2)) else st.rd (Reg.lauLaAngleHi (f + k / 2)))) (st.cycleNo, 0)) s

/-- LAU_POST: LAU completes its work for the cycle (R227), and CAP samples line angles (R477). -/
def execLauPost (s : State) : Host.Outcome State Fault Refusal :=
  if s.cyc.running = false ∨ s.lau.posted then .next s else .next s.lauPost.capLine

/-- KIND 3: the first valid copy of an axis's record has landed (R253, R477). The records of one half of a cycle make one sample. -/
def State.capLanded (s : State) (a half : Nat) (rec : List Byte) : State :=
  forAll (s.capDue 3) (fun c st =>
    let f := st.rdFld (Reg.capChSrc c) 15 0
    let o := st.rdFld (Reg.capChSrc c) 31 16
    if a < f ∨ f + st.capN c ≤ a then st
    else
      let x := st.capCh c
      let at_ := (st.cycleNo, st.co)
      let going := decide (x.keyCycle = some (st.cycleNo, half))
      let start := x.keyDue st.cycleNo && !going
      let s1 := if start then
          let st1 := st.capKey c st.cycleNo
          st1.setCapCh c { (st1.capCh c) with keyCycle := some (st.cycleNo, half) }
        else st
      let key := start || going
      let v := w32 (leAt rec o 4)
      let mask := st.rd (Reg.capChMask c)
      let wr := key || decide ((v &&& mask) ≠ (x.last.getD (a - f) 0 &&& mask))
      let s2 := if wr then s1.capRecord c (a - f) v key at_ else s1
      s2.capAfter c x.fresh (wr && !key) at_) s

/-- The cycle and CO-stamp of a time. -/
def State.instantOf (s : State) (t : Nat) : Nat × Nat :=
  let per := max s.per 1
  let c0 := s.cyc.c0
  if c0 ≤ t then (s.cycleNo + (t - c0) / per, (t - c0) % per / 1024)
  else
    let k := (c0 - t + per - 1) / per
    (s.cycleNo - k, (t + k * per - c0) / 1024)

/-- KIND 4: an accepted transition of an input of the mask (R477, R478). -/
def State.capInput (s : State) (k t : Nat) : State :=
  forAll ((s.capOn 4).filter (fun c => bit (s.rd (Reg.capChSrc c)) (16 + k))) (fun c st =>
    let x := st.capCh c
    if st.capN c ≤ x.inCycle then st.setCapCh c { x with lostCnt := x.lostCnt + 1, lostNow := true }
    else
      let at_ := st.instantOf t
      let key := x.keyDue at_.1
      let s1 := if key then st.capKey c at_.1 else st
      let s2 := s1.setCapCh c { (s1.capCh c) with inCycle := x.inCycle + 1 }
      let s3 := s2.capRecord c 0 (w32 (st.rdFld Reg.dioInLevel 15 0)) key at_
      s3.capAfter c x.fresh (!key) at_) s

/-- The end of a cycle for KIND 4: losses are logged and the count of the cycle starts again. -/
def State.capCycleEnd (s : State) : State :=
  forAll ((List.range 32).filter (fun c => s.capDeclared c && decide (s.capKind c = 4))) (fun c st =>
    let x := st.capCh c
    let s1 := st.setCapCh c { x with inCycle := 0, lostCnt := 0 }
    if x.lostCnt = 0 then s1 else (s1.countBy Reg.capLostCnt x.lostCnt).event 0x1503 [.h c, .w x.lostCnt]) s

/-- TRIG 4 at boundary C_TCYCLE. -/
def State.capCycleTrig (s : State) : State :=
  s.capTriggers ((s.cap.chans.filter (fun p => decide (p.2.trig = 4 ∧ p.2.tcycle = s.cycleNo ∧ (p.2.st = .pre ∨ p.2.st = .held)))).map
    (·.1)) (s.cycleNo, 0)

/-! ### CAPTURE_ARM (R481, R482) -/

/-- The argument checks of R481, second row. -/
def armBad (it : Item) (c now : Nat) : Bool :=
  let b := it.u 20 1
  let mode := b % 4
  let trig := b / 16 % 8
  let tsel := it.u 21 1
  let code := it.u 22 2
  let reserved := decide (b / 4 % 4 ≠ 0 ∨ 128 ≤ b ∨ 5 < trig ∨ it.u 44 8 ≠ 0 ∨ it.u 52 8 ≠ 0 ∨ it.u 60 4 ≠ 0 ∨ 2 ^ 20 < it.u 32 4)
  let selBad := match trig with
    | 2 => decide (31 < tsel ∨ tsel = c)
    | 5 => decide (31 < tsel ∨ tsel = c)
    | 3 => decide (tsel / 16 % 8 ≠ 0)
    | _ => false
  reserved || (decide (trig = 1) && decide (code / 256 = 0 ∨ code % 256 = 0)) || selBad ||
    decide (it.u 36 4 = 0 ∨ 2 ^ 20 < it.u 36 4) || (decide (mode = 3) && decide (it.u 40 4 = 0 ∨ 2 ^ 30 < it.u 40 4)) ||
    (decide (trig = 4) && decide (it.u 24 8 ≤ now))

/-- CAPTURE_ARM at service: an arming, or a DISARM. -/
def State.serveCaptureArm (s : State) (t : Taken) : State :=
  let it := t.item
  let c := hIdx it.handle
  let x := s.capCh c
  let b := it.u 20 1
  if b % 4 = 0 then
    if b / 4 % 4 ≠ 0 ∨ 128 ≤ b ∨ 5 < b / 16 % 8 ∨ it.u 44 8 ≠ 0 ∨ it.u 52 8 ≠ 0 ∨ it.u 60 4 ≠ 0 then s.complete t Stat.badParam
    else
      -- a trigger of this very boundary comes after the DISARM and is ignored (R495)
      let here := s.atBoundary && decide (x.trigCycle = s.cycleNo ∧ x.trigStamp = 0)
      let s1 := if x.st = .post ∧ here = false then s.capEnd c true else s
      (s1.setCapCh c { (s1.capCh c) with st := .idle, rearm := false }).complete t Stat.ok
  else if armBad it c s.cycleNo then s.complete t Stat.badParam
  else if x.st = .post ∨ x.st = .held then s.complete t Stat.busy
  else
    let y : CapChan := { x with
      mode := b % 4, trig := b / 16 % 8, tsel := it.u 21 1, tcode := it.u 22 2, tcycle := it.u 24 8, pre := it.u 32 4
      post := it.u 36 4, autoT := it.u 40 4, total := 0 }
    let s1 := s.setCapCh c y
    (match y.freeHalf with
     | some h => s1.capBegin c h
     | none => s1.setCapCh c { y with st := .held, rearm := true, armCycle := s.cycleNo }).complete t Stat.ok

/-- CAPTURE_DONE: POST cycles have passed since the trigger cycle (R482). -/
def execCaptureDone (c : Nat) (s : State) : Host.Outcome State Fault Refusal :=
  let x := s.capCh c
  if x.st = .post ∧ x.trigCycle + x.post ≤ s.cycleNo then .next (s.capEnd c false) else .next s

/-- CAPTURE_FORCED: AUTO_T cycles have passed since arming without a trigger (R482). -/
def execCaptureForced (c : Nat) (s : State) : Host.Outcome State Fault Refusal :=
  let x := s.capCh c
  if x.st = .pre ∧ x.mode = 3 ∧ x.armCycle + x.autoT ≤ s.cycleNo then
    let at_ := (s.cycleNo, 0)
    let r := (s.count Reg.capForcedCnt).capTrig1 c false true at_
    .next ((State.raiseAll 48 r.2 r.1).capTriggers (r.1.capGroup c) at_)
  else .next s

/-- A channel's handle is retired by an epoch: its capture ends with CUT (R495). A capture that no trigger has reached has no trigger cycle
or instant: free values stand there. -/
def State.capRetire (s : State) (c : Nat) : State :=
  let x := s.capCh c
  let s1 := match x.st with
    | .post => s.capEnd c true
    | .pre =>
      let f := s.frees 2
      let k := x.keys.getD 1 (x.keys.headD (x.total, s.cycleNo))
      (f.2.setCapCh c { x with
        start := k.1, startCyc := k.2, trigCycle := (f.1.getD 0 0).toNat, trigStamp := loW (f.1.getD 1 0) }).capEnd c true
    | _ => s
  (s1.setCapCh c { (s1.capCh c) with st := .idle, rearm := false }).retire 3 c

/-! ### Accepted transitions of fast inputs (R94, R95) -/

/-- LAU reads the probes of its open windows (R244). -/
def State.lauProbes (s : State) : State := forAll ((s.lau.units.filter (fun p => p.2.opened)).map (·.1)) (fun u st => st.lauProbe u) s

/-- The end of a clock: edges that wait at a probe are latched or lost (R85, R86). -/
def State.probesSettle (s : State) : State :=
  let waits := fun (x : Probe) => x.pend.isSome || x.late.isSome
  if s.eiu.any (fun p => p.2.probes.any waits) then
    (forAll (List.range 8) (fun k st => (st.probeSettle k 0).probeSettle k 1) s).lauProbes
  else s

/-- FAST_INPUT_TRANSITION: a transition of an input has passed its filter. Its level and rate are judged, and an edge that
is not withheld or masked reaches the probes, line angles and captures that consume it. `pin` is the level at the pin; INV inverts it. A
change that comes sooner than FILT after the last accepted one cannot have been stable, and is removed (R95). -/
def execFastInputTransition (k : Nat) (pin : Bool) (s : State) : Host.Outcome State Fault Refusal :=
  let lvl := pin != s.rdBit (Reg.dioInCfg k) 31
  if 16 ≤ k ∨ (s.fin k).filt = lvl ∨ s.now < (s.fin k).acc + s.finFilt k then .next s
  else
    let t := s.now - s.finFilt k
    let r := (s.finInject k).finAccept k lvl
    let s1 := r.1.capInput k t
    if r.2 = false then .next s1
    else
      let probes := (List.range 8).flatMap (fun e => [(e, 0), (e, 1)])
      let s2 := forAll (probes.filter (fun p => decide (s1.encMode p.1 ≠ 0 ∧ s1.probeSrc p.1 p.2 = k))) (fun p st =>
        st.probeEdge p.1 p.2 lvl t) s1
      let s3 := s2.lauProbes
      let s4 := s3.periodicEdges (some k) lvl t
      .next (s4.capTriggers ((s4.cap.chans.filter (fun p => decide (p.2.trig = 3 ∧ p.2.tsel % 16 = k ∧ (p.2.st = .pre ∨ p.2.st = .held))
        && (decide (p.2.tsel < 128) == lvl))).map (·.1)) (s4.instantOf t))

end Sys2Proof.Machine
end

