-- ==== Sys2Proof/Machine/Recorder.lean ====
section
/-! DEFINITION. Machine/Recorder.lean: the event recorder ELG (R486 to R497): the drain of its queue, limiters, LOG_FULL,
RESTART and the window. -/

namespace Sys2Proof.Machine

/-- LOG_RECS. -/
def State.logRecs (s : State) : Nat := s.rdFld Reg.elgCfg 10 0 * 1024
/-- DRAM address of a record. -/
def State.logAddr (s : State) (i : Nat) : Nat := (s.rd64 Reg.elgBaseLo Reg.elgBaseHi).toNat + 32 * i

/-- Source LOG_FILL follows ELG_WR_IDX and FILL_THRESH (R497). -/
def State.logFill (s : State) : State :=
  let th := (s.rd Reg.elgFillThresh).toNat
  s.level 0x163 (decide (th ≠ 0 ∧ th ≤ (s.rd Reg.elgWrIdx).toNat))

/-- The bytes of a record (R487). -/
def recBytes (e : Ev) (suppr : Nat) (qlost : Bool) (seq : Nat) : List Byte :=
  let b := leBytes 2 e.code ++ leBytes 1 (recFlags suppr e.early qlost) ++ leBytes 1 (min suppr 255) ++ leBytes 4 seq
    ++ leBytes 4 e.cycle ++ leBytes 4 e.stamp.toNat ++ e.args.flatMap (fun w => leBytes 4 w.toNat)
  b ++ leBytes 4 (crc32c b).toNat

/-- Writes a record at ELG_WR_IDX. Detector 0x21 makes RCHK wrong (R515); the record of its own hit does not qualify. -/
def State.logRecord (s : State) (e : Ev) (suppr : Nat) : State :=
  let b := recBytes e suppr s.elg.qlost (s.rd Reg.elgSeq).toNat
  let own := decide (e.code = 0x170C ∧ (e.args.headD 0).toNat % 65536 = 0x21)
  let i := (s.rd Reg.elgWrIdx).toNat
  let s1 := (((s.dramWrite (s.logAddr i) b).wr Reg.elgWrIdx (w32 (i + 1))).wr Reg.elgSeq (s.rd Reg.elgSeq + 1)).logFill
  let s2 : State := { s1 with elg := { s1.elg with
    qlost := false, lastHi := some (e.cycle / 2 ^ 32), wrote := (s.clk :: s.elg.wrote).take 4 } }
  if own then s2
  else
    let r := s2.inject 0x21 0
    if r.1 then r.2.dramWrite (s.logAddr i + 28) ((b.drop 28).map (fun x => ~~~x)) else r.2

/-- A code of ELG's own: its source and the captures that wait for it. -/
def State.logOwn (s : State) (code : Nat) : State :=
  let s1 := match sourceOf code with
    | some n => s.tick n
    | none => s
  s1.capTriggers (s1.capOnCode code) (s.cycleNo, s.co)

/-- Writes a record; the one at index LOG_RECS - 2 is followed by LOG_FULL, and recording stops (R490). -/
def State.logPut (s : State) (e : Ev) (suppr : Nat) : State :=
  let i := (s.rd Reg.elgWrIdx).toNat
  let s1 := s.logRecord e suppr
  if i + 2 = s.logRecs then
    let f : Ev := { code := 0x1602, args := packArgs [.w (s.logRecs - 1)], cycle := e.cycle, stamp := w32 s.co }
    let s2 := s1.logRecord f 0
    let s3 : State := { s2 with elg := { s2.elg with full := true } }
    s3.logOwn 0x1602
  else s1

/-- A CYCLE_HI record, where the cycle's upper half differs from that of the last record (R489). -/
def State.logHi (s : State) (cycle : Nat) : State :=
  if s.elg.lastHi = some (cycle / 2 ^ 32) then s
  else (s.logPut { code := 0x1601, args := packArgs [.w (cycle / 2 ^ 32)], cycle := cycle, stamp := w32 s.co } 0).logOwn 0x1601

/-- Puts a limiter, shown in its registers. -/
def State.setLim (s : State) (l : Nat) (x : Lim) : State :=
  let s1 : State := { s with elg := { s.elg with lims := s.elg.lims.set l x } }
  ((s1.wr (Reg.elgLimCfg l) x.cfgWord).wr (Reg.elgLimStat l) x.statWord).wr (Reg.elgLimSupprCnt l) (w32 (min x.count 0xFFFFFFFF))

/-- An event meets the limiter of its code (R491): whether it is recorded, and its SUPPR byte. -/
def State.logLimit (s : State) (code : Nat) : Bool × Nat × State :=
  match s.elg.lims.findIdx? (fun l => decide (l.code = code)) with
  | none => (true, 0, s)
  | some i =>
    let l := s.elg.lims.getD i { code := 0, burst := 0, period := 1, tokens := 0 }
    if 0 < l.tokens then (true, l.suppr, s.setLim i { l with tokens := l.tokens - 1 })
    else
      let s1 := (s.setLim i { l with suppr := min 255 (l.suppr + 1), count := l.count + 1 }).count Reg.elgSupprCnt
      (false, 0, if l.suppr = 0 then s1.event 0x1604 [.h code, .h i] else s1)

/-- The code's record has been written: the SUPPR byte starts again. -/
def State.limRecorded (s : State) (code : Nat) : State :=
  match s.elg.lims.findIdx? (fun l => decide (l.code = code)) with
  | none => s
  | some i => s.setLim i { (s.elg.lims.getD i { code := 0, burst := 0, period := 1, tokens := 0 }) with suppr := 0 }

/-- The records that one event of a cycle would bring: its own, a CYCLE_HI before it and a LOG_FULL after it. -/
def State.recordsFor (s : State) (cycle : Nat) : Nat :=
  let n := 1 + b2n (decide (s.elg.lastHi ≠ some (cycle / 2 ^ 32)))
  let i := (s.rd Reg.elgWrIdx).toNat
  n + b2n (decide (i + 2 ≤ s.logRecs ∧ s.logRecs < i + n + 2))

/-- ELG may write `n` more records now: at most four in a microsecond, that is in 800 SYS clocks (R486). -/
def State.drainOpen (s : State) (n : Nat) : Bool :=
  decide (n + (s.elg.wrote.filter (fun k => decide (s.clk < k + 800))).length ≤ 4)

/-- EVENT_RECORD_WRITE: ELG takes the oldest event of its queue (R486): it is suppressed, dropped or recorded. It waits while the drain has
written its four records of the microsecond. -/
def execEventRecordWrite (s : State) : Host.Outcome State Fault Refusal :=
  match s.elg.queue with
  | [] => .next s
  | e :: rest =>
    if s.elg.running = false ∨ (s.elg.full = false ∧ s.drainOpen (s.recordsFor e.cycle) = false) then .next s
    else
      let s0 : State := { s with elg := { s.elg with queue := rest } }
      let r := s0.logLimit e.code
      if r.1 = false then .next r.2.2
      else if r.2.2.elg.full then .next (r.2.2.count Reg.elgDropCnt)
      else
        let s1 := r.2.2.logHi e.cycle
        if s1.elg.full then .next (s1.count Reg.elgDropCnt) else .next ((s1.logPut e r.2.1).limRecorded e.code)

/-- LIMITER_TOKEN: PERIOD base cycles have passed since the limiter's last token (R491). -/
def execLimiterToken (l : Nat) (s : State) : Host.Outcome State Fault Refusal :=
  match s.elg.lims[l]? with
  | none => .next s
  | some x =>
    if x.age < x.period then .next s
    else .next (s.setLim l { x with tokens := min x.burst (x.tokens + 1), age := x.age - x.period })

/-- ELG_CTRL is written: RESTART (R492). -/
def State.elgCtrl (s : State) (v : Word) : State :=
  if bit v 0 then
    let s1 : State := { s with elg := { s.elg with restart := true } }
    s1.wrBit Reg.elgCtrl 0 true
  else s

/-- RESTART: ELG_CTRL.RESTART is written. -/
def execElgRestart (s : State) : Host.Outcome State Fault Refusal := if s.hostOpen then .next (s.elgCtrl 1) else .next s

/-- ELG at a cycle boundary: a new log starts where RESTART asks for it (R492), and the limiters age. -/
def State.elgBoundary (s : State) : State :=
  let s0 : State := { s with elg := { s.elg with lims := s.elg.lims.map (fun (l : Lim) => { l with age := l.age + 1 }) } }
  if s.elg.restart = false ∨ s.elg.running = false then s0
  else
    let seq := s.rd Reg.elgSeq - 1
    let drop := s.rd Reg.elgDropCnt
    let s1 : State := { s0 with elg := { s0.elg with restart := false, full := false, lastHi := none } }
    let s2 := ((s1.wrBit Reg.elgCtrl 0 false).wr Reg.elgWrIdx 0).logFill
    let s3 := s2.logHi s.cycleNo
    (s3.logPut { code := 0x1603, args := packArgs [.w seq.toNat, .w drop.toNat], cycle := s.cycleNo, stamp := 0 } 0).logOwn 0x1603

/-- ELG starts, at the end of VERIFY: the held events stand first in its queue (R493). -/
def State.elgStart (s : State) : State :=
  if s.elg.running then s
  else { s with elg := { s.elg with running := true, queue := s.elg.early ++ s.elg.queue, early := [] } }

/-- ELG_CURSOR is written; a write above LOG_RECS - 1 is ignored (R498). -/
def State.elgCursorWrite (s : State) (v : Word) : State := if s.logRecs ≤ v.toNat then s else s.wr Reg.elgCursor v

/-- CURSOR_WRITE: ELG_CURSOR is written. -/
def execCursorWrite (v : Word) (s : State) : Host.Outcome State Fault Refusal :=
  if s.hostOpen then .next (s.elgCursorWrite v) else .next s

/-- Word `w` of a record of the log; 0 where none has been written (R494). -/
def State.logWord (s : State) (i w : Nat) : Word :=
  if i < (s.rd Reg.elgWrIdx).toNat then w32 (leNat (s.dramRead (s.logAddr i + 4 * w) 4)) else 0

/-- A read of ELG_WIN7 advances the cursor while it is below ELG_WR_IDX (R494). -/
def State.elgWinRead (s : State) : State :=
  let c := s.rd Reg.elgCursor
  if c.toNat < (s.rd Reg.elgWrIdx).toNat then s.wr Reg.elgCursor (c + 1) else s

/-- WINDOW_READ: ELG_WIN7 is read. -/
def execWindowRead (s : State) : Host.Outcome State Fault Refusal :=
  if s.hostOpen then .next ((s.send (.bar0 (Reg.elgWin 7) (s.logWord (s.rd Reg.elgCursor).toNat 7))).elgWinRead) else .next s

end Sys2Proof.Machine
end

