-- ==== Sys2Proof/Machine/Work.lean ====
section
/-! DEFINITION. Machine/Work.lean: the work scheduler WKS (R457 to R470): ring indices, takes, preparation on supervisor cores,
staging and completions. -/

namespace Sys2Proof.Machine

/-! ### Ring indices (R458) -/

/-- RING_ERR with a cause. -/
def State.ringErr (s : State) (r cause : Nat) : State :=
  let s1 := s.wrFld (Reg.wksRingStat r) 30 29 cause
  (if cause = 1 then s1.count Reg.wksRingErrCnt else s1).event 0x1401 [.h r, .h cause]

/-- PROD of a COMMAND ring as a take in this clock reads it: the old one where PROD was written in the same clock (R473). -/
def State.takeProd (s : State) (r : Nat) : Word :=
  match s.wks.prodAt.find? (fun p => decide (p.1 = r ∧ p.2.1 = s.clk)) with
  | some p => p.2.2
  | none => s.rd (Reg.wksRingProd r)

/-- The host writes a PROD register. -/
def State.prodWrite (s : State) (r : Nat) (v : Word) : State :=
  if s.ringRole r ≠ 1 then s
  else if (v - s.rd (Reg.wksRingCons r)).toNat ≤ s.ringSize r then
    let s1 : State := { s with wks := { s.wks with
      prodAt := (r, s.clk, s.takeProd r) :: s.wks.prodAt.filter (fun p => decide (p.1 ≠ r ∧ p.2.1 = s.clk)) } }
    (s1.wr (Reg.wksRingProd r) v).ringRefresh r
  else s.ringErr r 1

/-- The host writes a CONS register. -/
def State.consWrite (s : State) (r : Nat) (v : Word) : State :=
  if s.ringRole r < 2 then s
  else
    let p := s.rd (Reg.wksRingProd r)
    if (p - v).toNat ≤ (p - s.rd (Reg.wksRingCons r)).toNat then
      let s1 := (s.wr (Reg.wksRingCons r) v).ringRefresh r
      if s.ringRole r = 3 then s1.capRelease r else s1
    else s.ringErr r 1

/-- PROD_WRITE: the host writes the producer index of a ring. -/
def execProdWrite (r : Nat) (v : Word) (s : State) : Host.Outcome State Fault Refusal :=
  if s.hostOpen ∧ r < 16 then .next (s.prodWrite r v) else .next s

/-- CONS_WRITE: the host writes the consumer index of a ring. -/
def execConsWrite (r : Nat) (v : Word) (s : State) : Host.Outcome State Fault Refusal :=
  if s.hostOpen ∧ r < 16 then .next (s.consWrite r v) else .next s

/-! ### Stalls (R467) -/

/-- Completion entries on chip for a ring. -/
def State.waitCount (s : State) (r : Nat) : Nat := (s.wks.waiting.filter (fun e => decide (e.ring = r))).length

/-- A completion ring's store is full while its ring is: COMP_STALL once a stall, shown at the COMMAND rings paired with
it. -/
def State.stallRefresh (s : State) : State :=
  forAll ((List.range 16).filter (fun r => decide (s.ringRole r = 2))) (fun r st =>
    let full := decide (256 ≤ st.waitCount r) && !st.ringRoom r 1
    let was := st.wks.stalled.contains r
    if full = was then st
    else
      let st1 : State := { st with wks := { st.wks with
        stalled := if full then r :: st.wks.stalled else st.wks.stalled.filter (fun q => decide (q ≠ r)) } }
      let st2 := forAll ((List.range 16).filter (fun q => decide (st1.ringRole q = 1 ∧ st1.ringPair q = r))) (fun q st' =>
        st'.wrBit (Reg.wksRingStat q) 31 full) st1
      if full then (st2.count Reg.wksStallCnt).event 0x1402 [.h r] else st2) s

/-! ### Take (R460, R470) -/

/-- Cores that take items. -/
def State.coresReady (s : State) : List Nat := (s.coresIn .inService).filter (fun c => !(s.core c).loading)

/-- The item that a core prepares. -/
def State.preparing (s : State) (c : Nat) : Option Taken :=
  s.wks.taken.find? (fun t => match t.stage with
    | .preparing k _ => decide (k = c)
    | _ => false)

/-- A pre-empted item returns to the head of its list. -/
def State.toHead (s : State) (t : Taken) : State :=
  { s with wks := { s.wks with
    taken := { t with stage := .ready } :: s.wks.taken.filter (fun u => decide (u.seq ≠ t.seq)),
    pre := match t.stage with
      | .preparing c _ => some (c, t.seq, s.clk)
      | _ => s.wks.pre } }

/-- The item whose preparation on core `c` was pre-empted in this very clock: staging in it wins (R473). -/
def State.preempted (s : State) (c : Nat) : Option Taken :=
  match s.wks.pre with
  | some (k, q, n) => if k = c ∧ n = s.clk then s.takenOf q else none
  | none => none

/-- The pre-emption of this clock is undone: it counts as none. -/
def State.unpreempt (s : State) : State :=
  let n := s.rd Reg.wksPreemptCnt
  { (s.wr Reg.wksPreemptCnt (if n = 0 then 0 else n - 1)) with wks := { s.wks with pre := none } }

/-- An item of priority `p` has been taken: with no core free, the core that prepares the item of the lowest priority below
`p`, and among those the one taken last, is pre-empted. -/
def State.preempt (s : State) (p : Nat) : State :=
  let busy := s.coresReady.filterMap s.preparing
  if busy.length < s.coresReady.length then s
  else
    let worst := busy.foldl (fun (b : Option Taken) t => match b with
      | none => some t
      | some u => if t.item.prio < u.item.prio ∨ (t.item.prio = u.item.prio ∧ u.seq < t.seq) then some t else some u) none
    match worst with
    | some t => if t.item.prio < p then (s.toHead t).count Reg.wksPreemptCnt else s
    | none => s

/-- An item is copied on chip. -/
def State.takeItem (s : State) (it : Item) : State :=
  let t : Taken := { seq := s.wks.nextSeq, item := it, takeCycle := s.cyc.n, stage := .ready }
  let s1 : State := { s with wks := { s.wks with taken := s.wks.taken ++ [t], nextSeq := s.wks.nextSeq + 1 } }
  s1.preempt it.prio

/-- An item that no core can prepare completes at once, with CYCLE 0; a BAD_HANDLE is that of its own handle (R464). -/
def State.refuseItem (s : State) (t : Taken) (status : Nat) : State :=
  if status = Stat.badHandle then s.completeHandle t t.item.handle status 0 else s.completeX t status t.item.handle 0 []

/-- One entry of a COMMAND ring is taken; an entry that DRAM cannot give completes with INTERNAL (R506). -/
def State.takeEntry (s : State) (r : Nat) : State :=
  let c := s.rd (Reg.wksRingCons r)
  let a := s.ringAddr r c.toNat
  let q := s.touchDram a 64
  let it := itemOf r c.toNat (q.2.dramRead a 64)
  let s1 := (q.2.wr (Reg.wksRingCons r) (c + 1)).ringRefresh r
  if q.1 then
    let seq := s1.wks.nextSeq
    let t : Taken := { seq := seq, item := it, takeCycle := s1.cyc.n, stage := .ready }
    let s2 : State := { s1 with wks := { s1.wks with taken := s1.wks.taken ++ [t], nextSeq := seq + 1 } }
    s2.refuseItem t Stat.internal
  else s1.takeItem it

/-- The COMMAND rings from which WKS takes: those kicked, or all at a boundary, in the roles that take (R473). -/
def State.takeRings (s : State) : List Nat :=
  match s.glb.role with
  | .lit => go
  | .alone => go
  | _ => []
where
  /-- The rings, whatever the role. -/
  go : List Nat := (List.range 16).filter (fun r => decide (s.ringRole r = 1) &&
    (s.wks.takeAll || s.rdBit Reg.mbxDbIn (8 + r)) && !s.wks.stalled.contains (s.ringPair r))

/-- Takes entries ring by ring in turn. -/
def State.takeLoop : Nat → List Nat → State → State
  | 0, _, s => s
  | f + 1, rs, s =>
    let live := rs.filter (fun r => decide (s.takeProd r ≠ s.rd (Reg.wksRingCons r)))
    if live = [] then s
    else
      let s1 := forAll live (fun r st => if st.wks.taken.length < 1024 then st.takeEntry r else st) s
      if s1.wks.taken.length < 1024 then State.takeLoop f rs s1 else s1

/-- ITEM_TAKE: WKS reads the producer indices, which clears KICK, and takes entries while it holds fewer than 1,024
items. -/
def execItemTake (s : State) : Host.Outcome State Fault Refusal :=
  let s0 := s.stallRefresh
  let rs := s0.takeRings
  let s1 := forAll rs (fun r st => st.wrBit Reg.mbxDbIn (8 + r) false) s0
  let s2 := State.takeLoop 1024 rs s1
  let s3 : State := { s2 with wks := { s2.wks with takeAll := false } }
  .next s3

/-! ### Preparation and staging (R464, R465, R469) -/

/-- The flow of a ready item is free: no earlier item of it waits for or is in preparation. -/
def State.flowFree (s : State) (t : Taken) : Bool :=
  match t.item.flow with
  | none => true
  | some f => s.wks.taken.all (fun u => decide (u.item.flow ≠ some f ∨ u.seq = t.seq) ||
      (match u.stage with
       | .preparing _ _ => false
       | .ready => decide (t.seq < u.seq)
       | _ => true))

/-- The item that a free core takes next: the first of the highest list whose flow is free. -/
def State.nextReady (s : State) : Option Taken :=
  let ok := s.wks.taken.filter (fun t => decide (t.stage = .ready) && s.flowFree t)
  ok.foldl (fun (b : Option Taken) t => match b with
    | none => some t
    | some u => if u.item.prio < t.item.prio then some t else some u) none

/-- ITEM_PREPARE: a free in-service core takes a ready item. -/
def execItemPrepare (c : Nat) (s : State) : Host.Outcome State Fault Refusal :=
  if s.coresReady.contains c = false ∨ (s.preparing c).isSome ∨ (s.preempted c).isSome then .next s
  else
    let s1 := s.touch 2 c
    if s1.coresReady.contains c = false then .next s1
    else match s1.nextReady with
      | some t => .next (s1.setStage t.seq (.preparing c s1.clk))
      | none => .next s1

/-- The first cycle boundary at least 0.5 us from now. -/
def State.firstBoundary (s : State) : Nat :=
  if s.now + 500 * nsU ≤ s.cyc.c0 + s.per then s.cyc.n + 1 else s.cyc.n + 2

/-- Items in the delay list. -/
def State.delayed (s : State) : List Taken :=
  s.wks.taken.filter (fun t => match t.stage with
    | .delayed _ => true
    | _ => false)

/-- A prepared item is staged, delayed, held by LAU, or refused. -/
def State.stageItem (s : State) (t : Taken) : State :=
  let it := t.item
  let first := s.firstBoundary
  match it.dueKind with
  | 1 =>
    if t.takeCycle + 2 ^ 31 < it.due then s.refuseItem t Stat.badParam
    else if 4096 ≤ s.delayed.length then
      (s.event 0x1403 [.h it.opcode, .w it.handle.toNat]).refuseItem t Stat.queueFull
    else s.updTaken t.seq (fun u => { u with stage := .delayed (max it.due first), dueLate := decide (it.due < first) })
  | 2 =>
    match s.handleCheck [2] it.dueLa with
    | some c => s.completeHandle t it.dueLa c 0
    | none => if 64 ≤ s.heldItems.length then s.refuseItem t Stat.queueFull else s.setStage t.seq .heldLau
  | _ => s.setStage t.seq (.staged first)

/-- Preparation of an item ends: it is refused, or staged (R464). -/
def State.prepared (s : State) (t : Taken) : State :=
  match t.item.prepare with
  | some status => s.refuseItem t status
  | none =>
    if t.item.opcode = Opc.axisCreate ∧ s.desc? (hIdx t.item.handle) = none then s.refuseItem t Stat.badParam
    else s.stageItem t

/-- ITEM_STAGE: preparation on a core ends (R464); in the clock of its pre-emption the item counts as not pre-empted (R473). -/
def execItemStage (c : Nat) (s : State) : Host.Outcome State Fault Refusal :=
  match s.preempted c with
  | some t => .next (s.unpreempt.prepared t)
  | none =>
    match s.preparing c with
    | some t => .next (s.prepared t)
    | none => .next s

/-! ### Completions (R467) -/

/-- An entry may be written: its ring has room, and no earlier item of its flow has an entry waiting or is on its way to
one. -/
def State.entryReady (s : State) (e : WaitEntry) : Bool :=
  (decide (0x80 ≤ e.ring) || s.ringRoom e.ring 1) &&
    (match e.flow with
     | none => true
     | some f =>
       s.wks.waiting.all (fun w => decide (w.flow ≠ some f ∨ e.seq ≤ w.seq)) &&
         s.wks.taken.all (fun t => decide (t.item.flow ≠ some f ∨ e.seq ≤ t.seq) ||
           (match t.stage with
            | .serving => true
            | .delayed _ => true
            | .heldLau => true
            | _ => false)))

/-- COMPLETION_WRITE: the first completion on chip that can be is written to its ring, or acknowledged at its mailbox. -/
def execCompletionWrite (s : State) : Host.Outcome State Fault Refusal :=
  match s.wks.waiting.find? s.entryReady with
  | none => .next s.stallRefresh
  | some e =>
    let s1 : State := { s with wks := { s.wks with waiting := s.wks.waiting.erase e } }
    if 0x80 ≤ e.ring then .next (s1.mbAck (e.ring - 0x80) e.status (mbReply 0x02 e.bytes))
    else .next (s1.ringPut e.ring e.bytes).stallRefresh

/-! ### SIGNAL_WRITE and LOG_MARK (R468) -/

/-- The status of one pair of SIGNAL_WRITE: controller ID in bits 19-14 of the address, index in bits 13-0 (R323). -/
def State.signalBad (s : State) (addr : Nat) : Option Nat :=
  let i := addr % 16384
  if addr / 16384 ≠ s.glb.id then some Stat.badParam
  else if s.ctrl.writers.any (fun p => decide (p.1 = i)) = false then some Stat.badParam
  else match Tab.get SigWriter.nothing s.ctrl.writers i with
    | .signalWrite => none
    | _ => some Stat.notPermitted

/-- SIGNAL_WRITE at service: all pairs, or none. -/
def State.serveSignalWrite (s : State) (t : Taken) : State :=
  let it := t.item
  let pairs := (List.range (it.u 20 1)).map (fun k => (it.u (24 + 8 * k) 4, w32 (it.u (28 + 8 * k) 4)))
  match pairs.findSome? (fun p => s.signalBad p.1) with
  | some c => s.complete t c
  | none =>
    let put := pairs.foldl (fun m p => Tab.set 0 m (p.1 % 16384) p.2) s.sigs
    let prev := pairs.foldl (fun m p => Tab.set 0 m (p.1 % 16384) p.2) s.sigPrev
    let s1 : State := { s with sigs := put, sigPrev := prev }
    s1.complete t Stat.ok

/-- LOG_MARK at service. -/
def State.serveLogMark (s : State) (t : Taken) : State :=
  (s.event 0x1404 [.w (t.item.u 20 4), .h t.item.origin]).complete t Stat.ok

end Sys2Proof.Machine
end

