-- ==== Sys2Proof/Machine/Health.lean ====
section
/-! DEFINITION. Machine/Health.lean: the health manager HLM (R499 to R515, R537): spare units and their tests, scrubbing, wear,
temperature and the arming of error injection. -/

namespace Sys2Proof.Machine

/-! ### Spare units (R499 to R504, R507, R508) -/

/-- State of a unit of a kind (1 engine, 2 core). -/
def State.unitSt (s : State) (kind i : Nat) : UnitState := if kind = 1 then (s.eng i).st else (s.core i).st

/-- Puts the state of a unit. -/
def State.setUnitSt (s : State) (kind i : Nat) (st : UnitState) : State :=
  if kind = 1 then s.setEng i { s.eng i with st := st }
  else s.setCore i { s.core i with st := st, loading := false, since := s.cyc.n }

/-- Units of a kind that must be in service: 16 engines, 4 cores (R499). -/
def spareNeed (kind : Nat) : Nat := if kind = 1 then 16 else 4

/-- A test or bring-in of the kind is in progress (R507, R508). -/
def State.spareBusy (s : State) (kind : Nat) : Bool :=
  decide (s.unitsIn kind .test ≠ []) || s.hlm.bringIns.any (fun b => decide (b.kind = kind))

/-- SPARE_TEST at service: the checks of R507 in order. -/
def State.spareTest (s : State) (t : Taken) : State :=
  let act := t.item.u 20 1
  let kind := t.item.u 21 1
  let i := t.item.u 22 1
  let need : UnitState := match act with
    | 1 => .spare
    | 2 => .inService
    | _ => .out
  if act = 0 ∨ 3 < act ∨ kind = 0 ∨ 2 < kind ∨ (if kind = 1 then 18 else 5) ≤ i ∨
      (t.item.args.drop 3).any (fun b => decide (b ≠ 0)) = true then s.complete t Stat.badParam
  else if s.unitSt kind i ≠ need then s.complete t Stat.wrongState
  else if s.spareBusy kind then s.complete t Stat.busy
  else if act = 2 ∧ s.unitsIn kind .spare = [] then s.complete t Stat.noResource
  else
    let s1 := s.complete t Stat.deferred
    if act = 2 then s1.requestSpare kind i true
    else
      let s2 := s1.setUnitSt kind i .test
      if act = 1 then s2.spareLevels kind else s2

/-- SPARE_TEST_DONE: the test of a unit ends (R500, R502, R504): a pass makes it a ready spare, a fail puts it OUT. Where
fewer units than the kind needs are in service and none is on its way, the new spare is brought in. -/
def execSpareTestDone (kind unit : Nat) (pass : Bool) (s : State) : Host.Outcome State Fault Refusal :=
  if kind = 0 ∨ 2 < kind ∨ s.unitSt kind unit ≠ .test then .next s
  else
    let s1 := s.setUnitSt kind unit (if pass then .spare else .out)
    let s2 := s1.event 0x170B [.h kind, .h unit, .h (b2n !pass)]
    if pass = false then .next (s2.event 0x1702 [.h kind, .h unit, .h 4])
    else
      let s3 := s2.spareLevels kind
      if (s3.unitsIn kind .inService).length < spareNeed kind ∧ s3.hlm.bringIns.all (fun b => decide (b.kind ≠ kind)) then
        .next (s3.requestSpare kind unit false)
      else .next s3

/-- The bring-in of a kind that is due at a boundary: the first admitted one, a fault's before a rotation's (R516). -/
def State.bringDue (s : State) (kind : Nat) : Option BringIn :=
  let mine := s.hlm.bringIns.filter (fun b => decide (b.kind = kind))
  match mine.filter (fun b => !b.rotate) with
  | [] => mine.find? (·.admitted)
  | l => l.find? (·.admitted)

/-- Step 2 of a boundary for one kind (R33, R501): the lowest ready spare takes service from cycle `n`. -/
def State.bringIn (s : State) (kind n : Nat) : State :=
  match s.bringDue kind with
  | none => s
  | some b =>
    let s1 := s.updHlm (fun h => { h with bringIns := h.bringIns.erase b })
    if b.rotate = true ∧ s.unitSt kind b.replaces ≠ .inService then s1
    else match s.unitsIn kind .spare with
      | [] => s
      | u :: _ =>
        let s2 := if kind = 1 then s1.setEng u { s1.eng u with st := .inService, inFrom := n }
          else s1.setCore u { s1.core u with st := .inService, loading := true, since := n }
        let s3 := (s2.count Reg.hlmSpareInCnt).event 0x1701 [.h kind, .h u, .h b.replaces]
        let s4 := if b.rotate then ((if kind = 2 then s3.coreItemsBack b.replaces else s3).setUnitSt kind b.replaces .test).event 0x1702 [.h kind, .h b.replaces, .h 5] else s3
        s4.spareLevels kind

/-- A rotation of a kind may begin: no test or bring-in of the kind is in progress and a spare is ready (R508). -/
def State.rotateFree (s : State) (kind : Nat) : Bool := !s.spareBusy kind && decide (s.unitsIn kind .spare ≠ [])

/-- The unit in service that has served longest; of equals the lowest. -/
def State.longest (s : State) (kind : Nat) : Option Nat :=
  let from_ := fun (i : Nat) => if kind = 1 then (s.eng i).inFrom else (s.core i).since
  (s.unitsIn kind .inService).foldl (fun (b : Option Nat) i => match b with
    | none => some i
    | some j => if from_ i < from_ j then some i else some j) none

/-- Rotates the unit of a kind that has served longest. -/
def State.rotate (s : State) (kind : Nat) : State :=
  match s.longest kind with
  | some i => s.requestSpare kind i true
  | none => s

/-- SPARE_ROTATION: every ROTATE_H of fabric time an engine is rotated, and after every fourth the core (R508). A rotation
that finds its kind busy waits. -/
def execSpareRotation (s : State) : Host.Outcome State Fault Refusal :=
  let h := s.rdFld Reg.hlmCfg2 13 0
  let due := decide (h ≠ 0) && s.cyc.running && decide (s.hlm.lastRotate + h * 3600 * secTicks ≤ s.now)
  let s1 := if due && s.rotateFree 1 then
      (s.updHlm (fun x => { x with lastRotate := x.lastRotate + h * 3600 * secTicks, rotations := x.rotations + 1 })).rotate 1
    else s
  if 4 ≤ s1.hlm.rotations ∧ s1.rotateFree 2 then
    .next ((s1.updHlm (fun x => { x with rotations := x.rotations - 4 })).rotate 2)
  else .next s1

/-- CORE_WATCHDOG: a check-in of a core falls due; a core that misses its check-in for 100 us leaves service (R504). -/
def execCoreWatchdog (c : Nat) (missed : Bool) (s : State) : Host.Outcome State Fault Refusal :=
  if 5 ≤ c ∨ (s.core c).st ≠ .inService then .next s
  else
    let r := s.inject 0x09 c
    .next (if missed || r.1 then r.2.coreLeave c 2 else r.2)

/-- CORE_FIRMWARE_LOADED: a core brought in has loaded its firmware and takes items (R504). -/
def execCoreFirmwareLoaded (c : Nat) (s : State) : Host.Outcome State Fault Refusal :=
  let x := s.core c
  if 5 ≤ c ∨ x.st ≠ .inService ∨ x.loading = false then .next s else .next (s.setCore c { x with loading := false })

/-! ### Scrubbing (R505) -/

/-- SCRUB_PASS: HLM has read every on-chip store once and met these errors, in order: the unit code, row and address of
each, the engine or core whose memory it is, and whether it is uncorrectable. -/
def execScrubPass (errs : List (Nat × Nat × Nat × Nat × Bool)) (s : State) : Host.Outcome State Fault Refusal :=
  let s1 := forAll [0, 1, 2, 3, 4, 5, 6, 7, 9] (fun u st => st.touch u 0) s
  .next (forAll errs (fun e st =>
    if e.2.2.2.2 then st.sramUe e.1 e.2.1 e.2.2.1 e.2.2.2.1 else st.sramCe e.1 e.2.1 false) s1)

/-! ### Wear and temperature (R509, R510) -/

/-- WEAR_MEASUREMENT: every 2^20 base cycles each block's loss is measured, in 0.01 %; block b stands at place b - 1. -/
def execWearMeasurement (losses : List Nat) (s : State) : Host.Outcome State Fault Refusal :=
  if s.cyc.running = false ∨ s.cyc.n % 2 ^ 20 ≠ 0 then .next s
  else .next (forAll (losses.take 24).zipIdx (fun p st =>
    let b := p.2 + 1
    let v := p.1 % 65536
    let s1 := st.wr (Reg.hlmWear b) (w32 v)
    let s2 := if s1.rdFld Reg.hlmCfg 31 16 ≤ v ∧ s1.hlm.wearWarn.contains b = false then
        (s1.updHlm (fun h => { h with wearWarn := b :: h.wearWarn })).event 0x1708 [.h b, .h v]
      else s1
    if s2.rdFld Reg.hlmCfg2 31 16 ≤ v ∧ s2.hlm.wearAlarm.contains b = false then
      (s2.updHlm (fun h => { h with wearAlarm := b :: h.wearAlarm })).event 0x1709 [.h b, .h v]
    else s2) s)

/-- One sensor's reading, in 0.125 degrees; THERMAL_WARN may be logged again once it has fallen 5 degrees below THERM_WARN. -/
def State.thermal (s : State) (k : Nat) (t : Int) : State :=
  let warn := sgn 16 (s.rdFld Reg.hlmThermCfg 15 0)
  let r := s.inject 0x1C k
  let v := if r.1 then warn else satS 16 t
  let s1 := r.2
  let old := sgn 16 (s1.rdFld (Reg.hlmTherm k) 31 16)
  let mx := if s1.hlm.thermSeen then max old v else v
  let s2 := s1.wr (Reg.hlmTherm k) (w32 ((mx % 65536).toNat * 65536 + (v % 65536).toNat))
  if warn ≤ v then
    if s2.hlm.thermHot.contains k then s2
    else (s2.updHlm (fun h => { h with thermHot := k :: h.thermHot })).event 0x170A [.h k, .h (v % 65536).toNat]
  else if v ≤ warn - 40 then s2.updHlm (fun h => { h with thermHot := h.thermHot.filter (fun i => decide (i ≠ k)) })
  else s2

/-- THERMAL_READ: the eight sensors are read. -/
def execThermalRead (temps : List Int) (s : State) : Host.Outcome State Fault Refusal :=
  let s1 := forAll (temps.take 8).zipIdx (fun p st => st.thermal p.2 p.1) s
  .next (s1.updHlm (fun h => { h with thermSeen := true }))

/-! ### Error injection (R513 to R515) -/

/-- The units of a detector (R515). -/
def detUnits (det : Nat) : List Nat :=
  if det = 1 ∨ det = 2 then [0, 1, 2, 3, 4, 5, 6, 7, 9]
  else if 5 ≤ det ∧ det ≤ 8 then List.range 18
  else if det = 9 then List.range 5
  else if 0x0A ≤ det ∧ det ≤ 0x0D then List.range 8
  else if det = 0x0E ∨ det = 0x12 ∨ det = 0x1E then [0, 1]
  else if det = 0x10 then [0, 1, 2]
  else if (0x13 ≤ det ∧ det ≤ 0x17) ∨ det = 0x19 ∨ det = 0x1C then List.range 8
  else if det = 0x18 then List.range 16
  else if det = 0x1B then [1, 2, 3]
  else if det = 0x20 then List.range 4
  else if [3, 4, 0x0F, 0x11, 0x1A, 0x1D, 0x1F, 0x21].contains det then [0]
  else []

/-- RESULT of arming a slot (R514): the first condition that holds. -/
def State.armResult (s : State) (i : Nat) : Nat :=
  let w := s.rd (Reg.hlmInjCtrl i)
  let det := fld w 7 0
  let unit := fld w 23 16
  let mode := fld w 29 28
  if s.fuses.state = 3 ∨ s.fuses.state = 6 then 1
  else if detUnits det ≠ [] ∧ detAllowed s.glb.st det unit = false then 2
  else if (detUnits det).contains unit = false ∨ mode = 3 ∨ (mode = 2 ∧ s.rdFld (Reg.hlmInjN i) 15 0 < 2) then 3
  else 0

/-- A write of HLM_INJi_CTRL (R513, R514): setting ARM checks and arms the slot, clearing it disarms. -/
def State.injWrite (s : State) (i : Nat) (v : Word) : State :=
  let keep := s.rdFld (Reg.hlmInjCtrl i) 27 24
  let s0 := s.injDisarm i none
  let s1 := s0.wr (Reg.hlmInjCtrl i) (w32 (fld v 29 28 * 2 ^ 28 + keep * 2 ^ 24 + fld v 23 16 * 65536 + fld v 7 0))
  if bit v 31 = false then s1
  else
    let r := s1.armResult i
    let s2 := s1.wrFld (Reg.hlmInjCtrl i) 27 24 r
    if r ≠ 0 then s2
    else
      let s3 := (s2.wrBit (Reg.hlmInjCtrl i) 31 true).wrBit Reg.hlmStatus (24 + i) true
      s3.updHlm (fun h => { h with injs := Tab.set {} h.injs i { armed := true, ops := 0 } })

/-- INJECTION_ARM: the host writes HLM_INJi_CTRL. -/
def execInjectionArm (i : Nat) (v : Word) (s : State) : Host.Outcome State Fault Refusal :=
  if s.hostOpen ∧ i < 8 then .next (s.injWrite i v) else .next s

/-! ### The health report (R511, R512) -/

/-- The bytes of a health report as the block stands (R512). -/
def State.healthBytes (s : State) : List Byte :=
  let wear := (List.range 24).foldl (fun (b : Nat × Nat) k =>
    let v := s.rdFld (Reg.hlmWear (k + 1)) 15 0
    if b.2 < v ∨ b.1 = 0 then (k + 1, v) else b) (0, 0)
  let temp := fun (k : Nat) => leBytes 1 (clampI 0 255 (sgn 16 (s.rdFld (Reg.hlmTherm k) 15 0) / 8 + 64)).toNat
  let low := decide (s.rdFld Reg.hlmStatus 19 16 ≠ 0)
  let exh := decide (s.rdFld Reg.hlmStatus 23 20 ≠ 0)
  let flags := bitsWord [decide (s.hlm.wearWarn ≠ []), decide (s.hlm.wearAlarm ≠ []), decide (s.hlm.thermHot ≠ []), low, exh,
    decide (s.rdFld Reg.hlmStatus 31 24 ≠ 0)]
  let body := [0xE0, 1] ++ leBytes 1 (s.glb.id % 64) ++ leBytes 1 (s.glb.st.code % 16 + 16 * s.glb.role.code)
    ++ leBytes 8 s.cyc.n ++ leBytes 8 s.fuses.serial.toNat
    ++ leBytes 1 (s.engsIn .inService).length ++ leBytes 1 (s.engsIn .spare).length
    ++ leBytes 1 (s.coresIn .inService).length ++ leBytes 1 (s.coresIn .spare).length
    ++ leBytes 2 (s.rdFld Reg.hlmRows 31 16) ++ leBytes 2 (s.rdFld Reg.hlmRows 15 0)
    ++ leBytes 2 (s.rdFld Reg.hlmPages 31 16) ++ leBytes 2 (s.rdFld Reg.hlmPages 15 0)
    ++ leBytes 4 (min s.hlm.ceReport 0xFFFFFFFF) ++ leBytes 2 (min s.hlm.ueTotal 65535)
    ++ leBytes 1 wear.1 ++ leBytes 1 (min (wear.2 / 10) 255) ++ (List.range 8).flatMap temp
    ++ leBytes 2 (min (s.vin / 10) 65535) ++ leBytes 2 flags.toNat ++ leBytes 2 (min s.hlm.maxLoad 65535)
    ++ leBytes 2 (min (s.hlm.minSlack / 64) 65535) ++ leBytes 1 (min s.hlm.dropped 255) ++ [0, 0, 0]
  body ++ leBytes 4 (crc32c body).toNat

end Sys2Proof.Machine
end

