-- ==== Sys2Proof/Machine/LoadChecks.lean ====
section
/-! DEFINITION. Machine/LoadChecks.lean: the load checks of R424 from code 0x10 on, computed from what an image's sections hold. `rd`
reads a register as the loads of the sections leave it. Where several things of one code fail, the first in the order of the tables
counts (DESIGN CHOICE, log entry 22). -/

namespace Sys2Proof.Machine

/-- A refusal of a code with a detail, where the condition does not hold. -/
def refuseUnless (ok : Bool) (code : Nat) (detail : Option Nat) : Option Refused := if ok then none else some ⟨code, detail⟩

/-- The detail word of two items (R433). -/
def detail2 (a b : Nat) : Option Nat := some (a % 65536 + b * 65536)

/-- A CO-stamp in 2^-16 ns. -/
abbrev coU : Nat := 1024

/-- A field lies between two bounds. -/
def inRange (lo hi x : Nat) : Bool := decide (lo ≤ x) && decide (x ≤ hi)

/-! ### 0x10 TIMELINE and 0x11 CLASS (R29, R30, R34, R35, R57) -/

/-- Code 0x10: the timeline (R29, R30). The numbering of its parameters is not given, so the detail is none. -/
def checkTimeline (x : LineSec) : Option Refused :=
  let g := fun a => (loadedReg x.allRegs a).toNat
  let ok : Bool :=
    let us := g Reg.cycUlStart
    let ue := g Reg.cycUlEnd
    let ds := g Reg.cycDlStart
    let de := g Reg.cycDlEnd
    let ac := g Reg.cycAct
    let t := g Reg.cycPeriod
    decide (g Reg.cycConfig % 16 < 4) && decide (t = 500000 * 2 ^ (g Reg.cycConfig % 16))
      && decide (us % 80 = 0 ∧ ue % 80 = 0 ∧ ds % 80 = 0 ∧ de % 80 = 0 ∧ ac % 80 = 0)
      && decide (25600 ≤ us ∧ us < ue ∧ us + 64000 ≤ ds ∧ ds < de ∧ de + 64000 ≤ ac ∧ ac + 32000 ≤ t)
  refuseUnless ok 0x10 none

/-- Code 0x10, the part that needs the sections of an ID: the number of axes (R30). -/
def checkAxes (rd : Nat → Word) (c : CtrlSec) : Option Refused :=
  refuseUnless (decide (c.axes.length ≤ if (rd Reg.cycPeriod).toNat = 500000 then 64 else 256)) 0x10 none

/-- Code 0x11: cycle classes (R34, R35, R57). -/
def checkClass (rd : Nat → Word) (c : CtrlSec) : Option Refused :=
  let t := (rd Reg.cycPeriod).toNat
  let thin := fun (p : Nat × AxisDesc) => decide (p.2.kind = .thin)
  let bad := fun (i : Nat) =>
    let d := (c.axes.getD i (0, {})).2
    let before := c.axes.take i
    decide (5 < d.cls ∨ (d.cls ≠ 5 ∧ clsDiv d.cls ≤ d.phase))
      || (if d.kind = .thin then decide (d.cls ≠ 0 ∧ d.cls ≠ 5) else decide (d.cls = 5))
      || (decide (d.cls = 5) && (decide (t ≠ 1000000) || decide (32 ≤ (before.filter (fun p => decide (p.2.cls = 5))).length)))
      || (decide (d.kind = .thin) && decide (96 ≤ (before.filter thin).length))
  match (List.range c.axes.length).find? bad with
  | some i => some ⟨0x11, some (c.axes.getD i (0, {})).1⟩
  | none => none

/-! ### 0x12 SLOT_BUDGET (R47, R266) -/

/-- A slot of the plan with its number and its records. -/
structure PlanSlot where
  k    : Nat
  e    : SlotEnt
  recs : List RecEnt
deriving DecidableEq, Repr

/-- The slots of the plan. -/
def planSlots (rd : Nat → Word) : List PlanSlot :=
  (List.range (fld (rd Reg.slcPlan) 26 16)).map (fun k =>
    let w := fun i => rd (Reg.slcSlotTab (4 * k + i))
    let e := SlotEnt.of (w 0) (w 1) (w 2) (w 3)
    { k := k, e := e, recs := (List.range e.nrec).map (fun i => RecEnt.of (rd (Reg.slcRecMap (e.first + i)))) })

/-- Bytes of a record in a slot's direction (R259, R260). -/
def PlanSlot.recLen (p : PlanSlot) (r : RecEnt) : Nat := if p.e.down then dlLen r.ext else ulLen r.ext

/-- Bytes of the slot's frame (R47): a safe frame carries its BODY. -/
def PlanSlot.bytes (p : PlanSlot) : Nat :=
  frameOver + (if p.e.kind = 1 then p.e.body else (p.recs.map p.recLen).sum)

/-- The slot holds records of axes and I/O: it is a bundle. -/
def PlanSlot.bundle (p : PlanSlot) : Bool := decide (p.e.kind = 0)

/-- The guard of a plan in 2^-16 ns. -/
def guardOf (rd : Nat → Word) : Nat := fld (rd Reg.slcCfg) 15 4 * 16384

/-- The time a slot takes in its cycle, in 2^-16 ns from its start: frame and guard. -/
def PlanSlot.length (rd : Nat → Word) (p : PlanSlot) : Nat := wireTime p.bytes + guardOf rd

/-- The description of an axis index in a section. -/
def CtrlSec.axisOf (c : CtrlSec) (a : Nat) : Option AxisDesc := (c.axes.find? (fun q => decide (q.1 = a))).map (·.2)

/-- The record feeds an axis of class C2. -/
def CtrlSec.recC2 (c : CtrlSec) (r : RecEnt) : Bool := !r.io && ((c.axisOf r.axis).map AxisDesc.c2).getD false

/-- A window in 2^-16 ns of the cycle. -/
def slotWindow (rd : Nat → Word) (down : Bool) : Nat × Nat :=
  if down then ((rd Reg.cycDlStart).toNat * coU, (rd Reg.cycDlEnd).toNat * coU)
  else ((rd Reg.cycUlStart).toNat * coU, (rd Reg.cycUlEnd).toNat * coU)

/-- The window of a half of class C2: the T128 offsets from the start of the half (R35). -/
def slotWindowC2 (down : Bool) (half : Nat) : Nat × Nat :=
  let o := half * 512000000
  if down then (o + 3600 * nsU, o + 6000 * nsU) else (o + 500 * nsU, o + 3200 * nsU)

/-- The slot fits its windows: the base window, that of its half where it holds class C2 records, both where it holds both. -/
def slotFits (rd : Nat → Word) (c : CtrlSec) (p : PlanSlot) : Bool :=
  let s := p.e.start * coU
  let inside := fun (w : Nat × Nat) => decide (w.1 ≤ s) && decide (s + p.length rd ≤ w.2)
  let some2 := p.e.half || (p.bundle && p.recs.any c.recC2)
  let base := !p.e.half && !(p.bundle && decide (p.recs ≠ []) && p.recs.all c.recC2)
  (!some2 || inside (slotWindowC2 p.e.down (b2n p.e.half))) && (!base || inside (slotWindow rd p.e.down))

/-- Two slots of one direction and trunk overlap. -/
def slotsMeet (rd : Nat → Word) (p q : PlanSlot) : Bool :=
  decide (p.e.down = q.e.down ∧ p.e.trunk = q.e.trunk) &&
    decide (p.e.start * coU < q.e.start * coU + q.length rd ∧ q.e.start * coU < p.e.start * coU + p.length rd)

/-- CMASK that an axis's slots carry (R34, R266). -/
def AxisDesc.cmask (d : AxisDesc) : Nat :=
  (List.range 16).foldl (fun m j => if d.active j then m + 2 ^ j else m) 0

/-- The first cycle of the hyperperiod in which a slot is active. -/
def PlanSlot.firstCycle (p : PlanSlot) : Nat := ((List.range 16).find? (fun j => p.e.cmask.testBit j)).getD 0

/-- A bundle's records are those of axes whose class and phase its CMASK gives, a safe slot is active in every cycle (R266, R372). -/
def slotMaskOk (c : CtrlSec) (p : PlanSlot) : Bool :=
  match p.e.kind with
  | 0 => p.recs.all (fun r => r.io || match c.axisOf r.axis with
      | some d => decide (p.e.cmask = d.cmask) && (d.c2 || !p.e.half)
      | none => true)
  | 1 => decide (p.e.cmask = 0xFFFF)
  | _ => true

/-- All records of the slot's nodes lie in it, for its direction and half, and no node has more than four (R266). -/
def slotNodesOk (all : List PlanSlot) (p : PlanSlot) : Bool :=
  let twin := all.filter (fun q => q.bundle && decide (q.e.down = p.e.down ∧ q.e.half = p.e.half ∧ q.k ≠ p.k))
  !p.bundle || p.recs.all (fun r => decide ((p.recs.filter (fun q => decide (q.node = r.node))).length ≤ 4)
    && !twin.any (fun q => q.recs.any (fun x => decide (x.node = r.node))))

/-- A class C2 record has a slot in the other half too (R266). -/
def slotHalvesOk (c : CtrlSec) (all : List PlanSlot) (p : PlanSlot) : Bool :=
  !p.bundle || p.recs.all (fun r => !c.recC2 r || all.any (fun q => q.bundle &&
    decide (q.e.down = p.e.down ∧ q.e.half = !p.e.half) && q.recs.any (fun x => !x.io && decide (x.axis = r.axis))))

/-- A spare uplink slot's pair is a spare downlink slot of its trunk (R263, R266). -/
def slotPaired (all : List PlanSlot) (p : PlanSlot) : Bool :=
  all.any (fun q => decide (q.k = p.e.pair ∧ q.e.kind = 2 ∧ q.e.down = true ∧ q.e.trunk = p.e.trunk))

/-- Bytes of a bundle before record `i`, from the frame start: the SFD, the MAC and bundle headers and the records before it
(R252, R535). -/
def PlanSlot.before (p : PlanSlot) (i : Nat) : Nat := 25 + ((p.recs.take i).map p.recLen).sum

/-- Each coupler node's frame is in hand in time for its coupler to send it on (R266, R535). -/
def slotLeadOk (rd : Nat → Word) (c : CtrlSec) (p : PlanSlot) : Bool :=
  !p.bundle || p.e.down || p.recs.zipIdx.all (fun x =>
    let n := x.1.node
    let e := NodeEnt.of (rd (Reg.slcNodeTab (4 * n))) (rd (Reg.slcNodeTab (4 * n + 1))) (rd (Reg.slcNodeTab (4 * n + 2)))
      (rd (Reg.slcNodeTab (4 * n + 3)))
    let first := p.recs.findIdx (fun r => decide (r.node = n))
    let own := frameOver + ((p.recs.filter (fun r => decide (r.node = n))).map p.recLen).sum
    decide (e.level = 0) || decide (x.2 ≠ first) ||
      decide (e.nslot * coU + guardOf rd + wireTime own + 100 * nsU + Tab.get 0 c.dUp n * coU
        ≤ p.e.start * coU + guardOf rd / 2 + wireTime (p.before x.2)))

/-- The last byte of each downlink record is at its node 500 ns before it acts (R266). -/
def slotActOk (rd : Nat → Word) (c : CtrlSec) (p : PlanSlot) : Bool :=
  !p.bundle || !p.e.down || p.recs.zipIdx.all (fun x =>
    let act := if c.recC2 x.1 then 7000 * nsU + b2n p.e.half * 512000000 else (rd Reg.cycAct).toNat * coU
    decide (p.e.start * coU + wireTime (p.before (x.2 + 1) + 7) + Tab.get 0 c.dDown x.1.node * coU + 500 * nsU ≤ act))

/-- Code 0x12: R47 and R266. The spec gives the detail of a failure no slot is at fault for as little as its cycle: free then. -/
def checkSlots (rd : Nat → Word) (c : CtrlSec) : Option Refused :=
  let all := planSlots rd
  let trunks := (List.range 4).filter (fun t => (fld (rd Reg.slcCfg) 3 0).testBit t)
  let spares := fun (t : Nat) => all.filter (fun p => decide (p.e.kind = 2 ∧ p.e.down = false ∧ p.e.trunk = t))
  let deep := (List.range 256).any (fun n => bit (rd (Reg.slcNodeTab (4 * n))) 31 && decide (fld (rd (Reg.slcNodeTab (4 * n))) 29 28 = 3))
  let bad := fun (p : PlanSlot) =>
    !(slotFits rd c p && slotMaskOk c p && slotNodesOk all p && slotHalvesOk c all p && slotLeadOk rd c p && slotActOk rd c p)
  let meet := fun (p : PlanSlot) => (all.filter (fun q => decide (q.k < p.k) && slotsMeet rd p q)).findSome? (fun q =>
    (List.range 16).find? (fun j => p.e.cmask.testBit j && q.e.cmask.testBit j))
  match all.findSome? (fun p => if bad p then some (p.k, p.firstCycle) else (meet p).map (fun j => (p.k, j))) with
  | some x => some ⟨0x12, detail2 x.1 x.2⟩
  | none => refuseUnless (!deep && trunks.all (fun t => (spares t).any (slotPaired all) && decide ((spares t).length ≤ 32))) 0x12 none

/-! ### 0x13 COMPUTE_BUDGET (R48) -/

/-- A job of the budget: when it is ready at the latest, its axis, its cost and its deadline, in 2^-16 ns of the cycle. -/
structure PlanJob where
  ready : Nat
  axis  : Nat
  cost  : Nat
  due   : Option Nat
deriving DecidableEq, Repr

/-- Place of an axis's record in a slot. -/
def PlanSlot.place (p : PlanSlot) (a : Nat) : Option Nat :=
  if p.bundle then p.recs.findIdx? (fun r => !r.io && decide (r.axis = a)) else none

/-- Inserts a job by readiness, then axis index (R38). -/
def insertJob (j : PlanJob) : List PlanJob → List PlanJob
  | [] => [j]
  | h :: t => if j.ready < h.ready ∨ (j.ready = h.ready ∧ j.axis < h.axis) then j :: h :: t else h :: insertJob j t

/-- The post time of an EIU channel by the registers (R84). -/
def postOf (rd : Nat → Word) (c : CtrlSec) (k : Nat) : Nat :=
  postTime (fld (rd (Reg.eiuMode k)) 3 0) (rd (Reg.eiuSerCfg k)) (rd (Reg.eiuSerTiming k)) (rd (Reg.eiuSerCrc k))
    (Tab.get {} c.encs k).tld

/-- The jobs of a cycle of the hyperperiod, in the order in which they are served: worst-case landings are counted at G after the
slot start (R47, R48). -/
def planJobs (rd : Nat → Word) (c : CtrlSec) (all : List PlanSlot) (j : Nat) : List PlanJob :=
  let on := all.filter (fun p => p.bundle && p.e.cmask.testBit j)
  let jobs := c.axes.flatMap (fun q =>
    let d := q.2
    if d.active j = false then []
    else (List.range (halves d.c2)).map (fun h =>
      let find := fun (down : Bool) (f : PlanSlot → Nat → Nat) => on.findSome? (fun p =>
        if p.e.down = down ∧ b2n p.e.half = h then (p.place q.1).map (f p) else none)
      let land := find false (fun p i => p.e.start * coU + guardOf rd + wireTime (p.before (i + 1) + 7))
      let due := find true (fun p i => p.e.start * coU + wireTime (p.before i + 7) - 40 * nsU)
      let ready := match d.chan with
        | some k => h * 512000000 + postOf rd c k
        | none => land.getD ((rd Reg.cycUlEnd).toNat * coU)
      ({ ready := ready, axis := q.1, cost := fld (rd (Reg.ceaKsetInfo d.kset)) 15 0 * clkU, due := due } : PlanJob)))
  jobs.foldl (fun l x => insertJob x l) []

/-- Replaces the engine that is free first. -/
def takeEngine (t : Nat) (until_ : Nat) : List Nat → List Nat
  | [] => []
  | h :: l => if h = t then until_ :: l else h :: takeEngine t until_ l

/-- The first job that would start after its latest start with the engines free from the given times on (R36 to R41, R48). -/
def lateJob : List Nat → List PlanJob → Option PlanJob
  | _, [] => none
  | engs, j :: rest =>
    let free := engs.foldl min (engs.headD 0)
    let start := max j.ready free
    let late := match j.due with
      | some d => decide (d < start + j.cost)
      | none => false
    if late then some j else lateJob (takeEngine free (start + j.cost) engs) rest

/-- Code 0x13: in every cycle of the hyperperiod each job starts by its latest start with 16 engines. -/
def checkCompute (rd : Nat → Word) (c : CtrlSec) : Option Refused :=
  let all := planSlots rd
  match (List.range 16).findSome? (fun j => (lateJob (List.replicate 16 0) (planJobs rd c all j)).map (fun x => (x.axis, j))) with
  | some x => some ⟨0x13, detail2 x.1 x.2⟩
  | none => none

/-! ### 0x14 SERIAL_POST and 0x15 KERNEL (R84) -/

/-- The read period of a channel in 2^-16 ns: that of the axis it feeds that is active most often, else the base period (R79). -/
def readPeriod (rd : Nat → Word) (c : CtrlSec) (k : Nat) : Nat :=
  let t := (rd Reg.cycPeriod).toNat * coU
  let on := c.axes.filter (fun q => decide (q.2.chan = some k))
  match on with
  | [] => t
  | q :: l => l.foldl (fun m x => min m (clsDiv x.2.cls * t / halves x.2.c2)) (clsDiv q.2.cls * t / halves q.2.c2)

/-- Code 0x14: a serial sample would be posted after UL_END, or an SSI frame and TM do not fit the read period. Of a channel that
feeds a class C2 axis UL_END is that of the half (R35). -/
def checkSerial (rd : Nat → Word) (c : CtrlSec) : Option Refused :=
  let bad := fun (k : Nat) =>
    let m := fld (rd (Reg.eiuMode k)) 3 0
    let cfg := rd (Reg.eiuSerCfg k)
    let c2 := c.axes.any (fun q => decide (q.2.chan = some k) && q.2.c2)
    let ue := if c2 then 3200 * nsU else (rd Reg.cycUlEnd).toNat * coU
    (decide (m = 3 ∨ m = 4) && decide (ue < postOf rd c k)) ||
      (decide (m = 3) && decide (readPeriod rd c k < fld cfg 23 18 * serPeriod cfg + fld (rd (Reg.eiuSerTiming k)) 31 22 * 100 * nsU))
  match (List.range 8).find? bad with
  | some k => some ⟨0x14, some k⟩
  | none => none

/-- Code 0x15, the memory part: P holds 16,384 words and Y 2,048 constants. The kernel set at fault is that of the greatest entry
not above the word for P; Y constants belong to no set, and the detail is free for them. -/
def checkMemory (rd : Nat → Word) (c : CtrlSec) : Option Refused :=
  match c.p.find? (fun q => decide (16384 ≤ q.1)) with
  | some _ =>
    let n := fld (rd Reg.ceaCfg) 22 16
    some ⟨0x15, (List.range n).foldl (fun (b : Option Nat) k => match b with
      | none => some k
      | some x => if fld (rd (Reg.ceaKsetInfo x)) 31 18 < fld (rd (Reg.ceaKsetInfo k)) 31 18 then some k else some x) none⟩
  | none => refuseUnless (c.y.all (fun q => decide (q.1 < 2048))) 0x15 none

/-! ### 0x16 RANGE -/

/-- A test of a parameter: its block number (R18), its index within the block, and whether it lies in its range. -/
abbrev RangeTest := Nat × Nat × Bool

/-- Ranges of the parameters of TBU, PEM and CFL (R290, R302, R305, R310, R397, R422, R328). -/
def lineRanges (x : LineSec) (rd : Nat → Word) : List RangeTest :=
  let p := rd Reg.tbuPtpCfg
  let o := rd Reg.tbuPpsCfg
  let mode := fld o 31 30
  let tol := rd Reg.tbuTol
  let sgn4 := fun (hi lo : Nat) => sgn 4 (fld p hi lo)
  let width := fld o 18 0
  [(4, 0, inRange 100 60000 x.runWait),
   (5, 0, inRange 2 8 (fld p 31 28) && decide (-3 ≤ sgn4 27 24 ∧ sgn4 27 24 ≤ 0) && decide (-7 ≤ sgn4 23 20 ∧ sgn4 23 20 ≤ 0)
     && decide (-7 ≤ sgn4 19 16 ∧ sgn4 19 16 ≤ -3) && decide (fld p 7 0 ≤ 127)),
   (5, 1, inRange 4 4000 (fld tol 31 16) && decide (fld tol 31 16 < fld tol 15 0)),
   (5, 2, decide (mode ≤ 2) && decide (fld o 29 25 ≤ 20) && decide (fld o 24 23 ≤ 2) && decide (fld o 21 19 ≤ 2)
     && (decide (mode = 0) || inRange 1 500000 width)
     && (decide (mode ≠ 2) || decide (width * 64000 < 2 ^ fld o 29 25 * (rd Reg.cycPeriod).toNat))),
   (15, 0, inRange 100 60000 x.plan.timeout)]

/-- Ranges of the event log's and the health manager's parameters (R489, R491, R498, R519). -/
def logRanges (rd : Nat → Word) (c : CtrlSec) : List RangeTest :=
  let codes : List Nat := c.lims.map (fun l => l.code)
  let h := rd Reg.hlmCfg
  (c.lims.zipIdx.map (fun q => ((22, q.2, inRange 1 65535 q.1.burst && inRange 1 65535 q.1.period && decide (q.1.code / 256 ≠ 22)
      && decide (q.2 < 64) && !(codes.take q.2).contains q.1.code) : RangeTest)))
    ++ [(22, 64, inRange 1 1024 (fld (rd Reg.elgCfg) 10 0)),
        (23, 0, inRange 1 15 (fld h 7 4) && inRange 1 15 (fld h 3 0) && decide (fld (rd Reg.hlmCfg2) 13 0 ≤ 8760))]

/-- Ranges of an EIU channel's settings, where it is in use (R69, R71, R72, R80 to R82, R93). -/
def encRange (rd : Nat → Word) (k : Nat) : RangeTest :=
  let m := fld (rd (Reg.eiuMode k)) 3 0
  let q := rd (Reg.eiuQcfg k)
  let v := rd (Reg.eiuSpeedCfg k)
  let s := rd (Reg.eiuSerCfg k)
  let sup := fld (rd (Reg.eiuMode k)) 19 16
  let sh := sgn 8 (fld s 7 0)
  let biss := decide (m = 4 ∨ m = 6)
  let serial := decide (2 < m)
  (8, k, decide (m = 0) || (decide (m ≤ 6) && (decide (sup ≤ 7) || decide (sup = 15))
    && inRange 1 200 (fld q 23 16) && inRange 1 64 (fld q 6 0)
    && inRange 2 15 (fld v 31 28) && decide (fld v 27 24 ≤ 12) && (decide (m ≠ 1) || decide (fld v 27 24 = 0))
    && inRange 3 255 (fld v 23 16) && inRange 1000 60000 (fld v 15 0)
    && (!serial || (inRange 2 200 (fld s 31 24) && inRange 8 63 (fld s 23 18) && decide (-16 ≤ sh ∧ sh ≤ 16)
      && decide (fld (rd (Reg.eiuSerTiming k)) 10 0 ≤ 1600)
      && (!biss || (inRange 1 15 (fld s 11 8) && inRange 4 16 (fld (rd (Reg.eiuSerCrc k)) 20 16)))))))

/-- Ranges of a fast input's settings; roles 1 to 3 name a described axis (R94 to R98, R109). -/
def finRange (rd : Nat → Word) (c : CtrlSec) (k : Nat) : RangeTest :=
  let g := rd (Reg.dioInCfg k)
  let r := rd (Reg.dioInRate k)
  let role := fld g 19 16
  (9, k, inRange 1 1023 (fld g 29 20) && decide (role ≤ 3) && (decide (role = 0) || (c.axisOf (fld g 7 0)).isSome)
    && inRange 1 65535 (fld (rd (Reg.dioInTime k)) 15 0) && inRange 1 255 (fld r 15 8) && inRange 1 255 (fld r 7 0))

/-- A ramp set within its limits (R188). -/
def Ramp.ok (r : Ramp) (vlim : Nat) : Bool :=
  decide (0 < r.vmax ∧ r.vmax ≤ vlim ∧ r.vstart ≤ r.vmax ∧ r.vstop ≤ r.vmax ∧ 0 < r.a1 ∧ 0 < r.a2 ∧ 0 < r.d1 ∧ 0 < r.d2)

/-- A line angle's parameters within the ranges of R222. A virtual master's description has no V_LIM, so V_MAX bounds itself. -/
def LaDecl.ok (d : LaDecl) : Bool :=
  let periodic := decide (d.src = .periodicFin ∨ d.src = .periodicPps)
  let r := d.pgn.ramp 0
  (decide (d.src ≠ .axis ∧ d.src ≠ .encoder) || (decide (d.snum ≠ 0) && inRange 1 4294967295 d.sden))
    && (decide (d.src ≠ .remote) || inRange 2 16 d.ageMax)
    && (!periodic || (inRange 1 4294967296 d.stepRaw && inRange 500 20000000 d.fMin && inRange 500 20000000 d.fMax
      && inRange 50 50000 d.pllBw && decide (d.pllBw * 10 ≤ d.fMin) && decide (1 ≤ d.lockTol ∧ d.lockTol * 10 ≤ d.stepRaw)
      && inRange 1 15 d.missMax))
    && (if d.src = .virtual then r.ok r.vmax && decide (0 < d.pgn.qd)
        else decide (d.src = .none) || (decide (d.loss ≤ 2 ∧ d.tCoast ≤ 60000000000 ∧ 0 < d.lossDec) && inRange 1 255 d.nBack
          && decide (d.rejoin ≤ 2) && inRange 1000000 60000000000 d.tRejoin))

/-- Ranges of LAU: line angles, cam tables, cam switch tracks (R222, R234, R243). -/
def lauRanges (rd : Nat → Word) (c : CtrlSec) : List RangeTest :=
  (c.las.map (fun q => ((10, q.1, decide (q.1 < 16) && q.2.ok) : RangeTest)))
    ++ [(10, 16, decide (fld (rd Reg.lauCfg) 15 7 ≤ 256) && decide (c.tracks.length ≤ 16)
      && c.tracks.all (fun t => decide (t.windows.length ≤ 8 ∧ t.leadOn ≤ 1000000 ∧ t.leadOff ≤ 1000000 ∧ 0 < t.period)))]

/-- The SIG words that a competing loop names (R113). -/
def LoopDef.sigs (l : LoopDef) : List Nat :=
  [l.meas, l.ref].filterMap (fun x => match x with
    | .sig j => some j
    | _ => none)

/-- The compensators of a bank have an order and a rounding that exist (R128). -/
def bankComps (b : Bank128) : Bool :=
  (List.range 10).all (fun k => let g := compCfg b k; decide (g.round ≤ 2) && (!g.en || inRange 1 3 g.order))

/-- Competing loops enabled in a bank. -/
def bankLoops (b : Bank128) : Bool := [2, 3, 4, 5].any (fun k => (compCfg b k).en)

/-- The control-law part of an axis (R113, R114, R128). -/
def AxisDesc.loopOk (d : AxisDesc) : Bool :=
  let l := d.loop
  decide (-8 ≤ l.peExp ∧ l.peExp ≤ 31 ∧ l.vExp ≤ 39 ∧ l.aExp ≤ 47)
    && (match d.kind with
      | .smart => decide (l.dmdKind ≤ 3)
      | .thin => decide (l.dmdKind = 0)
      | .stepper => decide (l.dmdKind = 3))
    && l.loops.all (fun q => q.sigs.all (fun j => (l.sigMap.getD j none).isSome))
    && (decide (l.dmdKind ≠ 3) || !(bankLoops d.bank0 || bankLoops d.bank1)) && bankComps d.bank0 && bankComps d.bank1

/-- The profile part of an axis (R188, R206). -/
def AxisDesc.pgnOk (d : AxisDesc) : Bool :=
  let g := d.pgn
  (List.range 4).all (fun r => (g.ramp r).ok g.vlim) && inRange 1 8 g.homeMethod
    && (decide (g.homeMethod ≠ 3 ∧ g.homeMethod ≠ 4 ∧ g.homeMethod ≠ 7) || d.chan.isSome)

/-- Ranges of admission and of the axes (R44, R63, R87, R93, R120, R183). -/
def axisRanges (rd : Nat → Word) (c : CtrlSec) : List RangeTest :=
  let g := rd Reg.axmAdmitCfg
  let t := rd Reg.axmAdmitTimes
  ((7, 256, inRange 1 64 (fld g 6 0) && decide (1 ≤ fld g 31 16) && inRange 10 60000 (fld t 31 16) && inRange 1 10000 (fld t 15 0))
      : RangeTest)
    :: (c.axes.map (fun q => ((7, q.1, decide (q.2.inrush ≤ fld g 31 16) && inRange 1 4 q.2.lateLim && inRange 1 255 q.2.feN
        && inRange 2 15 q.2.speed.nE && inRange 3 255 q.2.speed.eHi && decide (q.2.speed.estep ≤ 12) && inRange 1000 60000 q.2.speed.tSs)
          : RangeTest)))
    ++ c.axes.map (fun q => (11, q.1, q.2.pgnOk))
    ++ c.axes.map (fun q => (12, q.1, q.2.loopOk))
    ++ c.axes.map (fun q => (13, q.1, decide (q.2.kind ≠ .thin) || decide (fld (Tab.get 0 q.2.ky 0x10) 15 8 ≤ 3)))

/-- Ranges of the link, fabric and twin settings (R47, R263, R283, R324, R340). -/
def linkRanges (rd : Nat → Word) : List RangeTest :=
  let g := rd Reg.slcCfg
  let t := rd Reg.slcTiming
  let p := rd Reg.slcPlan
  let w := rd Reg.twuCfg
  (14, 1024, inRange 128 1024 (fld g 15 4) && inRange 512 32000 (fld t 31 16) && inRange 3 64 (fld t 7 0)
      && decide (fld p 26 16 ≤ 1024) && decide (fld p 12 0 ≤ 4096))
    :: (planSlots rd).map (fun q => ((14, q.k, decide (q.e.kind ≤ 2 ∧ q.e.nrec ≤ 64) && decide (q.e.first + q.e.nrec ≤ fld p 12 0)
      && (decide (q.e.kind ≠ 1) || (inRange 16 1024 q.e.body && decide (q.e.body % 4 = 0)))) : RangeTest))
    ++ [(15, 1, inRange 1 16 (fld (rd Reg.fbrCfg) 11 8)), (16, 0, inRange 1 255 (fld w 23 16) && inRange 16 65535 (fld w 15 0))]

/-- Ranges of the safety section (R366, R368, R370, R373, R374, R378, R379). -/
def safetyRanges (x : SafetySec) : List RangeTest :=
  ((17, 512, inRange 2 8 x.seqWin && decide (x.mons.length ≤ 64)) : RangeTest)
    :: x.axes.map (fun a => ((17, a.axis, decide (a.tSs1 ≤ 10000 ∧ a.tSbc ≤ 1000 ∧ a.react ≤ 1)) : RangeTest))
    ++ x.mons.map (fun m => (17, m.axis, inRange 1 64 m.nV && decide (m.n1 ≠ 0 ∧ m.n2 ≠ 0 ∧ 0 < m.d1 ∧ 0 < m.d2)))
    ++ x.conns.zipIdx.map (fun q => (17, q.2, if q.1.down then decide (q.1.len = 20)
        else decide (16 ≤ q.1.len ∧ q.1.len % 8 = 0 ∧ q.1.len ≤ 48)))
    ++ x.ins.zipIdx.map (fun q => (17, q.2, !q.1.used || inRange 1 1000 q.1.tDisc))
    ++ x.outs.zipIdx.map (fun q => (17, q.2, !q.1.used || inRange 1 60 q.1.testT))

/-- Channels of CAP that the image declares. -/
def capList (rd : Nat → Word) : List Nat := (List.range 32).filter (fun k => decide (fld (rd (Reg.capChCfg k)) 23 19 ≠ 0))

/-- Ranges of a capture channel (R477, R480). -/
def capRange (rd : Nat → Word) (k : Nat) : RangeTest :=
  let g := rd (Reg.capChCfg k)
  let n := fld g 18 10
  let half := fld g 23 19
  (21, k, decide (fld g 28 26 ≤ 4) && inRange 8 20 half && decide (4 * n ≤ 2 ^ half) && (match fld g 31 29 with
    | 2 => inRange 2 32 n && decide (n % 2 = 0)
    | 4 => inRange 1 32 n
    | m => decide (m ≤ 3) && inRange 1 256 n))

/-- Ranges of a ring (R457). -/
def ringRange (rd : Nat → Word) (r : Nat) : RangeTest :=
  let g := rd (Reg.wksRingCfg r)
  (20, r, decide (fld g 31 29 = 0) || (decide (fld g 31 29 ≤ 5) && inRange 4 20 (fld g 28 24)))

/-- The ledger's budget: its range, and at least the largest declared energy over 4.5 V (R397); the fixed loads of R396 declare up to
45 uJ, an encoder output up to 2,000 uJ. -/
def ledgerRange (rd : Nat → Word) (c : CtrlSec) : RangeTest :=
  let q := fld (rd Reg.pemLedgerCfg) 15 0
  (2, 0, inRange 10 10000 q && decide ((c.encE.map (·.2)).foldl max 45 * 1000 ≤ q * 4500) && c.encE.all (fun e => decide (e.2 ≤ 2000)))

/-- All range tests of the sections of an ID, by block number. -/
def ranges (line : LineSec) (rd : Nat → Word) (c : CtrlSec) : List RangeTest :=
  ledgerRange rd c :: lineRanges line rd ++ axisRanges rd c ++ (List.range 8).map (encRange rd) ++ (List.range 16).map (finRange rd c)
    ++ lauRanges rd c ++ linkRanges rd ++ safetyRanges c.safety ++ (List.range 16).map (ringRange rd)
    ++ (capList rd).map (capRange rd) ++ logRanges rd c

/-- Code 0x16 of a list of tests. -/
def firstOut (l : List RangeTest) : Option Refused :=
  match l.find? (fun t => !t.2.2) with
  | some t => some ⟨0x16, detail2 t.1 t.2.1⟩
  | none => none

/-- Code 0x16 of the sections of an ID. -/
def checkRange (line : LineSec) (rd : Nat → Word) (c : CtrlSec) : Option Refused := firstOut (ranges line rd c)

/-! ### 0x17 TABLE (R164, R179) -/

/-- Entry `i` of a switching table. -/
def swEntry (rd : Nat → Word) (t i : Nat) : Nat := fld (rd (0x100100 + 0x40 * t + 4 * (i / 8))) (4 * (i % 8) + 3) (4 * (i % 8))

/-- A switching table holds codes of R161 and zero vectors, and a table of twelve sectors is used by no axis with SECTORS six. A table
has twelve sectors where the image replaced it and one of its entries 36 to 71 is not 0. -/
def swTableOk (rd : Nat → Word) (c : CtrlSec) (t : Nat) : Bool :=
  let twelve := (fld (rd Reg.cmuCfg) 31 28).testBit t && (List.range 36).any (fun i => decide (swEntry rd t (36 + i) ≠ 0))
  (List.range 72).all (fun i => decide (swEntry rd t i < 2 ∨ 8 ≤ swEntry rd t i))
    && !(twelve && c.axes.any (fun q => decide (q.2.kind = .thin) && decide (fld (Tab.get 0 q.2.ky 0) 5 4 = t)
      && !bit (Tab.get 0 q.2.ky 0) 3))

/-- A microstep table starts at 0 and never falls. -/
def stepTableOk (c : CtrlSec) (t : Nat) : Bool :=
  let v := fun i => (Tab.get 0 c.y (0x400 + 0x100 * t + i)).toInt
  decide (v 0 = 0) && (List.range 255).all (fun i => decide (v i ≤ v (i + 1)))

/-- Code 0x17. -/
def checkTables (rd : Nat → Word) (c : CtrlSec) : Option Refused :=
  let stepper := c.axes.any (fun q => decide (q.2.kind = .stepper))
  match (List.range 4).find? (fun t => !swTableOk rd c t || (stepper && !stepTableOk c t)) with
  | some t => some ⟨0x17, some t⟩
  | none => none

/-! ### 0x18 FABRIC_SLOT (R320, R321) -/

/-- START, body bytes and CMASK of a controller's fabric slot; none without a slot. -/
def fabSlot (rd : Nat → Word) (id : Nat) : Option (Nat × Nat × Nat) :=
  if (rd (Reg.fbrFslotStart id)).toNat = 0 then none
  else some ((rd (Reg.fbrFslotStart id)).toNat, fld (rd (Reg.fbrFslotLen id)) 31 16, fld (rd (Reg.fbrFslotLen id)) 15 0)

/-- Wire time of a FAB_DATA frame with its body, in 1/64 ns, rounded up: 46 bytes beside the body at 1.25 byte per ns (R313, R321). -/
def fabWire (len : Nat) : Nat := ((len + 46) * 256 + 4) / 5

/-- Code 0x18: an ID's slot lies in the fabric window on each link it crosses and meets no slot of an earlier ID there, and its last
byte reaches its consumers 0.5 us before the cycle ends. -/
def checkFabric (x : LineSec) (rd : Nat → Word) : Option Refused :=
  let t := (rd Reg.cycPeriod).toNat
  let lo := 25600
  let hi := if t = 500000 then 256000 else 512000
  let spanOf := fun (link : List (Nat × Nat)) (id : Nat) => match link.find? (fun q => decide (q.1 = id)), fabSlot rd id with
    | some q, some sl => some (sl.1 + q.2, sl.1 + q.2 + fabWire sl.2.1 + 4096, sl.2.2)
    | _, _ => none
  let bad := fun (id : Nat) => match fabSlot rd id with
    | none => false
    | some sl =>
      decide (sl.1 < lo ∨ hi < sl.1 + fabWire sl.2.1 + 4096 ∨ 2048 < sl.2.1)
        || x.plan.spans.any (fun link => match spanOf link id with
          | none => false
          | some a => decide (a.1 < lo ∨ hi < a.2.1) || (List.range id).any (fun j => match spanOf link j with
            | none => false
            | some b => decide (a.1 < b.2.1 ∧ b.1 < a.2.1 ∧ a.2.2 &&& b.2.2 ≠ 0)))
        || (match x.plan.reach.find? (fun q => decide (q.1 = id)) with
          | none => false
          | some q => decide (t < sl.1 + q.2 + fabWire sl.2.1 + 32000))
  match (List.range 64).find? bad with
  | some id => some ⟨0x18, some id⟩
  | none => none

/-! ### 0x19 SAFETY (R360, R367, R372) -/

/-- The record or channel that a position source reads, for an axis: an EIU channel, also where it is the axis's own feedback. -/
def PosSrc.place (c : CtrlSec) (a : Nat) (p : PosSrc) : Nat × Nat × Nat :=
  match p with
  | .conn k i => (0, k, i)
  | .channel k => (1, k, 0)
  | .feedback => match (c.axisOf a).bind (·.chan) with
    | some k => (1, k, 0)
    | none => (2, a, 0)

/-- P1 of a monitored axis is absolute. -/
def MonAxis.absolute (m : MonAxis) (rd : Nat → Word) : Bool :=
  match m.p1 with
  | .channel k => decide (3 ≤ fld (rd (Reg.eiuMode k)) 3 0)
  | _ => m.abs1

/-- Code 0x19, less what the channels of SFI find. -/
def checkSafety (rd : Nat → Word) (c : CtrlSec) : Option Refused :=
  let x := c.safety
  let e := (rd Reg.cycUlEnd).toNat + 128000
  let early := (planSlots rd).filter (fun p => p.e.down && decide (p.e.kind = 1 ∧ p.e.start < e))
  let conn := fun (i : Nat) => let d := x.conns.getD i { connId := 0, node := 0, down := true, slot := 0 }
    (d.down && early.any (fun p => decide (p.k = d.slot)))
      || decide (65535 < d.wd ∨ d.wd * 640000 < 3 * (rd Reg.cycPeriod).toNat)
      || (x.conns.take i).any (fun q => decide (q.connId = d.connId)) || decide (512 ≤ i)
  let mon := fun (m : MonAxis) => decide (m.p1.place c m.axis = m.p2.place c m.axis)
    || (x.maps.any (fun q => decide (q.func = .slp) && q.axes.contains m.axis) && !m.absolute rd)
  match (List.range x.conns.length).find? conn with
  | some i => some ⟨0x19, some i⟩
  | none => match x.mons.find? mon with
    | some m => some ⟨0x19, some m.axis⟩
    | none => refuseUnless early.isEmpty 0x19 none

/-! ### 0x1A CAPTURE_BW (R485), 0x1B REGION (R24, R457), 0x1C TWIN (R334) -/

/-- Worst-case rate of a capture channel in bytes per second. -/
def capRate (rd : Nat → Word) (c : CtrlSec) (k : Nat) : Nat :=
  let g := rd (Reg.capChCfg k)
  let n := fld g 18 10
  let first := fld (rd (Reg.capChSrc k)) 15 0
  let words := if fld g 31 29 = 3 then n + ((List.range n).filter (fun i => ((c.axisOf (first + i)).map AxisDesc.c2).getD false)).length else n
  let base := 64000000000 / max 1 (rd Reg.cycPeriod).toNat
  if fld g 31 29 = 4 then 16 * n * base else 16 * words * base / 2 ^ fld g 28 26

/-- Code 0x1A: the first channel at which the sum, with 128 MB/s for the rest, passes 2,000 MB/s. -/
def checkCapture (rd : Nat → Word) (c : CtrlSec) : Option Refused :=
  let run := (capList rd).foldl (fun (a : Nat × Option Nat) k =>
    let sum := a.1 + capRate rd c k
    (sum, if a.2.isNone ∧ 2000000000 < sum then some k else a.2)) (128000000, none)
  run.2.map (fun k => ⟨0x1A, some k⟩)

/-- Code 0x1B: the regions (R24): the first that lies outside its range or overlaps an earlier one. -/
def checkRegions (dram : Nat) (l : List Region) : Option Refused :=
  let bad := fun (i : Nat) =>
    let r := l.getD i ⟨0, 0, false⟩
    decide (r.base < 0x4000000 ∨ dram - 0x4000000 < r.base + r.len)
      || (l.take i).any (fun q => decide (q.base < r.base + r.len ∧ r.base < q.base + q.len))
  match (List.range l.length).find? bad with
  | some i => some ⟨0x1B, some i⟩
  | none => none

/-- Base and bytes of a ring in use. -/
def ringSpan (rd : Nat → Word) (r : Nat) : Option (Nat × Nat) :=
  let g := rd (Reg.wksRingCfg r)
  if fld g 31 29 = 0 then none
  else some ((rd (Reg.wksRingBaseLo r)).toNat + (rd (Reg.wksRingBaseHi r)).toNat * 2 ^ 32, 64 * 2 ^ fld g 28 24)

/-- Code 0x1B, the rings (R457): a COMMAND ring without its COMPLETION ring, or rings that overlap. Its detail, a region, is the host
region in which the ring lies, and free outside all. -/
def checkRings (line : LineSec) (rd : Nat → Word) : Option Refused :=
  let bad := fun (r : Nat) => match ringSpan rd r with
    | none => false
    | some a =>
      let g := rd (Reg.wksRingCfg r)
      (decide (fld g 31 29 = 1) && decide (fld (rd (Reg.wksRingCfg (fld g 23 20))) 31 29 ≠ 2))
        || (List.range r).any (fun q => match ringSpan rd q with
          | none => false
          | some b => decide (a.1 < b.1 + b.2 ∧ b.1 < a.1 + a.2))
  match (List.range 16).find? bad with
  | none => none
  | some r =>
    let base := ((ringSpan rd r).map (·.1)).getD 0
    some ⟨0x1B, line.regions.findIdx? (fun q => decide (q.base ≤ base ∧ base < q.base + q.len))⟩

/-- Code 0x1C: a twin pair with a direct node. -/
def checkTwin (rd : Nat → Word) : Option Refused :=
  let direct := fun (n : Nat) => let w := rd (Reg.slcNodeTab (4 * n)); bit w 31 && decide (fld w 29 28 = 0)
  if bit (rd Reg.twuCfg) 31 then
    match (List.range 256).find? direct with
    | some n => some ⟨0x1C, some (fld (rd (Reg.slcNodeTab (4 * n))) 27 26)⟩
    | none => none
  else none

/-! ### The checks of the sections -/

/-- The load checks whose outcome a command carries, because they rest on what the image's structured contents do not show (R424): the
analysis of a kernel's code (R155) and what the channels of SFI find in the safety section (R382). -/
def toldChecks (l : List Refused) : List Refused := l.filter (fun r => decide (r.code = 0x15 ∨ r.code = 0x19))

/-- The checks of the LINE section, with those the command tells of. -/
def lineChecks (dram : Nat) (line : LineSec) (told : List Refused) : Option Refused :=
  let rd := loadedReg line.allRegs
  firstRefused ((checkTimeline line).toList ++ (firstOut (lineRanges line rd)).toList ++ (checkFabric line rd).toList
    ++ (checkRegions dram line.regions).toList ++ told)

/-- The checks of the sections of an ID (R421, R424): both a CTRL and a SAFETY section stand in the directory. -/
def idChecks (bs : List Byte) (body : ImageBody) (id : Nat) (told : List Refused) : Option Refused :=
  let has := fun (sc : Nat) => (imgEntries bs).any (fun e => decide (entScope e = sc ∧ entId e = id))
  match body.ctrlOf id with
  | none => some ⟨6, some id⟩
  | some c =>
    if has 1 = false ∨ has 2 = false then some ⟨6, some id⟩
    else
      let rd := loadedReg (body.regsOf id)
      firstRefused ((checkAxes rd c).toList ++ (checkClass rd c).toList ++ (checkSlots rd c).toList ++ (checkCompute rd c).toList
        ++ (checkSerial rd c).toList ++ (checkMemory rd c).toList ++ (checkRange body.line rd c).toList ++ (checkTables rd c).toList
        ++ (checkSafety rd c).toList ++ (checkCapture rd c).toList ++ (checkRings body.line rd).toList ++ (checkTwin rd).toList ++ told)

end Sys2Proof.Machine
end

