-- ==== Sys2Proof/Machine/FabOps.lean ====
section
/-! DEFINITION. Machine/FabOps.lean: candles (R325), the epoch a controller takes part in (R327), adoption (R427) and the step
from SYNC to READY (R421), as the time base, the fabric and the twin unit share them. -/

namespace Sys2Proof.Machine

/-- Changes FBR. -/
def State.updFbr (s : State) (f : Fbr → Fbr) : State := { s with fbr := f s.fbr }
/-- Changes CFL. -/
def State.updCfl (s : State) (f : Cfl → Cfl) : State := { s with cfl := f s.cfl }
/-- Changes TWU. -/
def State.updTwu (s : State) (f : Twu → Twu) : State := { s with twu := f s.twu }

/-- The running candle (FBR_CANDLE0 to 7). -/
def State.ownCandle (s : State) : List Byte := wordBytes ((List.range 8).map (fun k => s.rd (Reg.fbrCandle k)))
/-- The running epoch number. -/
def State.ownEpoch (s : State) : Nat := (s.rd Reg.fbrEpoch).toNat
/-- The first four bytes of a candle. -/
def candlePrefix (c : List Byte) : Nat := leAt c 0 4
/-- Puts the running epoch and candle. -/
def State.putCandle (s : State) (e : Nat) (c : List Byte) : State :=
  (bytesWords 8 c).zipIdx.foldl (fun st p => st.wr (Reg.fbrCandle p.2) p.1) (s.wr Reg.fbrEpoch (w32 e))

/-- TOLERATE (R325). -/
def State.tolerate (s : State) : Bool := s.rdBit Reg.fbrCfg 14
/-- The member of a serial number, as its HELLOs show it. -/
def State.memberOf (s : State) (serial : Nat) : Option Member := s.fbr.members.find? (fun m => decide (m.serial = serial))
/-- The controller is the lantern. -/
def State.isLantern (s : State) : Bool := s.tbu.hasLantern && decide (s.tbu.lantern = s.fuses.serial.toNat)
/-- The lantern's member entry. -/
def State.lanternMember (s : State) : Option Member := if s.tbu.hasLantern then s.memberOf s.tbu.lantern else none

/-- The reference candle: the lantern's (R325), where it is known. -/
def State.refCandle (s : State) : Option (List Byte) :=
  if s.isLantern then some s.ownCandle else s.lanternMember.map (·.candle)

/-- The candle condition of SYNC (R421). -/
def State.candleOk (s : State) : Bool :=
  match s.refCandle with
  | some c => decide (c = s.ownCandle) || s.tolerate
  | none => false

/-! ### The epoch in progress (R326 to R329) -/

/-- Changes the epoch in progress; FBR_EPOCH_STAT and FBR_EPOCH_ACT show it. -/
def State.setEpoch (s : State) (e : Epoch) : State :=
  let s1 := s.updFbr (fun x => { x with epoch := e })
  let idle := decide (e.phase = EpochPhase.idle)
  let s2 := s1.wr Reg.fbrEpochStat (w32 (e.phase.code * 2 ^ 28 + b2n (e.initiator && !idle) * 2 ^ 27 + e.lastCause % 8 * 2 ^ 24
    + (if s.isLantern then e.ready.length % 256 else 0) * 65536 + (if idle then 0 else e.e % 65536)))
  s2.wr64 Reg.fbrEpochActLo Reg.fbrEpochActHi (if e.phase = .committed then BitVec.ofNat 64 e.at_ else 0)

/-- The members answer an item of this controller's epoch no more, and the staged image is discarded: back to IDLE. -/
def State.epochIdle (s : State) (cause : Nat) : State :=
  ((s.updCfl (fun x => { x with staged := none })).wrBit Reg.cflStatus 29 false).setEpoch { lastCause := cause }

/-- EPOCH_ABORT at this controller (R327): its cause, and for FAIL the controller and code. -/
def State.epochAbort (s : State) (cause : Nat) (more : List EvArg) : State :=
  (s.epochIdle cause).event 0x0F0C ([.w s.fbr.epoch.e, .h cause] ++ more)

/-! ### Candles (R325) and adoption (R427) -/

/-- A controller in SYNC asks the lantern for its image where the lantern runs a higher epoch under another candle. -/
def State.adoptStart (s : State) : State :=
  match s.lanternMember with
  | none => s
  | some m =>
    if s.glb.st = .sync ∧ s.cfl.adopting = false ∧ s.cfl.body.line.adopt ∧ s.isLantern = false ∧ m.candle ≠ s.ownCandle ∧
        s.ownEpoch < m.epoch ∧ s.cfl.barred ≠ some m.candle then
      let s1 := s.updCfl (fun x => { x with adopting := true, adoptAt := s.now, adoptGot := [], barred := none })
      (s1.wrBit Reg.cflStatus 30 true).send (.epoch 6 [m.id, m.epoch] [])
    else s

/-- The own candle is compared with the reference: at each lantern HELLO, LANTERN_CHANGE and epoch activation. -/
def State.candleCheck (s : State) : State :=
  match s.refCandle with
  | none => s
  | some c =>
    let bad := decide (c ≠ s.ownCandle)
    let s1 :=
      if bad = s.fbr.mismatch then s
      else
        let s2 := s.updFbr (fun x => { x with mismatch := bad })
        if bad then s2.event 0x0F07 [.h s.glb.id, .w (candlePrefix s.ownCandle)] else s2.event 0x0F08 [.h s.glb.id]
    let s3 := if bad ∧ s1.tolerate = false then s1.enterSafe 0x0F07 else s1
    s3.adoptStart

/-- LANTERN_CHANGE ends an epoch that is not COMMITTED (R327). -/
def State.lanternChanged (s : State) : State :=
  let s0 := s.updFbr (fun x => { x with away := none })
  let s1 := if s.fbr.epoch.phase = .staging ∨ s.fbr.epoch.phase = .ready then s0.epochAbort 4 [] else s0
  s1.candleCheck

/-! ### SYNC to READY (R421) -/

/-- PAIR of TWU_CFG. -/
def State.paired (s : State) : Bool := s.rdBit Reg.twuCfg 31

/-- SYNC passes to READY with TBU in LOCKED or LANTERN and the candle condition met. A controller without a twin may raise
ACT from then on (R350). -/
def State.syncReady (s : State) : State :=
  if s.glb.st = .sync ∧ (s.tbu.st = .locked ∨ s.tbu.st = .lantern) ∧ s.candleOk ∧ s.cfl.adopting = false then
    let s1 := (s.setCtl .ready 0).updCfl (fun x => { x with readyAt := s.now, cycles0 := 0 })
    if s1.paired then s1 else s1.updTwu (fun t => { t with inhibit := t.wickBad })
  else s

end Sys2Proof.Machine
end

