-- ==== Sys2Proof/Machine/Slc.lean ====
section
/-! DEFINITION. Machine/Slc.lean: the receiving side of the Siran link controller (R253 to R285): frames at the trunk ports,
records, links of nodes, joining, fencing and alarms, and the close of the uplink window (R39, R44, R272). -/

namespace Sys2Proof.Machine

/-! ### Nodes, links and ports -/

/-- A node's running state. -/
def State.node (s : State) (n : Nat) : NodeRt := Tab.get {} s.slc.nodes n

/-- A node's link on a channel. -/
def NodeRt.link (x : NodeRt) (b : Bool) : NodeLink := if b then x.b else x.a
/-- Puts a node's link on a channel. -/
def NodeRt.setLink (x : NodeRt) (b : Bool) (l : NodeLink) : NodeRt := if b then { x with b := l } else { x with a := l }

/-- 16 bits of an integer, as a number. -/
def u16 (x : Int) : Nat := (x % 65536).toNat

/-- SLC_NODEn_STAT. -/
def State.nodeStatWord (s : State) (n : Nat) : Word :=
  let x := s.node n
  let e := s.nodeEnt n
  w32 (b2n x.lost * 2 ^ 31 + b2n e.described * 2 ^ 30 + b2n e.spareBound * 2 ^ 29 + x.b.st.code * 2 ^ 22 + x.a.st.code * 2 ^ 20
    + min x.b.viol 8 * 16 + min x.a.viol 8)

/-- Puts a node, shown in its registers and in SLC_STATUS (R286). -/
def State.setNode (s : State) (n : Nat) (x : NodeRt) : State :=
  let s1 : State := { s with slc := { s.slc with nodes := Tab.set {} s.slc.nodes n x } }
  let s2 := s1.wr (Reg.slcNodeStat n) (s1.nodeStatWord n)
  let s3 := s2.wr (Reg.slcNodeArr n) (w32 (u16 x.b.arr * 65536 + u16 x.a.arr))
  let s4 := s3.wr (Reg.slcNodeTcorr n) (w32 (u16 x.b.tcorr * 65536 + u16 x.a.tcorr))
  let joined := (s4.slc.nodes.filter (fun p => decide (p.2.a.st = .joined ∨ p.2.b.st = .joined))).length
  let lost := (s4.slc.nodes.filter (fun p => p.2.lost)).length
  (s4.wrFld Reg.slcStatus 24 16 joined).wrFld Reg.slcStatus 8 0 lost

/-- Changes a node. -/
def State.updNode (s : State) (n : Nat) (f : NodeRt → NodeRt) : State := s.setNode n (f (s.node n))
/-- Changes a node's link on a channel. -/
def State.updLink (s : State) (n : Nat) (b : Bool) (f : NodeLink → NodeLink) : State :=
  s.updNode n (fun x => x.setLink b (f (x.link b)))

/-- A trunk port: 0 to 3 channel A, 4 to 7 channel B. -/
def State.port (s : State) (p : Nat) : Port := Tab.get {} s.slc.ports p
/-- Puts a trunk port. -/
def State.setPort (s : State) (p : Nat) (x : Port) : State :=
  { s with slc := { s.slc with ports := Tab.set {} s.slc.ports p x } }

/-- Adds one to the half of a register pair that counts for a channel: bits 31-16 for B, 15-0 for A. -/
def State.countHalf (s : State) (reg : Nat) (b : Bool) : State :=
  let hi := if b then 31 else 15
  let lo := if b then 16 else 0
  s.wrFld reg hi lo (min 65535 (s.rdFld reg hi lo + 1))

/-- G in 2^-16 ns (R47, R267). -/
def State.guard (s : State) : Nat := s.rdFld Reg.slcCfg 15 4 * 16384

/-- The node attached directly to a trunk. -/
def State.directNode (s : State) (trunk : Nat) : Option Nat :=
  (List.range 256).find? (fun n => let e := s.nodeEnt n; e.described && decide (e.level = 0 ∧ e.trunk = trunk))

/-- Uplink spare slots of a trunk, in slot-table order (R258). -/
def State.spareSlots (s : State) (trunk : Nat) : List Nat :=
  (List.range s.slotCount).filter (fun k => let e := s.slotEnt k; decide (e.down = false ∧ e.kind = 2 ∧ e.trunk = trunk))

/-- An uplink spare slot is free: no SPARE_BOUND node keeps it (R277). -/
def State.spareIsFree (s : State) (k : Nat) : Bool := s.slc.nodes.all (fun p => decide (p.2.spare ≠ some k))

/-- SPARE_FREE of a trunk. -/
def State.spareFreeWord (s : State) (trunk : Nat) : Word := bitsWord ((s.spareSlots trunk).map s.spareIsFree)

/-- The spare-free registers follow. -/
def State.spareShow (s : State) : State :=
  forAll (List.range 4) (fun t st => st.wr (Reg.slcSpareFree t) (st.spareFreeWord t)) s

/-! ### Violations (R267, R268, R271) -/

/-- A violation of R267 of a node on a channel: counted, and logged as the first of a run. -/
def State.edgeViol (s : State) (n : Nat) (b : Bool) (cause : Nat) (arr : Int) : State :=
  let l := (s.node n).link b
  let s1 := (s.updLink n b (fun x => { x with violNow := true })).count Reg.slcEdgeCnt
  let s2 := (s1.count (Reg.slcNodeEdgeCnt n)).wr Reg.slcLastEdge
    (w32 (n % 256 * 2 ^ 24 + b2n b * 2 ^ 23 + cause % 8 * 2 ^ 20 + u16 arr))
  if l.edgeRun ∨ l.violNow then s2 else s2.event 0x0E02 [.h n, .h (b2n b), .h cause, .i arr]

/-- A violation of a coupler's bundle frame: it names the frame's first node, whose own count does not move. -/
def State.bundleViol (s : State) (n : Nat) (b : Bool) (cause : Nat) (arr : Int) : State :=
  let s1 := (s.count Reg.slcEdgeCnt).wr Reg.slcLastEdge
    (w32 (n % 256 * 2 ^ 24 + b2n b * 2 ^ 23 + cause % 8 * 2 ^ 20 + u16 arr))
  s1.event 0x0E02 [.h n, .h (b2n b), .h cause, .i arr]

/-- An arrival offset of a node is measured. -/
def State.arrSeen (s : State) (n : Nat) (b : Bool) (arr : Int) : State :=
  s.updLink n b (fun x => { x with arr := arr, arrNow := true })

/-- A transmission while no window of the port is open: cut, and at a direct node's port a violation of that node (R267). -/
def State.babble (s : State) (p : Nat) : State :=
  let s1 := (s.count Reg.slcBabbleCnt).event 0x0E07 [.h p]
  match s1.directNode (p % 4) with
  | some n => s1.updLink n (decide (4 ≤ p)) (fun x => { x with violNow := true })
  | none => s1

/-- BABBLE: a transmission is active at a port while no window of that port is open. -/
def execBabble (p : Nat) (s : State) : Host.Outcome State Fault Refusal :=
  let open_ := (s.slotsOn false s.cyc.n).any (fun q => decide (q.2.trunk = p % 4) &&
    decide (s.cyc.c0 + q.2.start * 1024 ≤ s.now ∧ s.now ≤ s.cyc.c0 + q.2.start * 1024 + s.guard))
  if 8 ≤ p ∨ open_ then .next s else .next (s.babble p)

/-! ### Links of trunk ports (R281, R284) -/

/-- A port loses block lock: a frame being received fails from there on. -/
def State.linkDown (s : State) (p : Nat) : State :=
  let x := s.port p
  let s1 := s.setPort p { x with link := false, downCnt := min 255 (x.downCnt + 1) }
  let s2 := (s1.wrBit (Reg.slcPortStat p) 31 false).wrFld (Reg.slcPortStat p) 23 16 (min 255 (x.downCnt + 1))
  let s3 : State := { s2 with slc := { s2.slc with rx := s2.slc.rx.map (fun q =>
    if q.1 = p then (q.1, { q.2 with endAt := some (match q.2.endAt with | some t => min t s.now | none => s.now) }) else q) } }
  s3.event 0x0E0B [.h p]

/-- LINK_DOWN: a trunk port loses block lock. -/
def execLinkDown (p : Nat) (s : State) : Host.Outcome State Fault Refusal :=
  if 8 ≤ p ∨ (s.port p).link = false then .next s else .next (s.linkDown p)

/-- LINK_UP: a trunk port has held block lock for 1 ms. -/
def execLinkUp (p : Nat) (s : State) : Host.Outcome State Fault Refusal :=
  let x := s.port p
  if 8 ≤ p ∨ x.link then .next s
  else .next (((s.setPort p { x with link := true }).wrBit (Reg.slcPortStat p) 31 true).event 0x0E0C [.h p])

/-! ### Received frames (R254, R257, R267) -/

/-- How a frame at a port is judged. -/
inductive RxVerdict where
  | drop | babble | edge (slot : Nat) (e : SlotEnt) (cause : Nat) (arr : Int) | take (slot : Nat) (e : SlotEnt) (h : Hdr) (arr : Int)
deriving DecidableEq, Repr

/-- The slot a frame's header names is an uplink slot of the port's trunk, active in the present cycle. -/
def State.rxSlot (s : State) (p : Nat) (h : Hdr) : Option SlotEnt :=
  let e := s.slotEnt h.slot
  if h.slot < s.slotCount ∧ e.down = false ∧ e.trunk = p % 4 ∧ e.active s.cyc.n = true ∧ h.cycle = s.cyc.n % 2 ^ 32 ∧
      h.chanB = decide (4 ≤ p) then some e else none

/-- The length of the window of a frame: JOIN_W for a join request at a direct node's port, else G (R267). -/
def State.rxWindow (s : State) (join direct : Bool) : Nat :=
  if join && direct then s.rdFld Reg.slcTiming 31 16 * 16384 else s.guard

/-- The slot belongs to nodes whose star is the trunk port itself (R265). -/
def State.slotDirect (s : State) (e : SlotEnt) : Bool :=
  if e.kind = 0 then
    match s.recsOf e with
    | r :: _ => decide ((s.nodeEnt r.node).level = 0)
    | [] => false
  else if e.kind = 1 then decide ((s.nodeEnt e.pair).level = 0)
  else (s.directNode e.trunk).isSome

/-- The node that a slot's violation is charged to. -/
def State.slotNode (s : State) (e : SlotEnt) : Nat :=
  if e.kind = 0 then ((s.recsOf e).map (·.node)).headD 0
  else if e.kind = 1 then e.pair
  else (s.directNode e.trunk).getD 0

/-- Judges a frame whose start is now: foreign frames, the header, the window (R254, R257, R267). Detectors 0x0A, 0x0C and
0x0D make it fail (R515, R537). -/
def State.rxJudge (s : State) (p : Nat) (fr : List Byte) : RxVerdict × State :=
  let iD := s.inject 0x0D p
  let s0 := iD.2
  if iD.1 then
    let s1 := if (s0.port p).link then s0.linkDown p else s0
    (.drop, s1.setPort p { s1.port p with lockAt := s.now + msU })
  else if s.now < (s.port p).lockAt then (.drop, s0)
  else
    let h := readHdr fr
    if foreign (s.rdFld Reg.slcCfg 31 16) s.glb.id fr then (.drop, s0.count Reg.slcForeignCnt)
    else
      let iA := s0.inject 0x0A p
      let iC := iA.2.inject 0x0C p
      let s1 := iC.2
      if h.ok = false ∨ iA.1 then (.drop, s1.count Reg.slcHdrErrCnt)
      else match s.rxSlot p h with
        | none => (.babble, s1)
        | some e =>
          let w := s.rxWindow (decide (h.ftype = 5)) (s.slotDirect e)
          let t0 := s.cyc.c0 + e.start * 1024
          let mid := if h.ftype = 5 then t0 else t0 + s.guard / 2
          let arr := satArr (((s.now : Int) - mid) / 16384)
          if iC.1 ∨ s.now < t0 then (.edge h.slot e 2 arr, s1)
          else if t0 + w < s.now then (.edge h.slot e 3 arr, s1)
          else (.take h.slot e h arr, s1)

/-- A frame cut at its window (R267, R268): a direct node's arrival offset is measured all the same. -/
def State.rxEdge (s : State) (p : Nat) (e : SlotEnt) (cause : Nat) (arr : Int) : State :=
  let b := decide (4 ≤ p)
  let n := s.slotNode e
  if s.slotDirect e then (s.arrSeen n b arr).edgeViol n b cause arr else s.bundleViol n b cause arr

/-- The arrival offset that TCORR_L1 and TCORR_L2 use (R269): of the coupler whose nodes the slot holds. -/
def State.couplerArr (s : State) (p : Nat) (e : SlotEnt) (arr : Int) : State :=
  let lv := ((s.recsOf e).map (fun r => (s.nodeEnt r.node).level)).headD 0
  let x := s.port p
  if lv = 1 then s.setPort p { x with cplArr1 := arr }
  else if lv = 2 then s.setPort p { x with cplArr2 := arr }
  else s

/-- An admitted bundle frame: kept, so that its records land (R257). A frame longer than its slot is truncated at the slot
end (R267). -/
def State.rxBundle (s : State) (p slot : Nat) (e : SlotEnt) (h : Hdr) (arr : Int) (fr : List Byte) (fcsOk : Bool) : State :=
  let b := decide (4 ≤ p)
  let n := s.slotNode e
  let iB := s.inject 0x0B p
  let s1 := if fcsOk then iB.2 else iB.2.count Reg.slcFcsErrCnt
  let s2 := if s.slotDirect e then s1.arrSeen n b arr else s1.couplerArr p e arr
  let slotLen := ((s.recsOf e).map (fun r => ulLen r.ext)).sum
  let endT := s.cyc.c0 + e.start * 1024 + wireTime (frameOver + slotLen) + s.guard
  let long := decide (endT < s.now + wireTime (1 + fr.length + 4))
  let f : RxFrame := { slot := slot, cycle := h.cycle, count := h.count, arr := arr, body := fr.drop 24, start := s.now,
                       endAt := if long then some endT else none, bad1 := iB.1 }
  let s3 : State := { s2 with slc := { s2.slc with rx := Tab.put s2.slc.rx p f } }
  if long then s3.rxEdge p e 4 arr else s3

/-! ### Safe frames (R262, R374) -/

/-- A safe frame is passed to SFI and its PDU judged. Detector 0x1F makes the copy fail its SCRC. -/
def State.rxSafe (s : State) (slot : Nat) (e : SlotEnt) (fr : List Byte) : State :=
  let body := (fr.drop 24).take e.body
  let i := s.inject 0x1F 0
  let bytes := if i.1 then body.map (fun x => ~~~x) else body
  match s.safety.conns.zipIdx.find? (fun q => decide (q.1.down = false ∧ q.1.slot = slot ∧ q.1.node = e.pair)) with
  | some q => i.2.sfiCopy q.2 q.1 bytes
  | none => i.2

/-! ### Coupler status (R279) -/

/-- A coupler status frame: logged, and what it reports kept. -/
def State.rxCplStat (s : State) (p : Nat) (h : Hdr) (fr : List Byte) : State :=
  let b := (fr.drop 24).take 48
  if recOk h.cycle true b = false then s.count Reg.slcRecErrCnt
  else
    let lv := leAt b 0 1
    let t := p % 4
    let r : CplRep := { trunk := t, chanB := decide (4 ≤ p), level := lv, result := leAt b 1 1, active := leAt b 4 4
                        staged := leAt b 8 4 }
    let s1 : State := { s with slc := { s.slc with
      reps := r :: s.slc.reps.filter (fun q => !decide (q.trunk = t ∧ q.chanB = r.chanB ∧ q.level = lv)) } }
    let s2 := s1.wrFld (Reg.slcPortStat p) 29 28 (max (s1.rdFld (Reg.slcPortStat p) 29 28) (min lv 2))
    let s3 := if lv = 1 then s2.setPort p { s2.port p with chain := leAt b 20 4 / 16 } else s2
    s3.event 0x0E0D [.h t, .h (b2n r.chanB), .h lv, .h r.result]

/-! ### Joining (R271, R274 to R277) -/

/-- A word of the registers that a staged configuration loads for this controller, as it would stand. -/
def State.stagedReg (s : State) (a : Nat) : Word :=
  match s.cfl.staged with
  | none => s.rd a
  | some (body, _) =>
    match (body.regsOf s.glb.id).reverse.find? (fun q => decide (q.1 = a)) with
    | some q => q.2
    | none => s.rd a

/-- The staged epoch changes the node's table entry (R276). -/
def State.entryChanges (s : State) (n : Nat) : Bool :=
  s.cfl.staged.isSome && (List.range 4).any (fun k => decide (s.stagedReg (Reg.slcNodeTab (4 * n + k)) ≠ s.rd (Reg.slcNodeTab (4 * n + k))))

/-- RESULT of a join request: the first condition of R276 that holds. -/
def State.joinResult (s : State) (n : Nat) (b : Bool) (typ trunk : Nat) : Nat :=
  let e := s.nodeEnt n
  let l := (s.node n).link b
  let st := s.glb.st
  if ¬ (st = .sync ∨ st = .ready ∨ st = .run ∨ st = .degraded) ∨ s.entryChanges n then 5
  else if e.described = false then 1
  else if e.typ ≠ 0 ∧ e.typ ≠ typ then 3
  else if l.st = .joining ∨ l.st = .joined then 2
  else if e.spareBound ∧ (s.node n).spare = none ∧ ((s.spareSlots trunk).filter s.spareIsFree).length ≤ 1 then 4
  else 0

/-- Slots of a direction in which a node has records, with those records. -/
def State.nodeSlots (s : State) (down : Bool) (n : Nat) : List (SlotEnt × List RecEnt) :=
  ((List.range s.slotCount).map s.slotEnt).filterMap (fun e =>
    let rs := (s.recsOf e).filter (fun r => decide (r.node = n))
    if e.down = down ∧ rs ≠ [] then some (e, rs) else none)

/-- The JOIN_ACK body for a request accepted through slot `k`, or refused (R277). -/
def State.joinAck (s : State) (n result k recs : Nat) (arr asym : Int) : List Byte :=
  let e := s.nodeEnt n
  let up := s.nodeSlots false n
  let dn := s.nodeSlots true n
  let half0 := up.filter (fun q => !q.1.half)
  let half1 := up.find? (fun q => q.1.half)
  let mine := (half0.flatMap (fun q => q.2)) 
  let start := if e.spareBound then (s.slotEnt k).start else e.nslot
  let cm := fun (sub : Nat) => ((half0.find? (fun q => q.2.any (fun r => decide (r.sub = sub)))).map (fun q => q.1.cmask)).getD 0
  let tail := match half1, half0 with
    | some h, q :: _ => leBytes 4 (start + (h.1.start - q.1.start)) ++ leBytes 4 (cm 2 + cm 3 * 65536)
    | _, _ => (List.range 4).flatMap (fun sub => leBytes 2 (cm sub))
  joinAckBody (s.cyc.n % 2 ^ 32) n result (if mine = [] then recs else mine.length) (mine.any (·.ext))
    (dn.any (fun q => q.2.any (·.ext))) half1.isSome e.actEntries start ((arr * 8) % 2 ^ 32).toNat (asym % 2 ^ 32).toNat
    ((s.cyc.n + 4) % 2 ^ 32) tail

/-- A join request in spare slot `k` is checked and its answer waits for the paired downlink slot (R275, R276). -/
def State.rxJoin (s : State) (p k : Nat) (e : SlotEnt) (h : Hdr) (arr0 : Int) (fr : List Byte) : State :=
  let b := (fr.drop 24).take 48
  let chB := decide (4 ≤ p)
  if recOk h.cycle true b = false then s.count Reg.slcRecErrCnt
  else
    let n := leAt b 0 1
    let ent := s.nodeEnt n
    let arr := if s.slotDirect e then arr0 else sgn 16 (leAt b 2 2)
    let asym := ent.asym + sgn 32 (leAt b 16 4)
    let r := s.joinResult n chB (leAt b 4 4) (p % 4)
    let ack : JoinAck := { slot := e.pair, port := p, node := n, body := s.joinAck n r k (leAt b 20 1) arr asym }
    let s1 : State := { s with slc := { s.slc with acks := s.slc.acks ++ [ack] } }
    if r ≠ 0 then (s1.count Reg.slcJoinRefCnt).event 0x0E06 [.h n, .h (b2n chB), .h r]
    else
      let x := s1.node n
      let l : NodeLink := { x.link chB with
        st := .joining, actCycle := s.cyc.n + 4, waited := 0, viol := 0, silent := 0, again := (leAt b 1 1).testBit 0
        rejoin := false, fenceDue := 0, arr := arr, arrNow := true }
      let y : NodeRt := { x.setLink chB l with
        serial := leAt b 8 8, typ := leAt b 4 4, asym := asym
        spare := if ent.spareBound then some (x.spare.getD k) else none }
      ((s1.setNode n y).count Reg.slcJoinCnt).spareShow

/-- A frame from its MAC header to before its FCS begins at a port: judged and passed on by its type. -/
def State.rxFrame (s : State) (p : Nat) (fr : List Byte) (fcsOk : Bool) : State :=
  let r := s.rxJudge p fr
  match r.1 with
  | .drop => r.2
  | .babble => r.2.babble p
  | .edge _ e cause arr => r.2.rxEdge p e cause arr
  | .take k e h arr =>
    match h.ftype with
    | 2 => r.2.rxBundle p k e h arr fr fcsOk
    | 4 => if e.kind = 1 then r.2.rxSafe k e fr else r.2
    | 5 => if e.kind = 2 then r.2.rxJoin p k e h arr fr else r.2
    | 8 => if e.kind = 2 then r.2.rxCplStat p h fr else r.2
    | _ => r.2

/-- A row that names a frame type takes frames of that type alone. -/
def State.rxRow (s : State) (ftype p : Nat) (fr : List Byte) (fcsOk : Bool) : State :=
  if 8 ≤ p ∨ s.cyc.running = false ∨ leAt fr 14 1 ≠ ftype then s else s.rxFrame p fr fcsOk

/-- UL_BUNDLE_FRAME: an uplink bundle frame begins at a trunk port (R257, R267). -/
def execUlBundleFrame (p : Nat) (fr : List Byte) (fcsOk : Bool) (s : State) : Host.Outcome State Fault Refusal :=
  .next ((s.touch 3 0).rxRow 2 p fr fcsOk)

/-- SAFE_FRAME: an uplink SAFE frame arrives at a trunk port. -/
def execSafeFrame (p : Nat) (fr : List Byte) (s : State) : Host.Outcome State Fault Refusal := .next (s.rxRow 4 p fr true)

/-- JOIN_REQ: a join request arrives at a trunk port. -/
def execJoinReq (p : Nat) (fr : List Byte) (s : State) : Host.Outcome State Fault Refusal := .next (s.rxRow 5 p fr true)

/-- CPL_STAT: a coupler status frame arrives at a trunk port. -/
def execCplStat (p : Nat) (fr : List Byte) (s : State) : Host.Outcome State Fault Refusal := .next (s.rxRow 8 p fr true)

/-! ### Records (R253, R257, R259, R264, R268, R273) -/

/-- The close of the window that judges a position: 0 for the base window, 1 and 2 for the halves of class C2. -/
def State.closeOf (s : State) (e : SlotEnt) (r : RecEnt) : Nat :=
  if r.io = false ∧ (s.desc r.axis).c2 then (if e.half then 2 else 1) else 0

/-- The half of a position. -/
def State.halfOf (s : State) (e : SlotEnt) (r : RecEnt) : Nat := if s.closeOf e r = 2 then 1 else 0

/-- What has landed at a record map entry. -/
def State.landed (s : State) (r : Nat) : Landed := Tab.get {} s.slc.landed r
/-- Puts what has landed. -/
def State.setLanded (s : State) (r : Nat) (x : Landed) : State :=
  { s with slc := { s.slc with landed := Tab.set {} s.slc.landed r x } }

/-- An I/O record feeds the signals of its map (R264): place 0 POS low, 1 POS high, 2 EDGE_AGE, 3 to 10 AUX. -/
def State.ioFeed (s : State) (m : Nat) (u : UlRec) : State :=
  let field := fun (f : Nat) => match f with
    | 0 => loW (dInt u.pos)
    | 1 => hiW (dInt u.pos)
    | 2 => w32 u.age
    | k => u.aux.getD (k - 3) 0
  { s with sigs := (Tab.get [] s.ctrl.ioMaps m).foldl (fun t q => Tab.set 0 t q.2 (field q.1)) s.sigs }

/-- A record of an axis's node gives feedback at the S of its half (R36, R87). A node that flags its position invalid causes
POS_INVALID with cause NODE. -/
def State.axisFeed (s : State) (a half : Nat) (u : UlRec) (rb : List Byte) : State :=
  let d := s.desc a
  let s1 := s.updAxis a (fun x => { x with
    aux := u.aux, nodeReady := u.ready, mapCrc := (crc32c rb).toNat })
  if d.chan.isSome then s1.capLanded a half rb
  else
    let x := s1.axis a
    let t := s1.sampleAt half
    let pos := (dInt (u.pos + x.fbOfs)).toInt
    let e0 : SpeedEst := if x.fbSeen then x.est else { x.est with sPos := pos, refPos := pos, sTime := none }
    let e := ((e0.node pos t (u.age * 1024) x.fbTime).atS { d.speed with estep := 0 } t (some pos))
    let first := !x.fbSeen
    let s2 := s1.updAxis a (fun y => { y with est := e, bound := e.bound, still := e.standstill, nodeInv := u.posInv })
    let s3 := if u.posInv then
        let s4 := if x.posValid then (s2.axNote a 0x0809).event 0x0809 [.h (0x8000 + a), .h 7] else s2
        if x.posValid then ((s4.posLost a).addCond a 0x0809).updAxis a (fun y => { y with posValid := false }) else s4
      else if first ∨ x.nodeInv then s2.updAxis a (fun y => { y with posValid := true })
      else s2
    (s3.landFb a half pos e.v).capLanded a half rb

/-- The first valid copy of a record position (R36, R253). -/
def State.firstCopy (s : State) (e : SlotEnt) (r : RecEnt) (u : UlRec) (rb : List Byte) : State :=
  let tol := s.rdFld Reg.slcAsym 7 0
  let x := s.node r.node
  let far := decide (tol < u.chdiff.natAbs)
  let quiet := if far then 0 else min 1024 (x.asymQuiet + 1)
  let y : NodeRt := { x with
    ready := u.ready, posInv := u.posInv, moving := u.moving, trip := u.trip, lastCd := u.chdiff
    asymRun := if far then x.asymRun + 1 else 0, asymQuiet := quiet, asymDone := x.asymDone && decide (quiet < 1024) }
  let s0 := if r.io then s.ioFeed r.axis u
    else if (s.desc r.axis).active s.cyc.n then s.axisFeed r.axis (s.halfOf e r) u rb else s
  (s0.setNode r.node y).wr (Reg.slcNodeDiag r.node) (w32 (u.bridged * 2 ^ 24 + (u.chdiff % 256).toNat * 65536 + u.nstat))

/-- A record that fails its check (R257). -/
def State.recBad (s : State) (n : Nat) (b : Bool) : State :=
  let l := (s.node n).link b
  let s1 := (s.countHalf (Reg.slcNodeBad n) b).count Reg.slcRecErrCnt
  let s2 := s1.updLink n b (fun x => { x with badNow := true })
  if l.badRun ∨ l.badNow then s2 else s2.event 0x0E08 [.h n, .h (b2n b)]

/-- A valid copy of a position on a channel. -/
def State.validCopy (s : State) (b : Bool) (e : SlotEnt) (r : RecEnt) (idx : Nat) (u : UlRec) (rb : List Byte) : State :=
  let l := s.landed idx
  if (if b then l.b else l.a).isSome then s
  else if s.cyc.ulEnd.contains (s.closeOf e r) then s.count Reg.slcLateRecCnt
  else
    let s0 : State := { s with cyc := { s.cyc with land := some s.co } }
    let s1 := s0.updLink r.node b (fun x => { x with validNow := true })
    let s2 := if (s.nodeEnt r.node).level = 0 then s1 else s1.arrSeen r.node b u.arr
    let l1 : Landed := { l with a := if b then l.a else some rb, b := if b then some rb else l.b, first := some (l.first.getD rb) }
    let s3 := s2.setLanded idx l1
    match l.first with
    | none => s3.firstCopy e r u rb
    | some f =>
      if recDiffers f rb = false then s3
      else
        let x := s3.node r.node
        let s4 := (s3.count Reg.slcChdiffCnt).setNode r.node { x with chDiffNow := true }
        if x.chDiffRun ∨ x.chDiffNow then s4 else s4.event 0x0E09 [.h r.node]

/-- A FILL record (R268): the cause and the arrival offset that the coupler measured. -/
def State.fillCopy (s : State) (n : Nat) (b : Bool) (u : UlRec) : State :=
  let s1 := if [2, 3, 4, 5, 7].contains u.nstat then s.arrSeen n b u.arr else s
  if 2 ≤ u.nstat ∧ u.nstat ≤ 4 then s1.edgeViol n b u.nstat u.arr else s1

/-- The node's link admits its records now: JOINED, or JOINING from ACT_CYCLE on (R271). -/
def State.linkAdmits (s : State) (n : Nat) (b : Bool) : Bool :=
  let l := (s.node n).link b
  decide (l.st = .joined) || (decide (l.st = .joining) && decide (l.actCycle ≤ s.cyc.n))

/-- UPLINK_RECORD_LANDED: the last byte of record `k` of the frame being received at a port lands (R36, R253, R257). -/
def execUplinkRecordLanded (p k : Nat) (s : State) : Host.Outcome State Fault Refusal :=
  match s.slc.rx.find? (fun q => decide (q.1 = p)) with
  | none => .next s
  | some (_, f) =>
    let e := s.slotEnt f.slot
    let rs := s.recsOf e
    match rs[k]? with
    | none => .next s
    | some r =>
      let off := ((rs.take k).map (fun q => ulLen q.ext)).sum
      let len := ulLen r.ext
      let t := f.start + wireTime (25 + off + len)
      if f.count ≤ k ∨ f.cycle ≠ s.cyc.n % 2 ^ 32 ∨ s.now < t then .next s
      else
        let b := decide (4 ≤ p)
        let rb := (f.body.drop off).take len
        let u := UlRec.of rb
        let cut := f.endAt.any (fun x => decide (x < t))
        if s.linkAdmits r.node b = false then .next s
        else if cut ∨ recOk f.cycle true rb = false ∨ (f.bad1 = true ∧ k = 0) ∨ u.node ≠ r.node ∨ u.sub ≠ r.sub then
          .next (s.recBad r.node b)
        else if u.fill then .next (s.fillCopy r.node b u)
        else .next (s.validCopy b e r (e.first + k) u rb)

/-! ### The close of the uplink window (R39, R44, R270 to R272) -/

/-- The time of a close of R39: UL_END of the base window, or of a class C2 half. -/
def State.closeAt (s : State) (h : Nat) : Nat :=
  match h with
  | 0 => s.instant Reg.cycUlEnd
  | 1 => s.cyc.c0 + 3200 * nsU
  | _ => s.cyc.c0 + halfU + 3200 * nsU

/-- An axis without feedback in this half (R39, R44). -/
def State.noFeedback (s : State) (a half : Nat) : State :=
  let d := s.desc a
  let n := (s.axis a).noFb + 1
  let s1 := s.updAxis a (fun x => { x with noFb := n, fbExtrap := true, mapCrc := 0 })
  let s2 := (((s1.count Reg.cycExtrapCnt).lateInfo 3 a).mapMark a 1).axEvent a 0x0603 [.w n]
  if d.kind ≠ .thin ∧ n ≤ 2 then s2.makeReady a half true else (s2.lateCmd a).mapMark a 2

/-- The record positions that a close judges, with their record map index; in a spare slot, those of the node that keeps it
(R277). -/
def State.positions (s : State) (h : Nat) : List (Nat × SlotEnt × RecEnt) :=
  (s.slotsOn false s.cyc.n).flatMap (fun q =>
    if q.2.kind = 1 then []
    else ((s.recsOf q.2).zipIdx.map (fun x => (q.2.first + x.2, q.2, x.1))).filter (fun x =>
      (decide (q.2.kind ≠ 2) || decide ((s.node x.2.2.node).spare = some q.1)) &&
      let c := s.closeOf x.2.1 x.2.2
      decide (if h = 0 then c = 0 else c ≠ 0)))

/-- A position at the close (R272): the channels without a valid copy, as a set. -/
def State.missed (s : State) (idx : Nat) : Nat :=
  let l := s.landed idx
  (if l.a.isSome then 0 else 1) + (if l.b.isSome then 0 else 2)

/-- A position without a valid copy is counted. -/
def State.countMiss (s : State) (n m : Nat) : State :=
  let s1 := if m % 2 = 1 then s.countHalf (Reg.slcNodeMiss n) false else s
  let s2 := if 2 ≤ m then s1.countHalf (Reg.slcNodeMiss n) true else s1
  if m = 3 then (s2.count Reg.slcEmptyCnt).count (Reg.slcNodeEmptyCnt n) else s2

/-- A link at the close of an active cycle of its node (R267, R270, R271). -/
def NodeLink.close (l : NodeLink) (n tol : Nat) : NodeLink :=
  let far := l.arrNow && decide (tol < l.arr.natAbs)
  let quiet := if far then 0 else min 1024 (l.trimQuiet + 1)
  { l with
    viol := if l.validNow then 0 else if l.violNow then l.viol + 1 else l.viol
    silent := if l.validNow ∨ l.st ≠ .joined then 0 else l.silent + 1
    waited := if l.st = .joining ∧ l.actCycle ≤ n ∧ l.validNow = false then l.waited + 1 else l.waited
    edgeRun := l.violNow, badRun := l.badNow
    trimRun := if far then l.trimRun + 1 else 0, trimQuiet := quiet, trimDone := l.trimDone && decide (quiet < 1024)
    violNow := false, badNow := false, arrNow := false }

/-- A node at the close: SLOT_EMPTY at the first cycle of a run (R272), and its links. -/
def State.closeNode (s : State) (n mask : Nat) : State :=
  let x := s.node n
  let tol := s.rdFld Reg.slcTiming 15 8
  let y : NodeRt := { x with
    a := x.a.close s.cyc.n tol, b := x.b.close s.cyc.n tol, emptyRun := mask, chDiffRun := x.chDiffNow, chDiffNow := false }
  let s1 := s.setNode n y
  if mask ≠ 0 ∧ mask ≠ x.emptyRun then s1.event 0x0E01 [.h n, .h mask] else s1

/-- Judges the record positions of a close, node by node. -/
def State.judgePositions (s : State) (h : Nat) : State :=
  let ps := s.positions h
  let s1 := forAll ps (fun q st => st.countMiss q.2.2.node (s.missed q.1)) s
  forAll ((ps.map (fun q => q.2.2.node)).eraseDups) (fun n st =>
    st.closeNode n ((ps.filter (fun q => decide (q.2.2.node = n))).foldl (fun m q => m ||| s.missed q.1) 0)) s1

/-- UL_END: the base window (h = 0) or a class C2 half (1, 2) closes (R39, R44, R272). -/
def execUlEnd (h : Nat) (s : State) : Host.Outcome State Fault Refusal :=
  if s.cyc.running = false ∨ 3 ≤ h ∨ s.cyc.ulEnd.contains h ∨ s.now < s.closeAt h then .next s
  else
    let s1 : State := { s with cyc := { s.cyc with ulEnd := h :: s.cyc.ulEnd } }
    let half := if h = 2 then 1 else 0
    let due := s1.axesInUse.filter (fun a =>
      let d := s1.desc a
      let x := s1.axis a
      x.st.runsJobs && d.active s1.cyc.n && (d.c2 == decide (h ≠ 0)) && !x.fbNow.contains half)
    let s2 := forAll due (fun a st => st.noFeedback a half) s1
    .next (if h = 1 then s2 else s2.judgePositions h)

/-! ### Changes of links (R270, R271) -/

/-- N_LOST. -/
def State.nLost (s : State) : Nat := s.rdFld Reg.slcTiming 7 0

/-- PORT_FENCED: 8 violations, or N_LOST silent active cycles: the port is fenced from the next boundary on (R271). -/
def execPortFenced (n : Nat) (b : Bool) (s : State) : Host.Outcome State Fault Refusal :=
  let l := (s.node n).link b
  if l.st ≠ .joined ∨ l.fenceDue ≠ 0 ∨ (l.viol < 8 ∧ l.silent < s.nLost) then .next s
  else
    let cause := if 8 ≤ l.viol then 1 else 2
    let s1 := s.updLink n b (fun x => { x with fenceDue := cause, lastFence := cause })
    .next ((s1.count Reg.slcFenceCnt).event 0x0E03 [.h n, .h (b2n b), .h cause])

/-- A node whose last JOINED channel has left JOINED is lost; a SPARE_BOUND one frees its slot (R271, R277). -/
def State.nodeLost (s : State) (n cause : Nat) : State :=
  let x := s.node n
  if x.a.st = .joined ∨ x.b.st = .joined then s
  else
    let gone := decide (x.a.st ≠ .joining ∧ x.b.st ≠ .joining)
    let s1 := s.setNode n { x with lost := true, spare := if gone then none else x.spare }
    s1.spareShow.event 0x0E04 [.h n, .h cause]

/-- JOIN_TIMEOUT: no valid record within 16 active cycles from ACT_CYCLE (R271). -/
def execJoinTimeout (n : Nat) (b : Bool) (s : State) : Host.Outcome State Fault Refusal :=
  let x := s.node n
  let l := x.link b
  if l.st ≠ .joining ∨ l.waited < 16 then .next s
  else
    let y := x.setLink b { l with st := .absent, waited := 0 }
    let gone := decide (y.a.st = .absent ∨ y.a.st = .fenced) && decide (y.b.st = .absent ∨ y.b.st = .fenced)
    let s1 := (s.setNode n { y with spare := if gone then none else y.spare }).spareShow
    .next ((s1.count Reg.slcJoinRefCnt).event 0x0E06 [.h n, .h (b2n b), .h 6])

/-- TRIM_ALARM: |ARR| has exceeded TRIM_TOL for 16 active cycles (R270). -/
def execTrimAlarm (n : Nat) (b : Bool) (s : State) : Host.Outcome State Fault Refusal :=
  let l := (s.node n).link b
  if l.trimRun < 16 ∨ l.trimDone then .next s
  else .next ((s.updLink n b (fun x => { x with trimDone := true })).event 0x0E0E [.h n, .h (b2n b), .i l.arr])

/-- ASYM_DISAGREE: |CHDIFF| has exceeded ASYM_TOL in 16 records (R270). -/
def execAsymDisagree (n : Nat) (s : State) : Host.Outcome State Fault Refusal :=
  let x := s.node n
  if x.asymRun < 16 ∨ x.asymDone then .next s
  else .next ((s.setNode n { x with asymDone := true }).event 0x0E0A [.h n, .i x.lastCd])

/-- The links of a node at a boundary (R271): JOINING with a valid record becomes JOINED, and fencings take effect. -/
def State.linkBoundary (s : State) (n : Nat) : State :=
  let one := fun (b : Bool) (st : State) =>
    let x := st.node n
    let l := x.link b
    if l.st = .joining ∧ l.validNow then
      (st.setNode n { x.setLink b { l with st := .joined, validNow := false, silent := 0 } with lost := false }).event 0x0E05
        [.h n, .h (b2n b), .h (b2n l.again)]
    else if l.st = .joined ∧ l.fenceDue ≠ 0 then
      (st.setNode n (x.setLink b { l with st := .fenced, fenceDue := 0, rejoin := true, validNow := false })).nodeLost n l.lastFence
    else if l.validNow then st.setNode n (x.setLink b { l with validNow := false }) else st
  one true (one false s)

/-- SLC at a boundary: links change, what landed in the ended cycle is cleared, and the slot open for joining moves on among
the free ones of each trunk (R271, R274). -/
def State.slcBoundary (s : State) : State :=
  let s1 := forAll (s.slc.nodes.map (·.1)) (fun n st => st.linkBoundary n) s
  let idx := (List.range 4).foldl (fun t trunk =>
    let m := (s1.spareSlots trunk).length
    let cur := Tab.get 0 t trunk
    let next := (List.range m).find? (fun d => match (s1.spareSlots trunk)[(cur + 1 + d) % m]? with
      | some k => s1.spareIsFree k
      | none => false)
    match next with
    | some d => Tab.set 0 t trunk ((cur + 1 + d) % m)
    | none => t) s1.slc.joinIdx
  { s1 with slc := { s1.slc with landed := [], rx := [], sent := [], joinIdx := idx, acks := [] } }

/-! ### A (R29, R102) -/

/-- At DL_END the values of the signals of outputs in SIGNAL mode are held (R102). -/
def State.holdSignals (s : State) : State :=
  forAll (List.range 16) (fun k st =>
    if st.foutMode k = 2 then
      st.setFout k { (st.fout k) with sigAt := decide (Tab.get 0 st.sigs (st.rdFld (Reg.dioOutCfg k) 13 0) ≠ 0) }
    else st) s

/-- ACTUATION_INSTANT: at A a fast output in SIGNAL mode takes the value its signal held at DL_END (R102). -/
def execActuationInstant (s : State) : Host.Outcome State Fault Refusal :=
  if s.cyc.running = false ∨ s.cyc.atDone ∨ s.now < s.instant Reg.cycAct then .next s
  else
    let s1 : State := { s with cyc := { s.cyc with atDone := true } }
    .next (forAll (List.range 16) (fun k st =>
      if st.foutMode k ≠ 2 ∨ st.glb.st = .safe ∨ st.glb.st = .fault then st
      else
        let x := st.fout k
        let lvl := x.sigAt
        if x.level = lvl then st
        else (st.setFout k { x with last := some (s.instant Reg.cycAct) }).foutDrive k lvl) s1)

end Sys2Proof.Machine
end

