-- ==== Sys2Proof/Machine/TimeCore.lean ====
section
/-! DEFINITION. Machine/TimeCore.lean: the arithmetic of the time servo and the comparison of clocks (R287 to R303). -/

namespace Sys2Proof.Machine

/-- The nominal increment, 1.25 ns in 2^-48 ns (R287). -/
abbrev incrNom : Nat := 0x0001400000000000

/-- INCR clamped to 1.25 ns x (1 +- 250e-6) (R288). -/
def clampIncr (x : Int) : Nat :=
  (clampI (incrNom - incrNom * 250 / 1000000) (incrNom + incrNom * 250 / 1000000) x).toNat

/-- INCR limited to SLEW_MAX, 100 ppm, about the measured rate, and then to the clamp of TBU (R288). -/
def slewIncr (rate : Nat) (x : Int) : Nat :=
  clampIncr (clampI (rate - incrNom * 100 / 1000000) (rate + incrNom * 100 / 1000000) x)

/-- INCR that removes an offset at SLEW_MAX (R298): slower where the clock is ahead. -/
def slewMax (rate : Nat) (offset : Int) : Nat :=
  if 0 < offset then slewIncr rate 0 else slewIncr rate (2 * incrNom)

/-- The delay d_in used for a Sync (R294), in 2^-16 ns: D_mean + (ASYM_STATIC + L) / 2, the latter in 1/64 ns. -/
def dIn (mpd : Nat) (asym l : Int) : Int := (mpd : Int) * 1024 + (asym + l) * 512

/-- The offset from the master (R294): arrival less origin, correction and d_in. -/
def syncOffset (rx origin : Nat) (corr din : Int) : Int := (rx : Int) - origin - corr - din

/-- The learned term L (R294). -/
def learned (rx tx nrx ntx : Nat) : Int := ((rx : Int) - tx) - ((nrx : Int) - ntx)

/-- The mean path delay of an exchange in 1/64 ns, from 2^-16 ns quantities. -/
def meanDelay (t1 t4 turn : Nat) : Nat := (t4 - t1 - turn) / 2048

/-- The mean of a list of delays. -/
def meanOf (l : List Nat) : Nat := if l = [] then 0 else l.sum / l.length

/-- The key of an announce in the order of R290: the smaller one is the better clock. -/
def Announce.key (a : Announce) : List Nat := [a.p1, a.cls, a.acc, a.var, a.p2, a.id]

/-- Lexicographic order of keys. -/
def lexLt : List Nat → List Nat → Bool
  | [], [] => false
  | [], _ => true
  | _, [] => false
  | x :: xs, y :: ys => if x < y then true else if y < x then false else lexLt xs ys

/-- A better clock; among announces of one lantern, the nearer one and then the smaller sender. -/
def Announce.better (a b : Announce) : Bool :=
  lexLt (a.key ++ [a.steps, a.sender]) (b.key ++ [b.steps, b.sender])

/-- The best of the announces received, with its port. -/
def bestAnn : List (Nat × Announce) → Option (Nat × Announce)
  | [] => none
  | x :: rest =>
    match bestAnn rest with
    | none => some x
    | some y => if y.2.better x.2 then some y else some x

/-- An interval of 2^k seconds for a signed log of k at most 0, in 2^-16 ns. -/
def logInterval (k : Int) : Nat := 1000000000 * 65536 / 2 ^ (-k).toNat

/-- Signed distance from the nearest whole second, in 2^-16 ns. -/
def secDist (t : Nat) : Int :=
  let s := 1000000000 * 65536
  let r := t % s
  if r * 2 < s then r else (r : Int) - s

/-- A distance of 2^-16 ns in units of 0.25 ns and of 1/64 ns. -/
def toQuarter (x : Int) : Int := divRound x 16384
/-- In 1/64 ns. -/
def to64th (x : Int) : Int := divRound x 1024

end Sys2Proof.Machine
end

