-- ==== Sys2Proof/Machine/Time.lean ====
section
/-! DEFINITION. Machine/Time.lean: the time base TBU and its PTP engine (R287 to R310). -/

namespace Sys2Proof.Machine

/-- Changes TBU. -/
def State.updTbu (s : State) (f : Tbu → Tbu) : State := { s with tbu := f s.tbu }
/-- A port of the boundary clock: 0 FB0, 1 FB1, 2 TW. -/
def State.tport (s : State) (p : Nat) : TPort := Tab.get {} s.tbu.ports p
/-- Puts a port, with PSTATE shown. -/
def State.setTport (s : State) (p : Nat) (x : TPort) : State :=
  (s.updTbu (fun t => { t with ports := Tab.set {} t.ports p x })).wrFld (Reg.tbuPortStat p) 30 28 x.pst.code

/-- The link of a port is up. -/
def State.portLink (s : State) (p : Nat) : Bool := if p = 2 then s.twu.link else s.fbr.links.getD p false

/-- TBU_STATE and the lantern's identity follow (R310). -/
def State.tbuShow (s : State) : State :=
  let t := s.tbu
  let passive := (List.range 3).foldl (fun w p => if (s.tport p).pst = .passive then w + 2 ^ p else w) 0
  let s1 := s.wr Reg.tbuState (w32 (t.steps % 256 * 2 ^ 24 + passive * 65536 + s.rdFld Reg.tbuState 10 8 * 256 + t.slave % 4 * 16
    + t.st.code))
  s1.wr64 Reg.tbuLanternLo Reg.tbuLanternHi (BitVec.ofNat 64 t.lantern)

/-- INCR. -/
def State.incr (s : State) : Nat := (s.rd64 Reg.tbuIncrLo Reg.tbuIncrHi).toNat
/-- The servo writes INCR; TBU clamps it (R288). -/
def State.setIncr (s : State) (v : Nat) : State := s.wr64 Reg.tbuIncrLo Reg.tbuIncrHi (BitVec.ofNat 64 (clampIncr v))

/-- The servo steers (R288): the spec gives no control law, so the rate it measures and the correction it chooses are free
within their limits. -/
def State.steer (s : State) : State :=
  let r := s.frees 2
  let rate := clampIncr ((r.1.getD 0 0).toNat : Int)
  (r.2.updTbu (fun t => { t with rate := rate })).setIncr (slewIncr rate ((r.1.getD 1 0).toNat : Int))

/-- A time as it reads after a step. -/
def stepped (d : Int) (t : Nat) : Nat := ((t : Int) + d).toNat

/-- Steps fabric time by a signed amount of 2^-16 ns (R289). What TBU, FBR, CFL and PEM wait for is measured from moments before the
step: those move with the time, so that no wait grows or ends by it. -/
def State.stepTime (s : State) (d : Int) : State :=
  let f := stepped d
  let port := fun (x : TPort) => { x with
    reqAt := x.reqAt.map f, annAt := f x.annAt, sentSync := x.sentSync.map f, sentAnn := x.sentAnn.map f, sentReq := x.sentReq.map f
    sync := x.sync.map (fun y => (y.1, f y.2.1, y.2.2)) }
  { s with
    ft := ((s.ft : Int) + d * 2 ^ 32).toNat
    tbu := { s.tbu with
      lastSync := f s.tbu.lastSync, listenAt := f s.tbu.listenAt, holdAt := f s.tbu.holdAt, ppsOk := s.tbu.ppsOk.map f
      ports := s.tbu.ports.map (fun q => (q.1, port q.2)) }
    fbr := { s.fbr with changed := f s.fbr.changed, alone := s.fbr.alone.map f, sentAt := s.fbr.sentAt.map f }
    cfl := { s.cfl with adoptAt := f s.cfl.adoptAt }
    pem := { s.pem with
      queue := s.pem.queue.map (fun l => { l with at_ := f l.at_ }), admits := s.pem.admits.map (fun a => (f a.1, a.2))
      evalAt := f s.pem.evalAt
      outs := s.pem.outs.map (fun q => (q.1, { q.2 with
        ramp := q.2.ramp.map f, onAt := f q.2.onAt, cuts := q.2.cuts.map f, retryAt := q.2.retryAt.map f })) } }

/-- Interval of a message rate from its signed log field. -/
def State.ptpInterval (s : State) (hi lo : Nat) : Nat := logInterval (sgn 4 (s.rdFld Reg.tbuPtpCfg hi lo))
/-- The announce timeout (R290). -/
def State.annTimeout (s : State) : Nat := s.rdFld Reg.tbuPtpCfg 31 28 * s.ptpInterval 27 24

/-! ### The lantern and the states of ports (R291, R298, R300) -/

/-- The role takes part as a pilot does: TW is SLAVE and the controller is no candidate (R291). -/
def State.pilotish (s : State) : Bool := decide (s.glb.role = .pilot ∨ s.glb.role = .probation ∨ s.glb.role = .unfit)

/-- clockClass announced (R300, R303). -/
def State.ownClass (s : State) : Nat :=
  match s.tbu.annCls with
  | some c => c
  | none =>
    if s.rdFld Reg.tbuPpsCfg 24 23 = 2 ∧ s.tbu.st = .lantern then
      if s.tbu.ppsLost then 7
      else if s.tbu.ppsStep then s.rdFld Reg.tbuPpsParam 23 16
      else s.rdFld Reg.tbuBmc 15 8
    else s.rdFld Reg.tbuBmc 15 8

/-- The controller's own data set (R290, R300). offsetScaledLogVariance is no register and no image field: a free value of
the configuration. -/
def State.ownAnn (s : State) : Announce :=
  { domain := s.rdFld Reg.tbuPtpCfg 7 0, p1 := (s.tbu.annP1.map (·.1)).getD (s.rdFld Reg.tbuBmc 31 24), cls := s.ownClass
    acc := s.rdFld Reg.tbuBmc 7 0, var := Config.clockVariance, p2 := (s.tbu.annP1.map (·.2)).getD (s.rdFld Reg.tbuBmc 23 16)
    id := s.fuses.serial.toNat, steps := 0, sender := s.fuses.serial.toNat }

/-- Announces in force, by port: of a port with a link, within the announce timeout. -/
def State.annsNow (s : State) : List (Nat × Announce) :=
  (if s.pilotish then [2] else if s.glb.role = .lit then [0, 1] else [0, 1]).filterMap (fun p =>
    match (s.tport p).ann with
    | some a => if s.portLink p ∧ s.now < (s.tport p).annAt + s.annTimeout then some (p, a) else none
    | none => none)

/-- The BMCA's choice: the port toward the lantern, or none for the controller itself. -/
def State.bmcaPick (s : State) : Option (Nat × Announce) :=
  match bestAnn s.annsNow with
  | none => none
  | some x => if !s.pilotish && !lexLt x.2.key s.ownAnn.key then none else some x

/-- States of the ports under the present choice (R291). -/
def State.portStates (s : State) : State :=
  let best := bestAnn s.annsNow
  forAll [0, 1, 2] (fun p st =>
    let x := st.tport p
    let mine : Announce := match best with
      | some b => { b.2 with steps := s.tbu.steps, sender := s.fuses.serial.toNat }
      | none => s.ownAnn
    let pst : PtpSt :=
      if st.portLink p = false then .disabled
      else if s.tbu.st = .free then .disabled
      else if s.pilotish then (if p = 2 then .slave else .passive)
      else if p = 2 then (if s.glb.role = .lit then .master else .disabled)
      else if s.tbu.st = .listen then .listening
      else if s.tbu.st = .lantern then .master
      else if s.tbu.slave = p then .slave
      else match s.annsNow.find? (fun q => decide (q.1 = p)) with
        | some q => if q.2.id = s.tbu.lantern ∧ q.2.better mine then .passive else .master
        | none => .master
    st.setTport p { x with pst := pst }) s

/-- The lantern is now the one of an identity, `steps` away: a change is logged (R298, R300). -/
def State.setLantern (s : State) (id steps : Nat) : State :=
  let was := s.tbu.hasLantern && decide (s.tbu.lantern ≠ id)
  let s1 := s.updTbu (fun t => { t with lantern := id, steps := steps, hasLantern := true })
  if was then ((s1.count Reg.tbuLanternCnt).event 0x0501 [.w id, .h steps]).lanternChanged else s1

/-- Fabric time at entry into LANTERN with RUNNING 0 (R305). -/
def State.lanternTime (s : State) : State :=
  if s.cyc.running then s
  else
    let src := s.rdFld Reg.tbuPpsCfg 21 19
    let hi := s.rd Reg.tbuPlantOfsHi
    if src = 1 ∨ src = 2 then
      if bit hi 31 then
        let ofs := sgn 63 (fld hi 30 0 * 2 ^ 32 + (s.rd Reg.tbuPlantOfsLo).toNat)
        s.stepTime (ofs * 65536)
      else ({ s with ft := 0 } : State).event 0x050B []
    else { s with ft := 0 }

/-- HOLDOVER ends (R298). -/
def State.holdExit (s : State) : State :=
  if s.tbu.st = .holdover then s.event 0x0503 [.w ((s.now - s.tbu.holdAt) / msU)] else s

/-- TBU enters LANTERN. -/
def State.toLantern (s : State) : State :=
  let first := decide (s.tbu.st = .listen)
  let s0 := s.holdExit
  let s1 := s0.updTbu (fun t => { t with st := .lantern, slave := 3, good := 0, bad := 0, offset := 0, ppsStep := false })
  let s2 := (s1.setLantern s.fuses.serial.toNat 0).wr Reg.tbuOffset 0
  let s3 := if first then s2.lanternTime else s2
  (s3.updTbu (fun t => { t with ppsOk := some s3.now })).portStates.tbuShow

/-- TBU follows a master on a port (R298): to LOCKING from LISTEN, HOLDOVER and LANTERN, where the first Sync steps the time unless
cycles run (DEDUCED for the latter two, log entry 23); elsewhere only the counts restart where the lantern is another one. -/
def State.toMaster (s : State) (p : Nat) (a : Announce) : State :=
  let same := decide (s.tbu.slave = p ∧ s.tbu.lantern = a.id) && s.tbu.hasLantern
  let lock := decide (s.tbu.st = .listen ∨ s.tbu.st = .holdover ∨ s.tbu.st = .lantern)
  let s1 := if lock then s.holdExit else s
  let s2 := s1.updTbu (fun t => { t with
    st := if lock then .locking else t.st, stepped := t.stepped && !lock, slave := p, good := if same ∧ ¬ lock then t.good else 0
    bad := if same ∧ ¬ lock then t.bad else 0, lastSync := if lock ∨ ¬ same then s.now else t.lastSync })
  (s2.setLantern a.id (a.steps + 1)).portStates.tbuShow

/-- The BMCA runs: after an Announce, and when one times out. -/
def State.bmca (s : State) : State :=
  match s.tbu.st with
  | .free => s
  | .listen => match s.bmcaPick with
    | some x => s.toMaster x.1 x.2
    | none => s.portStates.tbuShow
  | .lantern => match s.bmcaPick with
    | some x => s.toMaster x.1 x.2
    | none => s.portStates.tbuShow
  | .holdover => match s.bmcaPick with
    | some x => s.toMaster x.1 x.2
    | none => if s.pilotish then s else s.toLantern
  | _ => match s.bmcaPick with
    | some x => s.toMaster x.1 x.2
    | none => s

/-- The controller enters DISCOVER: FREE to LISTEN, INCR nominal (R298). -/
def State.tbuListen (s : State) : State :=
  if s.tbu.st ≠ .free then s
  else ((s.updTbu (fun t => { t with st := .listen, listenAt := s.now })).setIncr incrNom).portStates.tbuShow

/-- PTP_ANNOUNCE: an Announce arrives on a port. -/
def execPtpAnnounce (p : Nat) (a : Announce) (s : State) : Host.Outcome State Fault Refusal :=
  if 3 ≤ p ∨ s.portLink p = false ∨ a.domain ≠ s.rdFld Reg.tbuPtpCfg 7 0 ∨ a.sender = s.fuses.serial.toNat then .next s
  else .next (s.setTport p { s.tport p with ann := some a, annAt := s.now }).bmca

/-- ANNOUNCE_TIMEOUT: no better Announce within the announce timeout: the controller becomes the lantern (R298, R305). -/
def execAnnounceTimeout (s : State) : Host.Outcome State Fault Refusal :=
  match s.tbu.st with
  | .listen =>
    if s.pilotish ∨ s.now < s.tbu.listenAt + s.annTimeout ∨ s.bmcaPick.isSome then .next s else .next s.toLantern.syncReady
  | .holdover => .next s.bmca.syncReady
  | _ => .next s

/-! ### Sync (R293, R294, R296, R298) -/

/-- The difference of the offsets through the two fabric ports, at the controller with a PASSIVE port (R296). -/
def State.asymSeen (s : State) : State :=
  let a := s.tport 0
  let b := s.tport 1
  if (a.pst = .passive ∧ b.pst = .slave ∨ a.pst = .slave ∧ b.pst = .passive) ∧ a.ofsSeen ∧ b.ofsSeen then
    let d := toQuarter (a.ofs - b.ofs)
    let far := decide (s.cfl.body.line.asymTol < d.natAbs)
    s.updTbu (fun t =>
      let quiet := if far then 0 else min 1024 (t.asymQuiet + 1)
      { t with asymRun := if far then t.asymRun + 1 else 0, asymQuiet := quiet, asymDiff := d
               asymDone := t.asymDone && decide (quiet < 1024) })
  else s

/-- A Sync's precise origin and correction are complete: the offset through the port, and the servo (R294, R298). -/
def State.syncTake (s : State) (p rx origin : Nat) (corr : Int) : State :=
  let x := s.tport p
  let din := dIn (s.rd (Reg.tbuPortMpd p)).toNat (s.rd (Reg.tbuPortAsymStatic p)).toInt (s.rd (Reg.tbuPortAsymLive p)).toInt
  let o := syncOffset rx origin corr din
  let s1 := ((s.setTport p { x with ofs := o, ofsSeen := true, sync := none }).wr (Reg.tbuPortOfs p) (wInt (to64th o))).asymSeen
  if x.pst ≠ .slave then s1
  else
    let st := s1.tbu.st
    if st = .locking ∧ s1.tbu.stepped = false ∧ s1.cyc.running = false then
      let s2 := s1.stepTime (-o)
      s2.updTbu (fun t => { t with stepped := true, lastSync := s2.now, offset := o, good := 0, bad := 0 })
    else if st = .locking ∨ st = .locked ∨ st = .unsync then
      let q := (toQuarter o).natAbs
      let s2 := (s1.updTbu (fun t => { t with
        lastSync := s.now, offset := o, good := if q ≤ s.rdFld Reg.tbuTol 31 16 then t.good + 1 else 0
        bad := if s.rdFld Reg.tbuTol 15 0 < q then t.bad + 1 else 0 })).wr Reg.tbuOffset (wInt (to64th o))
      if st = .unsync then s2.setIncr (slewMax s2.tbu.rate o) else s2.steer
    else s1

/-- A Sync or Follow_Up concerns this port: its domain and, where a master is known, its sender. -/
def State.syncFits (s : State) (p : Nat) (m : SyncMsg) : Bool :=
  let x := s.tport p
  s.portLink p && decide (m.domain = s.rdFld Reg.tbuPtpCfg 7 0) && decide (x.pst = .slave ∨ x.pst = .passive)
    && (match x.ann with | some a => decide (a.sender = m.sender) | none => true)

/-- PTP_SYNC: a Sync arrives on a port. Detector 0x10 makes three Syncs ignored. -/
def execPtpSync (p : Nat) (m : SyncMsg) (s : State) : Host.Outcome State Fault Refusal :=
  if 3 ≤ p ∨ s.syncFits p m = false then .next s
  else
    let i := s.inject 0x10 p
    let x := i.2.tport p
    let n := if i.1 then 3 else x.ignore
    if n ≠ 0 then .next (i.2.setTport p { x with ignore := n - 1 })
    else if m.twoStep then .next (i.2.setTport p { x with sync := some (m.seq, s.now, m.corr) })
    else .next (i.2.syncTake p s.now m.origin m.corr)

/-- PTP_FOLLOW_UP: the Follow_Up of a two-step Sync arrives. -/
def execPtpFollowUp (p : Nat) (m : SyncMsg) (s : State) : Host.Outcome State Fault Refusal :=
  if 3 ≤ p ∨ s.syncFits p m = false then .next s
  else match (s.tport p).sync with
    | some (q, rx, c) => if q = m.seq then .next (s.syncTake p rx m.origin (c + m.corr)) else .next s
    | none => .next s

/-- TIME_SYNC: |offset| has been within SYNC_TOL at 16 consecutive Syncs (R298). -/
def execTimeSync (s : State) : Host.Outcome State Fault Refusal :=
  let st := s.tbu.st
  if (st = .locking ∨ st = .unsync) ∧ 16 ≤ s.tbu.good then
    .next ((s.updTbu (fun t => { t with st := .locked, bad := 0 })).tbuShow.event 0x0505 [.i (toQuarter s.tbu.offset)]).syncReady
  else .next s

/-- TIME_UNSYNC: |offset| has been above UNSYNC_TOL at 8 consecutive Syncs while cycles run (R298). -/
def execTimeUnsync (s : State) : Host.Outcome State Fault Refusal :=
  let st := s.tbu.st
  if (st = .locking ∨ st = .locked) ∧ 8 ≤ s.tbu.bad ∧ s.cyc.running = true then
    let s1 := ((s.updTbu (fun t => { t with st := .unsync, good := 0 })).tbuShow.count Reg.tbuUnsyncCnt).setIncr
      (slewMax s.tbu.rate s.tbu.offset)
    .next ((s1.event 0x0504 [.i (toQuarter s.tbu.offset)]).degrade 0x0504)
  else .next s

/-- D_mean and L of a port take effect (R294). -/
def State.delayTake (s : State) (p : Nat) : State :=
  let x := s.tport p
  let s1 := match x.mpdNew with
    | some v => s.wr (Reg.tbuPortMpd p) (w32 v)
    | none => s
  let s2 := match x.lNew with
    | some v => s1.wr (Reg.tbuPortAsymLive p) (wInt v)
    | none => s1
  if x.mpdNew.isSome ∨ x.lNew.isSome then s2.setTport p { x with mpdNew := none, lNew := none } else s2

/-- TBU at a boundary: D_mean and L take effect (R294), and with the servo LOCKED again, or the controller become the lantern,
TIME_UNSYNC no longer degrades the controller (R298). -/
def State.tbuBoundary (s : State) : State :=
  let s1 := forAll [0, 1, 2] (fun p st => st.delayTake p) s
  if s1.tbu.st = .locked ∨ s1.tbu.st = .lantern then s1.undegrade 0x0504 else s1

/-- HOLDOVER: INCR stays at its last written value (R298). -/
def State.toHoldover (s : State) (cause : Nat) : State :=
  let s1 := (s.updTbu (fun t => { t with st := .holdover, slave := 3, holdAt := s.now, good := 0, bad := 0 })).tbuShow
  ((s1.count Reg.tbuHoldoverCnt).event 0x0502 [.h cause]).portStates

/-- The cause for HOLDOVER that stands: the link of the SLAVE port, Syncs, Announces, peer delay (R297, R298). -/
def State.holdCause (s : State) : Option Nat :=
  let p := s.tbu.slave
  let x := s.tport p
  if s.tbu.st ≠ .locking ∧ s.tbu.st ≠ .locked ∧ s.tbu.st ≠ .unsync then none
  else if s.portLink p = false then some 3
  else if s.tbu.lastSync + 3 * s.ptpInterval 19 16 ≤ s.now then some 1
  else if x.ann.isNone ∨ x.annAt + s.annTimeout ≤ s.now then some 2
  else if 3 ≤ x.discards then some 4
  else none

/-- HOLDOVER_ENTER: the master is lost. -/
def execHoldoverEnter (s : State) : Host.Outcome State Fault Refusal :=
  match s.holdCause with
  | some c => .next (s.toHoldover c)
  | none => .next s

/-- ASYM_CHECK: the offsets through the two fabric ports have differed by more than ASYM_TOL for 64 Syncs (R296). -/
def execAsymCheck (s : State) : Host.Outcome State Fault Refusal :=
  if s.tbu.asymRun < 64 ∨ s.tbu.asymDone then .next s
  else .next ((s.updTbu (fun t => { t with asymDone := true })).event 0x0509 [.i s.tbu.asymDiff])

/-! ### Peer delay (R290, R292, R294, R297) -/

/-- The port's peer delay runs: its link is up and TBU has left FREE. -/
def State.pdOn (s : State) (p : Nat) : Bool := decide (p < 3) && s.portLink p && decide (s.tbu.st ≠ .free)

/-- A message's interval has passed since it was last sent. -/
def ptpDue (last : Option Nat) (interval now : Nat) : Bool :=
  match last with
  | some t => decide (t + interval ≤ now)
  | none => true

/-- PTP_PDELAY_SEND: a port sends Pdelay_Req at its interval. -/
def execPtpPdelaySend (p : Nat) (s : State) : Host.Outcome State Fault Refusal :=
  let x := s.tport p
  if s.pdOn p = false ∨ ptpDue x.sentReq (s.ptpInterval 23 20) s.now = false then .next s
  else
    let q := (x.reqSeq + 1) % 65536
    .next ((s.setTport p { x with reqSeq := q, reqAt := some s.now, sentReq := some s.now }).send (.ptp p 2 [q]))

/-- PTP_PDELAY_REQ: a Pdelay_Req is answered with the port's latencies (R292). -/
def execPtpPdelayReq (p seq : Nat) (s : State) : Host.Outcome State Fault Refusal :=
  if s.pdOn p = false then .next s
  else .next (s.send (.ptp p 3 [seq, (s.rd (Reg.tbuPortTxLat p)).toNat, (s.rd (Reg.tbuPortRxLat p)).toNat, 1]))

/-- An exchange is discarded (R297). -/
def State.pdFail (s : State) (p : Nat) : State :=
  let x := s.tport p
  ((s.setTport p { x with reqAt := none, discards := x.discards + 1 }).count Reg.tbuPdelayFailCnt).event 0x050A [.h p]

/-- PTP_PDELAY_RESP: the answer to the port's request: D_mean over the last 16 exchanges, and the learned term. While no cycles run there
is no boundary to wait for, and they take effect at once (DEDUCED, log entry 23). -/
def execPtpPdelayResp (p : Nat) (m : PdelayResp) (s : State) : Host.Outcome State Fault Refusal :=
  let x := s.tport p
  match x.reqAt with
  | none => .next s
  | some t1 =>
    if s.pdOn p = false ∨ m.seq ≠ x.reqSeq ∨ m.domain ≠ s.rdFld Reg.tbuPtpCfg 7 0 then .next s
    else if t1 + 10 * msU ≤ s.now then .next s
    else
      let d := meanDelay t1 s.now m.turn
      let filt := meanOf x.hist
      if x.hist ≠ [] ∧ 3200 < ((d : Int) - filt).natAbs then .next (s.pdFail p)
      else
        let hist := (d :: x.hist).take 16
        let nb := m.tlv.getD (0, 0)
        let l := learned (s.rd (Reg.tbuPortRxLat p)).toNat (s.rd (Reg.tbuPortTxLat p)).toNat nb.2 nb.1
        let own : Int := ((s.rd (Reg.tbuPortRxLat p)).toNat : Int) - (s.rd (Reg.tbuPortTxLat p)).toNat
        let s1 := s.setTport p { x with
          hist := hist, mpdNew := some (meanOf hist), lNew := some (if m.tlv.isSome then l else own), reqAt := none, discards := 0 }
        let s2 := s1.wrBit Reg.tbuState (8 + p) m.tlv.isNone
        .next (if s.cyc.running then s2 else s2.delayTake p)

/-- PDELAY_TIMEOUT: no answer within 10 ms (R297). -/
def execPdelayTimeout (p : Nat) (s : State) : Host.Outcome State Fault Refusal :=
  match (s.tport p).reqAt with
  | some t => if p < 3 ∧ t + 10 * msU ≤ s.now then .next (s.pdFail p) else .next s
  | none => .next s

/-! ### Messages sent (R290, R291) -/

/-- PTP_SYNC_SEND: a MASTER port sends Sync and Follow_Up at its interval. -/
def execPtpSyncSend (p : Nat) (s : State) : Host.Outcome State Fault Refusal :=
  let x := s.tport p
  if 3 ≤ p ∨ x.pst ≠ .master ∨ ptpDue x.sentSync (s.ptpInterval 19 16) s.now = false then .next s
  else
    let q := (x.syncSeq + 1) % 65536
    .next (((s.setTport p { x with syncSeq := q, sentSync := some s.now }).send (.ptp p 0 [q])).send (.ptp p 8 [q, s.now]))

/-- The Announce a MASTER port sends: the lantern's data set, the controller's distance and identity. -/
def State.annOut (s : State) : Announce :=
  match s.tbu.st, (s.tport s.tbu.slave).ann with
  | .lantern, _ => s.ownAnn
  | _, some a => { a with steps := s.tbu.steps, sender := s.fuses.serial.toNat }
  | _, none => s.ownAnn

/-- PTP_ANNOUNCE_SEND: a MASTER port sends Announce at its interval. -/
def execPtpAnnounceSend (p : Nat) (s : State) : Host.Outcome State Fault Refusal :=
  let x := s.tport p
  if 3 ≤ p ∨ x.pst ≠ .master ∨ ptpDue x.sentAnn (s.ptpInterval 27 24) s.now = false then .next s
  else
    let a := s.annOut
    .next ((s.setTport p { x with sentAnn := some s.now }).send (.ptp p 11 [a.domain, a.p1, a.cls, a.acc, a.var, a.p2, a.id,
      a.steps, a.sender]))

/-- PTP_MANAGEMENT: management messages are discarded and counted. -/
def execPtpManagement (p : Nat) (s : State) : Host.Outcome State Fault Refusal :=
  if s.portLink p then .next (s.count Reg.tbuMgmtMsgCnt) else .next s

/-! ### PPS (R302, R303) -/

/-- The pin number of PPS_OUT on the wire. -/
abbrev ppsPin : Nat := 0x200

/-- The instant of a rising edge of PPS_OUT that the present clock has reached (R302). -/
def State.ppsInstant (s : State) : Option Nat :=
  let reached := fun (t : Nat) => if s.now ≤ t + s.incr / 2 ^ 32 then some t else none
  match s.rdFld Reg.tbuPpsCfg 31 30 with
  | 1 => reached (s.now / secTicks * secTicks)
  | 2 => if s.cyc.running = true ∧ s.cyc.n % 2 ^ s.rdFld Reg.tbuPpsCfg 29 25 = 0 then reached s.cyc.c0 else none
  | _ => none

/-- PPS_OUT_EDGE: an edge of PPS_OUT is due: the falling edge PPS_WIDTH after the rise, or the next rise. -/
def execPpsOutEdge (s : State) : Host.Outcome State Fault Refusal :=
  let st := s.tbu.st
  let sends := decide (st = .locked ∨ st = .unsync ∨ st = .holdover ∨ st = .lantern)
  let low := (s.updTbu (fun t => { t with ppsHigh := none })).send (.pin ppsPin false)
  match s.tbu.ppsHigh with
  | some t => if sends = false ∨ t + s.rdFld Reg.tbuPpsCfg 18 0 * usU ≤ s.now then .next low else .next s
  | none =>
    match s.ppsInstant with
    | some t =>
      if sends = true ∧ s.tbu.ppsLast ≠ some t then
        .next ((s.updTbu (fun x => { x with ppsHigh := some t, ppsLast := some t })).send (.pin ppsPin true))
      else .next s
    | none => .next s

/-- The lantern is disciplined by PPS_IN. -/
def State.ppsRules (s : State) : Bool := decide (s.rdFld Reg.tbuPpsCfg 24 23 = 2 ∧ s.tbu.st = .lantern)

/-- An accepted edge: it reaches PPS_TICK and the periodic line angles, and PPS_BACK is logged after a loss. -/
def State.ppsAccept (s : State) (t : Nat) (err : Int) : State :=
  let s1 := (s.tick 0x05B).periodicEdges none true t
  if s1.ppsRules then
    let s2 := s1.updTbu (fun x => { x with ppsOk := some t, ppsStep := true, ppsLost := false })
    let s3 := if s1.tbu.ppsLost then s2.event 0x0508 [.i err] else s2
    if s.cyc.running = false ∧ s.tbu.ppsStep = false then s3 else s3.steer
  else s1

/-- PPS_IN_EDGE: an edge of PPS_IN longer than 100 ns (R303). The edge that steps the time leaves SEC (DEDUCED, log entry 23). -/
def execPpsInEdge (rising : Bool) (s : State) : Host.Outcome State Fault Refusal :=
  let mode := s.rdFld Reg.tbuPpsCfg 24 23
  if (mode ≠ 1 ∧ mode ≠ 2) ∨ rising = s.rdBit Reg.tbuPpsCfg 22 then .next s
  else
    let t := (s.now + 8192) / 16384 * 16384
    let step := s.ppsRules && !s.cyc.running && !s.tbu.ppsStep
    let d : Int := if step then ((t % secTicks : Nat) : Int) else secDist t
    let s0 := if step then s.stepTime (-d) else s
    let t1 := if step then ((t : Int) - d).toNat else t
    let err := if step then 0 else toQuarter d
    let v := (timeOf t1).toNat
    let s1 := (((s0.wr Reg.tbuPpsTs0 (w32 v)).wr Reg.tbuPpsTs1 (w32 (v / 2 ^ 32))).wr Reg.tbuPpsTs2 (w32 (v / 2 ^ 64))).wr
      Reg.tbuPpsErr (wInt err)
    if s1.ppsRules ∧ s.rdFld Reg.tbuPpsParam 15 0 < err.natAbs then
      .next ((s1.count Reg.tbuPpsRejCnt).event 0x0506 [.i err])
    else .next (s1.ppsAccept t1 err)

/-- PPS_LOST: no edge accepted for 2 s at a disciplined lantern: the rate is frozen (R303). -/
def execPpsLost (s : State) : Host.Outcome State Fault Refusal :=
  match s.tbu.ppsOk with
  | some t =>
    if s.ppsRules = true ∧ s.tbu.ppsLost = false ∧ t + 2 * secTicks ≤ s.now then
      .next ((s.updTbu (fun x => { x with ppsLost := true })).event 0x0507 [])
    else .next s
  | none => .next s

/-! ### Plant time (R304) -/

/-- PLANT_PTP_EXCHANGE: an exchange on the management port gives plant time less fabric time, in ns; PLANT_OFS is the mean of
the last 16. -/
def execPlantPtpExchange (ofs : Int) (s : State) : Host.Outcome State Fault Refusal :=
  let l := (ofs :: s.tbu.plant).take 16
  let m := (divRound l.sum l.length % 2 ^ 63).toNat
  let s1 := s.updTbu (fun t => { t with plant := l })
  .next ((s1.wr Reg.tbuPlantOfsLo (w32 m)).wr Reg.tbuPlantOfsHi (w32 (m / 2 ^ 32 + (if l.length = 16 then 2 ^ 31 else 0))))

end Sys2Proof.Machine
end

