-- ==== Sys2Proof/Machine/LoadOps.lean ====
section
/-! DEFINITION. Machine/LoadOps.lean: what the loader does inside the block (R420 to R426): candidates, refusals, and the
application of an image's sections. -/

namespace Sys2Proof.Machine

/-- A refusal is recorded (R424, R433): `wher` is WHERE of CFL_REFUSE. A detail the spec does not give is a free value. -/
def State.refuse (s : State) (wher : Nat) (r : Refused) : State :=
  let f := s.free
  let d := r.detail.getD (f.1.toNat % 65536)
  let s0 := match r.detail with
    | some _ => s
    | none => f.2
  let s1 := ((s0.wr Reg.cflRefuse (w32 (r.code * 2 ^ 24 + wher * 2 ^ 20))).wr Reg.cflRefuseDetail (w32 d)).count Reg.cflRefuseCnt
  s1.wrFld Reg.cflStatus 7 0 r.code

/-- A candidate is refused: SIG_FAIL or ROLLBACK where a signature or the security version failed (R407), and IMAGE_REFUSED.
The section and slot that SIG_FAIL names have no stated value where no one section or slot failed. -/
def State.imageRefused (s : State) (wher : Nat) (firm : FirmSec) (r : Refused) : State :=
  let s1 := s.refuse wher r
  let s2 :=
    if r.code = 3 then
      let f := s1.frees 2
      f.2.event 0x0304 [.h (f.1.getD 0 0).toNat, .h (r.detail.getD (f.1.getD 1 0).toNat)]
    else if r.code = 4 then
      if firm.svn < s.fuses.svnMin ∧ firmSigOk s.fuses firm then s1.event 0x0305 [.h firm.svn, .h s.fuses.svnMin]
      else
        let f := s1.frees 2
        f.2.event 0x0304 [.h (f.1.getD 0 0).toNat, .h (f.1.getD 1 0).toNat]
    else s1
  let s3 := s2.event 0x0402 [.h wher, .h r.code, .w (s1.rd Reg.cflRefuseDetail).toNat]
  if wher < 4 then (s3.wrBit (Reg.cflSlotInfo wher) 30 false).wrFld (Reg.cflSlotInfo wher) 23 16 r.code else s3

/-! ### Candidates (R420) -/

/-- The slots that BOOT_SEL permits. -/
def bootSlots (sel : Nat) : List Nat :=
  match sel with
  | 0 => [0, 1, 2, 3]
  | 1 => [0, 1]
  | 2 => [2, 3]
  | _ => []

/-- Slot `a` is tried before slot `b`: by EPOCH, then BUILD, highest first, then slot order. -/
def slotBefore (fl : List (List Byte)) (a b : Nat) : Bool :=
  let x := fl.getD a []
  let y := fl.getD b []
  decide (imgEpoch y < imgEpoch x) || (decide (imgEpoch x = imgEpoch y) && (decide (imgBuild y < imgBuild x)
    || (decide (imgBuild x = imgBuild y) && decide (a < b))))

/-- The next candidate slot not yet tried. -/
def State.nextSlot (s : State) : Option Nat :=
  let l := (bootSlots s.lcu.bootSel).filter (fun k => imgHeaderOk (s.cfl.flash.getD k []) && !s.cfl.tried.contains k)
  l.foldl (fun (b : Option Nat) k => match b with
    | none => some k
    | some j => if slotBefore s.cfl.flash k j then some k else some j) none

/-- The boot ROM reads the headers of the slots that BOOT_SEL permits. -/
def State.readHeaders (s : State) : State :=
  forAll (bootSlots s.lcu.bootSel) (fun k st =>
    let b := st.cfl.flash.getD k []
    if imgHeaderOk b then (st.wrBit (Reg.cflSlotInfo k) 31 true).wr (Reg.cflSlotEpoch k) (w32 (imgEpoch b)) else st) s

/-- LOAD takes its next candidate: an adopted image stands before the flash candidates. With none left the controller enters
FAULT (R408); in flash service mode it holds (R428). -/
def State.loadNext (s : State) : State :=
  if s.lcu.bootSel = 3 then (s.updCfl (fun c => { c with cand := none })).wrBit Reg.cflStatus 31 true
  else match s.nextSlot with
    | some k => s.updCfl (fun c => { c with cand := some { slot := k, bytes := c.flash.getD k [] }, tried := k :: c.tried })
    | none =>
      let s1 := (s.updCfl (fun c => { c with cand := none })).wrFld Reg.lcuBoot 27 24 4
      (s1.wrFld Reg.lcuBoot 31 28 0xF).enterFault 0x0402

/-- Base of the area in which the active image lies (R425). -/
def State.activeArea (s : State) : Nat := if s.rdBit Reg.cflStatus 28 then 0x2000000 else 0
/-- Base of the inactive area. -/
def State.otherArea (s : State) : Nat := if s.rdBit Reg.cflStatus 28 then 0 else 0x2000000

/-! ### Application (R421, R423) -/

/-- Loads registers. -/
def State.loadRegs (s : State) (l : List (Nat × Word)) : State := forAll l (fun p st => st.wr p.1 p.2) s

/-- The fuses as a verified firmware leaves them: COMMIT_SVN raises the minimum (R407). -/
def FirmSec.commits (x : FirmSec) (f : Fuses) : Fuses := { f with svnMin := if x.commit then max f.svnMin x.svn else f.svnMin }

/-- The LINE and FIRMWARE sections take effect. -/
def State.applyLine (s : State) (slot : Nat) (bs : List Byte) (body : ImageBody) : State :=
  let s1 := (s.loadRegs body.line.allRegs).updCfl (fun c => { c with
    body := body, image := bs, loaded := true, slot := slot, applied := false })
  let s2 := s1.putCandle (imgEpoch bs) (candleOf bs)
  { s2 with
    lcu := { s2.lcu with fwSvn := body.firm.svn }
    fuses := body.firm.commits s2.fuses
    pem := { s2.pem with nRetry := body.line.nRetry } }

/-- The controller enters DISCOVER: the energy ledger runs, the lanes are powered up through it (R396, R397), TBU listens, and
what happened before the recorder ran is logged (R394, R406). -/
def State.enterDiscover (s : State) : State :=
  let first := !s.glb.opened
  let s1 := (s.elgStart).setCtl .discover 0
  let s2 := if s1.lcu.rcLogged then s1
    else
      let w := s1.rd Reg.pemResetCause
      let s3 := s1.event 0x0203 [.h (fld w 7 0), .h (fld w 15 8)]
      let s4 := match s3.lcu.lcWas with
        | some old => s3.event 0x0301 [.h old, .h s3.fuses.state]
        | none => s3
      { s4 with lcu := { s4.lcu with rcLogged := true, lcWas := none } }
  let s5 : State := { s2 with pem := { s2.pem with ledgerOn := true }, fbr := { s2.fbr with
    changed := s.now, alone := if s2.fbr.links.any id then none else some s.now } }
  let s6 := if first then
      forAll (List.range 3) (fun k st => st.requestLoad 3 k 45) (forAll (List.range 8) (fun k st => st.requestLoad 2 k 30) s5)
    else s5
  s6.tbuListen

/-- A line angle as its declaration leaves it at LOAD: a virtual master is VALID at ANG0, a periodic one waits for its lock,
any other holds ANG0 until its source is first seen. -/
def laAtLoad (d : LaDecl) : LineAngle :=
  { decl := d, ang := d.ang0, srcAng := d.ang0, lostAng := d.ang0
    st := match d.src with
      | .none => .undeclared
      | .virtual => .valid
      | .periodicFin => .waitLock
      | .periodicPps => .waitLock
      | _ => .held }

/-- ASYM_STATIC of the device's links (R418): the section of its serial, else the one of serial 0, else 0. -/
def ImageBody.asym (b : ImageBody) (serial : Nat) : List Int :=
  match b.devs.find? (fun d => decide (d.serial = serial)) with
  | some d => d.asym
  | none => match b.devs.find? (fun d => decide (d.serial = 0)) with
    | some d => d.asym
    | none => []

/-- An encoder output is switched on through the ledger (R396, R398). -/
def State.encRequest (s : State) (k : Nat) : State :=
  let o := Tab.get {} s.pem.outs k
  s.requestLoad 1 k o.energy

/-- The sections CTRL, SAFETY, DEVICE and DATA of the controller's ID take effect (R421, R423). -/
def State.applyCtrl (s : State) : State :=
  match s.cfl.body.ctrlOf s.glb.id with
  | none => s
  | some c =>
    let s1 := (s.loadRegs c.regs).updCfl (fun x => { x with applied := true })
    let engs : Tab Eng := (List.range 18).map (fun e => (e, ({ st := if e < 16 then .inService else .spare } : Eng)))
    let outs : Tab EncOut := c.encE.zipIdx.filterMap (fun p =>
      if p.1.1 then some (p.2, ({ enabled := true, energy := p.1.2 } : EncOut)) else none)
    let s2 : State := { s1 with
      cea := { s1.cea with p := c.p, y := c.y, library := c.library, order := c.order,
                           engs := if s1.cea.engs = [] then engs else s1.cea.engs }
      lau := { s1.lau with angles := c.las.map (fun p => (p.1, laAtLoad p.2)), tracks := c.tracks, cams := c.cams, trackRt := [] }
      vms := c.las.filterMap (fun p => if p.2.src = .virtual ∧ p.2.ang0 ≠ 0 then
        some (p.1, ({ sp := { p := p.2.ang0 } } : Pgn)) else none)
      sigs := c.sigs, sigPrev := c.sigs
      elg := { s1.elg with lims := c.lims }
      pem := { s1.pem with outs := if s1.pem.outs = [] then outs else s1.pem.outs } }
    let s3 := forAll c.data (fun p st => st.dramWrite p.1 p.2) s2
    let s4 := forAll ((s3.cfl.body.asym s3.fuses.serial.toNat).take 3).zipIdx (fun p st =>
      st.wr (Reg.tbuPortAsymStatic p.2) (wInt p.1)) s3
    let s5 := forAll c.las (fun p st => st.laShow p.1 (st.la p.1)) s4
    let s6 := forAll (if s.pem.outs = [] then outs else []) (fun p st => st.encRequest p.1) s5
    let s7 := forAll c.cams (fun p st => st.setMap (Reg.lauCamMap 0) p.1 true) s6
    s7.spareLevels 1

end Sys2Proof.Machine
end

