-- ==== Sys2Proof/Machine/Power.lean ====
section
/-! DEFINITION. Machine/Power.lean: supplies, resets, the energy ledger, the encoder outputs and the life cycle (R390 to
R412). -/

namespace Sys2Proof.Machine

/-- Changes PEM. -/
def State.updPem (s : State) (f : Pem → Pem) : State := { s with pem := f s.pem }

/-! ### Pins of this chapter (R394) -/

/-- FAULT_N, low until DISCOVER and in SAFE and FAULT. -/
def State.faultN (s : State) : Bool := s.glb.opened && decide (s.glb.st ≠ .safe ∧ s.glb.st ≠ .fault ∧ s.glb.st ≠ .off)

/-! ### Resets (R393, R394, R401) -/

/-- VIN is measured: VIN_MV, VIN_OK and VIN_HIGH of PEM_STATUS (R392, R412). -/
def State.setVin (s : State) (mv : Nat) : State :=
  ((s.wrFld Reg.pemStatus 15 0 mv).wrBit Reg.pemStatus 31 (decide (4350 ≤ mv ∧ mv ≤ 19000))).wrBit Reg.pemStatus 29
    (decide (18500 < mv))

/-- Fused keys take effect at boot (R406). -/
def Fuses.bootKeys (f : Fuses) (l : List (Nat × Nat × Nat)) : Fuses :=
  l.foldl (fun (x : Fuses) k =>
    if k.1 = 2 then { x with oem := x.oem.set k.2.1 (some k.2.2) } else { x with oemRev := x.oemRev.set k.2.1 true }) f

/-- A fresh nonce (R401, R404): 32 random bytes, each word a free value. -/
def State.newNonce (s : State) : State :=
  let r := s.frees 8
  forAll r.1.zipIdx (fun p st => st.wr (Reg.lcuNonce p.2) (loW p.1)) r.2

/-- What a reset leaves: everything as at reset but the fuses, flash, PEM_STATUS, PEM_RESET_CAUSE and, until the wipe of WIPE,
DRAM. ACT, the safe outputs and PPS_OUT drop; DRAM_PWR_EN falls with the resets of codes 1 to 4 (R394). -/
def State.afterReset (s : State) (code rail : Nat) : State :=
  let drops := (if s.twu.act then [WireOut.pin 0 false] else [])
    ++ (s.sfi.outs.filter (fun p => p.2.on)).flatMap (fun p =>
      [WireOut.pin (outPin p.1 false) false, WireOut.pin (outPin p.1 true) false])
    ++ (if s.tbu.ppsHigh.isSome then [WireOut.pin ppsPin false] else [])
  let f := s.fuses.bootKeys s.lcu.keyPend
  let r : State := { State.reset with
    pending := s.pending, freeCtr := s.freeCtr, wire := drops.reverse ++ s.wire, dram := s.dram, fuses := f
    cfl := { flash := s.cfl.flash, peers := s.cfl.peers }
    pem := { dramPwr := decide (5 ≤ code) && s.pem.dramPwr }
    lcu := { lcWas := s.lcu.lcWas, bootSel := s.lcu.bootSel }
    twu := { wasUnfit := decide (5 ≤ code) && (decide (s.glb.role = .unfit ∨ s.glb.role = .lit) || s.twu.wasUnfit) } }
  let r1 := ((r.wr Reg.pemStatus (s.rd Reg.pemStatus)).wrBit Reg.pemStatus 30 false).wr Reg.pemResetCause (w32 (rail * 256 + code))
  if f.variant = 2 then r1.wr Reg.hlmThermCfg 0x2F8 else r1

/-- BOOT begins: BOOT_SEL is sampled, DRAM_PWR_EN raised and a new nonce drawn (R391). -/
def State.bootBegin (s : State) (sel : Nat) : State :=
  let g : Glb := { s.glb with st := .boot }
  let s1 : State := { s with glb := g, lcu := { s.lcu with bootSel := sel % 4 }, pem := { s.pem with dramPwr := true } }
  (s1.wrFld Reg.lcuBoot 1 0 sel).newNonce

/-- A reset that leaves the rails alone: BOOT begins at once. Of two causes in one clock the lower code is recorded (R393, R409). -/
def State.resetBoot (s : State) (code sel : Nat) : State :=
  let was := s.rdFld Reg.pemResetCause 7 0
  (s.afterReset (if s.clk = 0 ∧ s.glb.st = .boot ∧ 0 < was then min was code else code) 0).bootBegin sel

/-- A reset that restarts the rails, or is held: OFF. -/
def State.resetOff (s : State) (code rail : Nat) : State :=
  let r := s.afterReset code rail
  { r with glb := { r.glb with st := .off } }

/-- POWER_ON: VIN has been at or above 4.35 V, and at most 19.0 V, for 10 ms (R391, R392). `por` tells that VIN rose from below
2.5 V. -/
def execPowerOn (mv : Nat) (por : Bool) (sel : Nat) (s : State) : Host.Outcome State Fault Refusal :=
  if s.glb.st ≠ .off ∨ s.pem.tHeld ∨ mv < 4350 ∨ 19000 < mv then .next s
  else
    let s1 := s.setVin mv
    let s2 := (s1.wrFld Reg.pemStatus 28 26 7)
    .next ((if por then s2.wr Reg.pemResetCause 1 else s2).bootBegin sel)

/-- BROWNOUT: VIN below 4.20 V. -/
def execBrownout (mv : Nat) (s : State) : Host.Outcome State Fault Refusal :=
  if s.glb.st = .off ∨ 4200 ≤ mv then .next s else .next ((s.setVin mv).resetOff 2 0)

/-- OVERVOLT: VIN above 20.0 V. -/
def execOvervolt (mv : Nat) (s : State) : Host.Outcome State Fault Refusal :=
  if s.glb.st = .off ∨ mv ≤ 20000 then .next s else .next ((s.setVin mv).resetOff 3 0)

/-- A rail (1 CORE, 2 IO, 3 AUX) is out of its window. -/
def State.railTrip (s : State) (rail : Nat) : State := (s.wrBit Reg.pemStatus (29 - rail) false).resetOff 4 rail

/-- RAIL: CORE, IO or AUX is outside 8 % of nominal. -/
def execRailReset (rail : Nat) (s : State) : Host.Outcome State Fault Refusal :=
  if s.glb.st = .off ∨ rail = 0 ∨ 3 < rail then .next s else .next (s.railTrip rail)

/-- THERMAL: a sensor has been above Tj maximum + 10 degrees for 1 ms; the reset is held. -/
def execThermalReset (s : State) : Host.Outcome State Fault Refusal :=
  if s.glb.st = .off then .next s else .next ((s.resetOff 5 0).updPem (fun p => { p with tHeld := true }))

/-- THERMAL_RESET_RELEASE: every sensor is below Tj maximum - 5 degrees. -/
def execThermalResetRelease (sel : Nat) (s : State) : Host.Outcome State Fault Refusal :=
  if s.pem.tHeld then .next ((s.updPem (fun p => { p with tHeld := false })).bootBegin sel) else .next s

/-- CLOCK: the crystal or the SYS PLL is lost. -/
def execClockReset (sel : Nat) (s : State) : Host.Outcome State Fault Refusal :=
  if s.glb.st = .off then .next s else .next (s.resetBoot 6 sel)

/-- PIN: RESET_N has been low for `ns` nanoseconds: a reset from 1 us on (R393). -/
def execPinReset (ns sel : Nat) (s : State) : Host.Outcome State Fault Refusal :=
  if s.glb.st = .off ∨ ns < 1000 then .next s else .next (s.resetBoot 7 sel)

/-- A write of PEM_RESET: with the key and GO a SOFT reset. -/
def State.pemReset (s : State) (v : Word) (sel : Nat) : State :=
  if s.glb.st = .off ∨ fld v 31 16 ≠ 0xA5C3 ∨ bit v 0 = false then s else s.resetBoot 8 sel

/-- PEM_RESET: the host writes the register. -/
def execPemReset (v : Word) (sel : Nat) (s : State) : Host.Outcome State Fault Refusal :=
  if s.hostUp then .next (s.pemReset v sel) else .next s

/-- LIFECYCLE_RESET: 1 ms after the fuse writes of a transition (R406). -/
def execLifecycleReset (sel : Nat) (s : State) : Host.Outcome State Fault Refusal :=
  match s.lcu.resetAt with
  | some t => if t ≤ s.now then .next (s.resetBoot 9 sel) else .next s
  | none => .next s

/-! ### BOOT and WIPE (R391, R395, R401) -/

/-- DRAM_TRAINING_DONE: BOOT ends: the fuse check, the read-back of the SRAM wipe and the training of DRAM (R395). In BLANK only
the test ROM runs, and in DEAD the boot ROM halts (R402). The fuse word that FUSE_ERR names is a free value. -/
def execDramTrainingDone (sramOk ok : Bool) (s : State) : Host.Outcome State Fault Refusal :=
  if s.glb.st ≠ .boot ∨ s.fuses.state = 0 ∨ s.fuses.state = 6 then .next s
  else if s.fuses.ok = false then
    let f := s.free
    .next (((f.2.event 0x0307 [.h f.1.toNat]).wrFld Reg.lcuBoot 27 24 1).enterFault 0x0307)
  else if sramOk = false then .next (((s.event 0x0306 [.h 1]).wrFld Reg.lcuBoot 27 24 3).enterFault 0x0306)
  else
    let s1 := s.wrBit Reg.lcuWipe 31 true
    if ok = false then
      let n := s1.lcu.tries + 1
      let s2 : State := { s1 with lcu := { s1.lcu with tries := n } }
      .next (if 3 ≤ n then (s2.wrFld Reg.lcuBoot 27 24 2).enterFault 0 else s2)
    else .next (s1.readHeaders.setCtl .wipe 0)

/-- DRAM_WIPE_DONE: all of DRAM is zero and read back after `ms` milliseconds, or the read-back differs (R401). -/
def execDramWipeDone (ok : Bool) (ms : Nat) (s : State) : Host.Outcome State Fault Refusal :=
  if s.glb.st ≠ .wipe then .next s
  else if ok then
    let s1 : State := { s with dram := [] }
    .next (((s1.wrBit Reg.lcuWipe 30 true).wrFld Reg.lcuWipe 15 0 ms).setCtl .load 0).loadNext
  else .next (((s.event 0x0306 [.h 2]).wrFld Reg.lcuBoot 27 24 3).enterFault 0x0306)

/-! ### Supply monitors (R392) -/

/-- VIN is low: DEGRADED from RUN. -/
def State.vinLowOn (s : State) (mv : Nat) : State :=
  if s.pem.vinLow then s
  else
    let s1 := ((s.updPem (fun p => { p with vinLow := true })).wrBit Reg.pemStatus 30 true).count Reg.pemVinLowCnt
    (s1.event 0x0201 [.h mv]).degrade 0x0201

/-- VIN_LOW: VIN below 4.40 V for 10 us. -/
def execVinLow (mv : Nat) (s : State) : Host.Outcome State Fault Refusal :=
  if s.glb.st = .off ∨ 4400 ≤ mv then .next s else .next ((s.setVin mv).vinLowOn mv)

/-- VIN_LOW_CLEAR: VIN has been at or above 4.45 V for 100 ms. -/
def execVinLowClear (mv : Nat) (s : State) : Host.Outcome State Fault Refusal :=
  if s.pem.vinLow = false ∨ mv < 4450 ∨ s.now < s.pem.vinBadTill then .next s
  else
    let s1 := ((s.setVin mv).updPem (fun p => { p with vinLow := false })).wrBit Reg.pemStatus 30 false
    .next (s1.undegrade 0x0201)

/-- VIN_HIGH: VIN above 18.5 V for 10 us: reported. -/
def execVinHigh (mv : Nat) (s : State) : Host.Outcome State Fault Refusal :=
  if s.glb.st = .off ∨ mv ≤ 18500 then .next s else .next ((s.setVin mv).event 0x0202 [.h mv])

/-! ### Encoder outputs (R398, R399) -/

/-- An encoder output. -/
def State.encOut (s : State) (k : Nat) : EncOut := Tab.get {} s.pem.outs k
/-- Puts an encoder output; ON shows it. -/
def State.setEncOut (s : State) (k : Nat) (o : EncOut) : State :=
  (s.updPem (fun p => { p with outs := Tab.set {} p.outs k o })).wrBit Reg.pemEncStatus k o.on
/-- The output is latched off. -/
def State.encLatched (s : State) (k : Nat) : Bool := s.rdBit Reg.pemEncStatus (24 + k)

/-- A change of an output clears POS_VALID of the channels it feeds whose position a count carries (R70, R398). -/
def State.encFed (s : State) (k : Nat) : State :=
  forAll (List.range 8) (fun c st =>
    if st.rdFld (Reg.eiuMode c) 19 16 = k ∧ encCounts (st.encMode c) then st.posInvalid c 6 else st) s

/-- Cut-offs of an output within the last 10 s. -/
def State.encCuts (s : State) (k : Nat) : List Nat := (s.encOut k).cuts.filter (fun t => decide (s.now < t + 10 * secTicks))

/-- An output is off and stays off until RETRY. -/
def State.encLatch (s : State) (k : Nat) : State :=
  (s.setEncOut k { s.encOut k with on := false, ramp := none, retryAt := none }).wrBit Reg.pemEncStatus (24 + k) true

/-- An output that has been in limit for 8 us is cut off; after N_RETRY cut-offs within 10 s the next one latches it. -/
def State.encCut (s : State) (k : Nat) : State :=
  let o := s.encOut k
  let before := s.encCuts k
  let latch := decide (s.pem.nRetry ≤ before.length)
  let s1 := s.setEncOut k { o with on := false, ramp := none, cuts := s.now :: before, retryAt := some (s.now + 100 * msU) }
  let s2 := (((s1.wrBit Reg.pemEncStatus (16 + k) true).count Reg.pemEncCutCnt).event 0x0205 [.h k, .h (before.length + 1)])
  let s3 := if latch then (s2.encLatch k).event 0x0206 [.h k] else s2
  if o.on then s3.encFed k else s3

/-- ENC_RAMP_END: an output ends its 1 ms ramp and counts as on; ENCV_OUT is then in regulation. -/
def execEncRampEnd (k : Nat) (s : State) : Host.Outcome State Fault Refusal :=
  let o := s.encOut k
  match o.ramp with
  | some t =>
    if s.now < t + msU then .next s
    else .next (((s.setEncOut k { o with ramp := none, on := true, onAt := s.now }).wrBit Reg.pemStatus 25 true).encFed k)
  | none => .next s

/-- ENC_CUT: an output has been in limit for 8 us. -/
def execEncCut (k : Nat) (s : State) : Host.Outcome State Fault Refusal :=
  let o := s.encOut k
  if 8 ≤ k ∨ (o.on = false ∧ o.ramp = none) then .next s else .next (s.encCut k)

/-- ENC_RETRY_DUE: 100 ms after a cut-off the output requests the ledger again. -/
def execEncRetryDue (k : Nat) (s : State) : Host.Outcome State Fault Refusal :=
  let o := s.encOut k
  match o.retryAt with
  | some t => if s.now < t then .next s else .next ((s.setEncOut k { o with retryAt := none }).encRequest k)
  | none => .next s

/-- ENC_OVERVOLT: ENCV_OUT above 5.9 V: every output is cut and latched. -/
def execEncOvervolt (mv : Nat) (s : State) : Host.Outcome State Fault Refusal :=
  if s.glb.st = .off ∨ mv ≤ 5900 then .next s
  else
    let s1 := forAll (List.range 8) (fun k st =>
      let o := st.encOut k
      if o.enabled = false then st
      else
        let st1 := if o.on ∨ o.ramp.isSome then (st.wrBit Reg.pemEncStatus (16 + k) true).count Reg.pemEncCutCnt else st
        let st2 := st1.encLatch k
        if o.on then st2.encFed k else st2) s
    .next ((s1.wrBit Reg.pemStatus 25 false).event 0x0207 [.h mv])

/-- ENC_TOTAL: the output currents together have exceeded 1.2 A for 10 ms. -/
def execEncTotal (ma : Nat) (s : State) : Host.Outcome State Fault Refusal :=
  if s.glb.st = .off ∨ ma ≤ 1200 then .next s else .next (s.event 0x0208 [.h ma])

/-- A write of PEM_ENC_CTRL.RETRY restarts latched outputs through the ledger. -/
def State.encRetry (s : State) (v : Word) : State :=
  forAll (List.range 8) (fun k st =>
    if bit v k ∧ st.encLatched k ∧ (st.encOut k).enabled then (st.wrBit Reg.pemEncStatus (24 + k) false).encRequest k else st) s

/-- ENC_RETRY: the host writes PEM_ENC_CTRL. -/
def execEncRetry (v : Word) (s : State) : Host.Outcome State Fault Refusal :=
  if s.hostUp then .next (s.encRetry v) else .next s

/-! ### The energy ledger (R396, R397) -/

/-- Q_BUDGET in nC. -/
def State.qBudget (s : State) : Nat := s.rdFld Reg.pemLedgerCfg 15 0 * 1000

/-- Charge admitted within the last 1 ms, at times after t - 1 ms. -/
def State.qUsed (s : State) : Nat :=
  ((s.pem.admits.filter (fun p => decide (s.now < p.1 + msU))).map (·.2)).sum

/-- A load is admitted: an encoder output begins its ramp, a lane is powered, a bring-in awaits its boundary. -/
def State.admitLoad (s : State) (l : Load) : State :=
  let s1 := s.updPem (fun p => { p with admits := (s.now, l.charge) :: p.admits.filter (fun q => decide (s.now < q.1 + msU)) })
  match l.row with
  | 1 =>
    let s2 := s1.wrBit Reg.pemEncStatus (8 + l.index) false
    if s2.encLatched l.index ∨ (s2.encOut l.index).enabled = false then s2
    else s2.setEncOut l.index { s2.encOut l.index with ramp := some s.now }
  | 4 => s1.updHlm (fun h => { h with bringIns := admitFirst 1 l.index h.bringIns })
  | 5 => s1.updHlm (fun h => { h with bringIns := admitFirst 2 l.index h.bringIns })
  | r => s1.updPem (fun p => { p with lanes := (16 * r + l.index) :: p.lanes })
where
  /-- Marks the first request of a kind for a unit that is not yet admitted. -/
  admitFirst (kind unit : Nat) : List BringIn → List BringIn
    | [] => []
    | b :: t => if b.kind = kind ∧ b.replaces = unit ∧ b.admitted = false then { b with admitted := true } :: t
      else b :: admitFirst kind unit t

/-- Admits loads from the head of the queue as long as they fit. -/
def State.admitLoop : Nat → State → State
  | 0, s => s
  | n + 1, s =>
    match s.pem.queue with
    | [] => s
    | l :: t =>
      if l.charge + s.qUsed ≤ s.qBudget then State.admitLoop n ((s.updPem (fun p => { p with queue := t })).admitLoad l) else s

/-- The loads left in the queue wait: each is logged once. -/
def State.markWaits (s : State) : State :=
  let s1 := forAll (s.pem.queue.filter (fun l => !l.waited)) (fun l st =>
    let st1 := if l.row = 1 then st.wrBit Reg.pemEncStatus (8 + l.index) true else st
    (st1.count Reg.pemLedgerWaitCnt).event 0x0204 [.h l.row, .h l.index, .w (l.charge / 1000)]) s
  s1.updPem (fun p => { p with queue := p.queue.map (fun l => { l with waited := true }) })

/-- The ledger evaluates. -/
def State.ledgerEval (s : State) : State :=
  if s.pem.ledgerOn = false then s
  else
    let s1 := ((s.admitLoop s.pem.queue.length).markWaits).updPem (fun p => { p with evalAt := s.now })
    s1.wr Reg.pemLedgerStatus (w32 (min (s1.qUsed / 1000) 65535 * 65536 + min s1.pem.queue.length 255 * 256))

/-- LEDGER_EVALUATION: every 10 us the ledger evaluates; with it PEM measures VIN and the output currents, and the monitors
meet what injection makes of them (R397, R412, R515). -/
def execLedgerEvaluation (mv : Nat) (ma : List Nat) (s : State) : Host.Outcome State Fault Refusal :=
  if s.glb.st = .off ∨ s.now < s.pem.evalAt + 10 * usU then .next s
  else
    let s1 := forAll (ma.take 8).zipIdx (fun p st => st.wr (Reg.pemEncMa p.2) (w32 (p.1 % 65536))) (s.setVin mv)
    let i1 := s1.inject 0x1A 0
    let s2 := if i1.1 then
        (i1.2.updPem (fun p => { p with vinBadTill := s.now + 100 * msU })).vinLowOn mv
      else i1.2
    let s3 := forAll (List.range 8) (fun k st =>
      if (st.encOut k).on then
        let r := st.inject 0x19 k
        if r.1 then r.2.encCut k else r.2
      else st) s2
    let rails := [1, 2, 3].foldl (fun (acc : Option Nat × State) r =>
      let i := acc.2.inject 0x1B r
      (if i.1 ∧ acc.1 = none then some r else acc.1, i.2)) (none, s3)
    match rails.1 with
    | some r => .next (rails.2.railTrip r)
    | none => .next rails.2.ledgerEval

/-! ### Life cycle (R402 to R406) -/

/-- The token in LCU_TOKEN. -/
def State.token (s : State) : List Byte := wordBytes ((List.range 52).map (fun n => s.rd (Reg.lcuToken n)))

/-- R403 allows a change of life-cycle state under a kind of key (true Quetric). -/
def lcAllowed (from_ dst : Nat) (q : Bool) : Bool :=
  match from_, dst with
  | 1, 2 => q
  | 2, 3 => !q
  | 3, 4 => !q
  | 4, 3 => !q
  | 2, 5 => !q
  | 3, 5 => !q
  | 4, 5 => !q
  | f, 6 => decide (f ≠ 6)
  | _, _ => false

/-- RESULT of a token: the checks of R405 in order. -/
def State.tokenCheck (s : State) (t : List Byte) : Nat :=
  let op := leAt t 4 1
  let arg := leAt t 5 1
  let key := leAt t 6 1
  let q := decide (128 ≤ key)
  let x := beAt t 80 32
  let y := beAt t 112 32
  let argOk := if op = 1 then decide (arg ≤ 6) else decide (1 ≤ arg ∧ arg ≤ 3)
  let pay := decide (op = 2 ∨ (op = 1 ∧ arg = 2))
  if leAt t 0 4 ≠ 0x4C43544B ∨ op = 0 ∨ 3 < op ∨ argOk = false ∨ key % 128 / 4 ≠ 0 ∨ leAt t 7 1 ≠ 0
      ∨ (pay = false ∧ leAt t 48 32 ≠ 0) then 1
  else if s.glb.st = .run ∨ s.glb.st = .degraded then 2
  else if leAt t 8 8 ≠ s.fuses.serial.toNat then 3
  else if (t.drop 16).take 32 ≠ wordBytes ((List.range 8).map (fun n => s.rd (Reg.lcuNonce n))) then 4
  else if (if q then keySlot s.fuses.quet s.fuses.quetRev (keyHash x y) else keySlot s.fuses.oem s.fuses.oemRev (keyHash x y)).isNone
    then 5
  else if ecdsaOk x y (beAt t 144 32) (beAt t 176 32) (sha256 (t.take 144)) = false then 6
  else if op = 1 ∧ lcAllowed s.fuses.state arg q = false then 7
  else if op = 2 ∧ ((s.fuses.oem.getD arg none).isSome ∨ s.lcu.keyPend.any (fun k => decide (k.1 = 2 ∧ k.2.1 = arg))) then 7
  else if op = 1 ∧ (s.fuses.state = 3 ∨ s.fuses.state = 4) ∧ (arg = 3 ∨ arg = 4) ∧ 32 ≤ s.fuses.toggles then 8
  else 0

/-- The fuses that select a life-cycle state are written (R403, R406). -/
def Fuses.transition (f : Fuses) (dst hash : Nat) : Fuses :=
  let st := f.state
  if (st = 3 ∧ dst = 4) ∨ (st = 4 ∧ dst = 3) then { f with toggles := f.toggles + 1 }
  else
    let f1 : Fuses := { f with lc := dst }
    if dst = 2 then { f1 with oem := f1.oem.set 0 (some hash) }
    else if dst = 5 then { f1 with oemRev := [true, true, true, true] }
    else f1

/-- APPLY: the token in LCU_TOKEN is checked and carried out; the token buffer is cleared and a new nonce drawn. -/
def State.tokenApply (s : State) : State :=
  let t := s.token
  let r := s.tokenCheck t
  let op := leAt t 4 1
  let arg := leAt t 5 1
  let s1 : State :=
    if r ≠ 0 then s.event 0x0302 [.h r]
    else if op = 1 then
      { s with fuses := s.fuses.transition arg (beAt t 48 32),
               lcu := { s.lcu with lcWas := some s.fuses.state, resetAt := some (s.now + msU) } }
    else
      let s2 : State := { s with lcu := { s.lcu with keyPend := s.lcu.keyPend ++ [(op, arg, beAt t 48 32)] } }
      s2.event 0x0303 [.h op, .h arg]
  let s3 := forAll (List.range 52) (fun n st => st.wr (Reg.lcuToken n) 0) (s1.wr Reg.lcuTokenResult (w32 r))
  s3.newNonce

/-- APPLY where the token names the operation of a row. A token of another operation is that row's. -/
def State.tokenRow (s : State) (op : Nat) : State :=
  let o := leAt s.token 4 1
  if s.hostUp = false ∨ (1 ≤ o ∧ o ≤ 3 ∧ o ≠ op) then s else s.tokenApply

/-- TOKEN_TRANSITION: APPLY of a TRANSITION token. -/
def execTokenTransition (s : State) : Host.Outcome State Fault Refusal := .next (s.tokenRow 1)
/-- TOKEN_KEY_ADD: APPLY of a KEY_ADD token. -/
def execTokenKeyAdd (s : State) : Host.Outcome State Fault Refusal := .next (s.tokenRow 2)
/-- TOKEN_KEY_REVOKE: APPLY of a KEY_REVOKE token. -/
def execTokenKeyRevoke (s : State) : Host.Outcome State Fault Refusal := .next (s.tokenRow 3)

end Sys2Proof.Machine
end

