-- ==== Sys2Proof/Machine/Loader.lean ====
section
/-! DEFINITION. Machine/Loader.lean: candidates and their verification, adoption, and the writing of flash (R420 to R429). -/

namespace Sys2Proof.Machine

/-- IMAGE_READ_DONE: the candidate in hand has been read whole into DRAM at 0 (R420, R421). An adopted image lies there
already. -/
def execImageReadDone (s : State) : Host.Outcome State Fault Refusal :=
  match s.cfl.cand with
  | none => .next s
  | some c =>
    if s.glb.st ≠ .load ∨ c.read then .next s
    else
      let s1 := if c.slot < 4 then (s.wrBit Reg.cflStatus 28 false).dramWrite 0 c.bytes else s
      .next ((s1.updCfl (fun x => { x with cand := some { c with read := true } })).setCtl .verify 0)

/-- IMAGE_VERIFY_DONE: verification of the candidate ends (R407, R421, R424). `body` is what its sections hold, `told` the load
checks that fail beyond those the model computes. In VENDOR and RETURN the firmware runs without configuration (R402). -/
def execImageVerifyDone (body : ImageBody) (told : List Refused) (s : State) : Host.Outcome State Fault Refusal :=
  match s.cfl.cand with
  | none => .next s
  | some c =>
    if s.glb.st ≠ .verify then .next s
    else
      let nc := s.fuses.noConfig
      let first := imageChecks s.fuses nc c.bytes body.firm
      let r := match first with
        | some r => some r
        | none => if nc then none else lineChecks s.dramSize body.line (toldChecks told)
      match r with
      | some r => .next ((s.imageRefused c.slot body.firm r).setCtl .load 0x0402).loadNext
      | none =>
        let s1 := if c.slot < 4 then (s.wrBit (Reg.cflSlotInfo c.slot) 30 true).wrFld Reg.lcuBoot 31 28 c.slot else s
        let s2 :=
          if nc then
            let s3 : State := { s1 with lcu := { s1.lcu with fwSvn := body.firm.svn }, fuses := body.firm.commits s1.fuses }
            s3
          else s1.applyLine c.slot c.bytes body
        .next ((s2.updCfl (fun x => { x with cand := none })).event 0x0401 [.h c.slot, .w (imgEpoch c.bytes)]).enterDiscover

/-! ### Adoption (R427) -/

/-- An adoption ends without an image: the controller stays in SYNC, and asks again once the lantern's candle has changed. -/
def State.adoptRefuse (s : State) (r : Refused) : State :=
  let e := (s.lanternMember.map (·.epoch)).getD 0
  let s1 := (s.refuse 5 r).updCfl (fun c => { c with adopting := false, adoptGot := [], barred := s.lanternMember.map (·.candle) })
  ((s1.wrBit Reg.cflStatus 30 false).event 0x0403 [.h 1, .w e, .h r.code]).syncReady

/-- The fragments of a transfer in order, where all of them are there. -/
def joinFrags (total : Nat) (l : List (Nat × List Byte)) : Option (List Byte) :=
  (List.range total).foldl (fun (acc : Option (List Byte)) k => match acc, l.find? (fun p => decide (p.1 = k)) with
    | some b, some p => some (b ++ p.2)
    | _, _ => none) (some [])

/-- IMAGE_ADOPTED: the transfer is complete and the image verified and checked; the controller restarts from LOAD with it in
place of a flash candidate. -/
def execImageAdopted (body : ImageBody) (told : List Refused) (s : State) : Host.Outcome State Fault Refusal :=
  if s.cfl.adopting = false ∨ s.glb.st ≠ .sync then .next s
  else match joinFrags s.cfl.adoptTotal s.cfl.adoptGot with
    | none => .next s
    | some bs =>
      let r := match imageChecks s.fuses false bs body.firm with
        | some r => some r
        | none => match lineChecks s.dramSize body.line (toldChecks told) with
          | some r => some r
          | none => idChecks bs body s.glb.id (toldChecks told)
      match r with
      | some r => .next (s.adoptRefuse r)
      | none =>
        let s1 := (s.dramWrite s.otherArea bs).wrBit Reg.cflStatus 28 (!s.rdBit Reg.cflStatus 28)
        let s2 := s1.updCfl (fun c => { c with adopting := false, adoptGot := [], cand := some { slot := 5, bytes := bs } })
        let s3 := ((s2.wrBit Reg.cflStatus 30 false).count Reg.cflAdoptCnt).event 0x0403 [.h 0, .w (imgEpoch bs), .h 0]
        .next (s3.setCtl .load 0x0403)

/-- ADOPT_TIMEOUT: an adoption not complete within 10 s is refused. -/
def execAdoptTimeout (s : State) : Host.Outcome State Fault Refusal :=
  if s.cfl.adopting = false ∨ s.now < s.cfl.adoptAt + 10 * secTicks then .next s else .next (s.adoptRefuse ⟨0x24, some 0⟩)

/-- Bytes of an image in one CFG_XFER fragment (DESIGN CHOICE, log entry 67: the spec gives no size). -/
abbrev fragLen : Nat := 2048

/-- Fragment `k` of an image. -/
def fragOf (bs : List Byte) (k : Nat) : List Byte := (bs.drop (fragLen * k)).take fragLen

/-- Number of fragments of an image. -/
def fragCount (bs : List Byte) : Nat := (bs.length + fragLen - 1) / fragLen

/-- Sends fragments of an image to a controller, or to all (64), in CFG_XFER frames (R313, R326). -/
def State.sendFrags (s : State) (dest : Nat) (bs : List Byte) (ks : List Nat) : State :=
  forAll ks (fun k st => st.send (.epoch 5 [dest, k, fragCount bs] (fragOf bs k))) s

/-- ADOPTION_REQUEST: the lantern receives a controller's request and sends its active image. -/
def execAdoptionRequest (from_ : Nat) (s : State) : Host.Outcome State Fault Refusal :=
  if s.isLantern = false ∨ s.cfl.loaded = false then .next s
  else .next (s.sendFrags from_ s.cfl.image (List.range (fragCount s.cfl.image)))

/-! ### Writing flash (R428) -/

/-- BUSY of CFL_FLASH_CTRL. -/
def State.flashBusy (s : State) : Bool := s.cfl.flashOp.isSome

/-- The image that an operation programs. -/
def State.flashImage (s : State) : List Byte :=
  s.dramRead (s.rd64 Reg.cflFlashSrcLo Reg.cflFlashSrcHi).toNat (s.rd Reg.cflFlashLen).toNat

/-- RESULT 1 to 3 of an operation before it touches flash, or 0. A slot takes only an image that passes checks 0x01 to 0x05. -/
def State.flashCheck (s : State) (slot : Bool) (firm : FirmSec) : Nat × State :=
  let src := (s.rd64 Reg.cflFlashSrcLo Reg.cflFlashSrcHi).toNat
  let len := (s.rd Reg.cflFlashLen).toNat
  if s.rdBit Reg.cflStatus 31 = false then (1, s)
  else if slot = false then (0, s)
  else if len = 0 ∨ imgMax < len ∨ src % 4096 ≠ 0 ∨ src < 0x4000000 ∨ s.dramSize - 0x4000000 < src + len then (2, s)
  else match imageChecks s.fuses false s.flashImage firm with
    | some r => (3, s.refuse 6 r)
    | none => (0, s)

/-- GO: an operation on flash `fl` (0 XA, 1 XB) and target `tg` begins; ignored while BUSY. -/
def State.flashGo (s : State) (fl tg : Nat) (firm : FirmSec) : State :=
  if s.flashBusy ∨ 2 < tg then s
  else
    let r := s.flashCheck (decide (tg ≠ 2)) firm
    let s1 := r.2.updCfl (fun c => { c with flashOp := some r.1, flashTo := fl * 4 + tg })
    s1.wr Reg.cflFlashCtrl (w32 (2 ^ 30 + fl % 2 * 2 ^ 29 + tg * 2 ^ 27))

/-- FLASH_PROGRAM_SLOT: GO with a slot as target. `firm` is what the firmware section of the image holds. -/
def execFlashProgramSlot (xb slotB : Bool) (firm : FirmSec) (s : State) : Host.Outcome State Fault Refusal :=
  if s.hostUp = false then .next s else .next (s.flashGo (b2n xb) (b2n slotB) firm)

/-- FLASH_ERASE_PEER: GO with the peer-record region as target. -/
def execFlashErasePeer (xb : Bool) (s : State) : Host.Outcome State Fault Refusal :=
  if s.hostUp = false then .next s else .next (s.flashGo (b2n xb) 2 {})

/-- FLASH_DONE: the operation in progress ends. `fail` is 0, or 4, 5 or 6 where erasing, programming or reading back failed,
and then `left` is what the target holds. -/
def execFlashDone (fail : Nat) (left : List Byte) (s : State) : Host.Outcome State Fault Refusal :=
  match s.cfl.flashOp with
  | none => .next s
  | some r0 =>
    let fl := s.cfl.flashTo / 4
    let tg := s.cfl.flashTo % 4
    let r := if r0 ≠ 0 then r0 else if 4 ≤ fail ∧ fail ≤ 6 then fail else 0
    let s1 := s.updCfl (fun c =>
      let c1 := { c with flashOp := none }
      if r0 ≠ 0 then c1
      else if tg = 2 then { c1 with peers := c1.peers.set fl (if r = 0 then [] else [left]) }
      else { c1 with flash := c1.flash.set (2 * fl + tg) (if r = 0 then s.flashImage else left) })
    let s2 := (s1.wrBit Reg.cflFlashCtrl 30 false).wrFld Reg.cflFlashCtrl 7 0 r
    .next (s2.event 0x0405 [.h fl, .h tg, .h r])

end Sys2Proof.Machine
end

