-- ==== Sys2Proof/Machine/Fabric.lean ====
section
/-! DEFINITION. Machine/Fabric.lean: frames, discovery, routes, signals and remote line angles of the controller fabric (R311 to
R325). -/

namespace Sys2Proof.Machine

/-! ### Sending and forwarding (R312 to R315) -/

/-- FAB_ETHERTYPE. -/
def State.fabEther (s : State) : Nat := s.rdFld Reg.fbrCfg 31 16
/-- LINKS: block lock of FB0 and FB1. -/
def State.fabLinks (s : State) : Nat := b2n (s.fbr.links.getD 0 false) + 2 * b2n (s.fbr.links.getD 1 false)
/-- A fabric link is up. -/
def State.fabUp (s : State) (p : Nat) : Bool := s.fbr.links.getD p false

/-- A controller's fabric slot window at this device's ports in the present cycle, or `k` cycles later (R320, R321): opening and
closing time. -/
def State.fabWindow (s : State) (c k : Nat) : Option (Nat × Nat) :=
  let w := s.rd (Reg.fbrFslotLen c)
  if s.cyc.running = false ∨ fld w 31 16 = 0 ∨ (fld w 15 0).testBit ((s.cyc.n + k) % 16) = false then none
  else
    let delay := if c = s.glb.id then 0 else s.rdFld (Reg.fbrRoute c) 21 0 * 16384
    let from_ := s.cyc.c0 + k * s.per + (s.rd (Reg.fbrFslotStart c)).toNat * 1024 + delay
    some (from_, from_ + fabTime (34 + fld w 31 16) + 64 * 65536)

/-- A frame of a length would not end before the next window opens, of this cycle or the next, or stands in one (R315). -/
def State.fabBlocked (s : State) (len : Nat) : Bool :=
  (List.range 64).any (fun c => [0, 1].any (fun k => match s.fabWindow c k with
    | some (a, b) => decide (a < s.now + fabTime len) && decide (s.now < b)
    | none => false))

/-- A frame leaves by a port: an asynchronous one waits, in order, while a window stands in its way (R315). -/
def State.fabOut (s : State) (p : Nat) (async : Bool) (fr : List Byte) : State :=
  if s.fabUp p = false then s
  else if async && (s.fabBlocked fr.length || s.fbr.held.any (fun h => decide (h.port = p))) then
    (s.updFbr (fun f => { f with held := f.held ++ [{ port := p, bytes := fr }] })).count Reg.fbrHeldCnt
  else s.send (.fabric p fr)

/-- ASYNC_FRAME_RELEASE: the first frame held at a port is sent once no window stands in its way. -/
def execAsyncFrameRelease (p : Nat) (s : State) : Host.Outcome State Fault Refusal :=
  match s.fbr.held.find? (fun h => decide (h.port = p)) with
  | none => .next s
  | some h =>
    if s.fabBlocked h.bytes.length then .next s
    else
      let s1 := s.updFbr (fun f => { f with held := f.held.erase h })
      .next (if s1.fabUp p then s1.send (.fabric p h.bytes) else s1)

/-- The device takes part as the one that originates frames for its ID (R311). -/
def State.fabOrigin (s : State) : Bool := !s.pilotish

/-- A frame of this device, sent by port `p` with a TTL. -/
def State.fabSend (s : State) (p ftype ttl : Nat) (async : Bool) (body : List Byte) : State :=
  let h : FabHdr := { ftype := ftype, origin := s.glb.id, noId := !s.glb.idValid, hops := 0, ttl := ttl, wrapped := false
                      dual := s.rdBit Reg.fbrCfg 15, port := p, links := s.fabLinks, len := body.length, cycle := s.cyc.n }
  s.fabOut p async (fabFrame s.fabEther h p body)

/-- The frame was originated by this device. -/
def State.fabMine (s : State) (h : FabHdr) (body : List Byte) : Bool :=
  if h.ftype = 0x11 then decide (leAt body 0 8 = s.fuses.serial.toNat)
  else !h.noId && s.glb.idValid && s.fabOrigin && decide (h.origin = s.glb.id)

/-- A received frame is forwarded out of the other port, or wrapped where that link is down (R314). -/
def State.fabForward (s : State) (p : Nat) (h : FabHdr) (body : List Byte) : State :=
  let async := decide (h.ftype ≠ 0x12)
  if h.ttl = 0 ∨ (s.fabMine h body ∧ h.wrapped = false) then s
  else if s.fabUp (1 - p) then
    s.fabOut (1 - p) async (fabFrame s.fabEther { h with hops := h.hops + 1, ttl := h.ttl - 1 } (1 - p) body)
  else if h.wrapped then s
  else (s.fabOut p async (fabFrame s.fabEther { h with hops := h.hops + 1, ttl := 127, wrapped := true } p body)).count Reg.fbrWrapCnt

/-- A frame arrives at a port: its check, and its forwarding. Answers its header and body where it is good. Detector 0x0E makes
the check fail. -/
def State.fabRx (s : State) (p : Nat) (fr : List Byte) : Option (FabHdr × List Byte) × State :=
  if 2 ≤ p ∨ s.fabUp p = false then (none, s)
  else
    let i := s.inject 0x0E p
    match (if i.1 then none else readFab s.fabEther fr) with
    | none => (none, i.2.count Reg.fbrCheckErrCnt)
    | some (h, body) => (some (h, body), i.2.fabForward p h body)

/-- FABRIC_LINK_CHANGE: FB0 or FB1 gains or loses block lock; on a gain the port's fixed latencies are known. A lane that the
ledger has not admitted has no power. -/
def execFabricLinkChange (p : Nat) (up : Bool) (txLat rxLat : Nat) (s : State) : Host.Outcome State Fault Refusal :=
  if 2 ≤ p ∨ s.fabUp p = up ∨ (up ∧ s.pem.lanes.contains (16 * 3 + p) = false) then .next s
  else
    let links := s.fbr.links.set p up
    let s1 := s.updFbr (fun f => { f with links := links, changed := s.now, alone := if links.any id then none else some s.now
                                          held := f.held.filter (fun h => decide (h.port ≠ p) || up) })
    let s2 := if up then (s1.wr (Reg.tbuPortTxLat p) (w32 txLat)).wr (Reg.tbuPortRxLat p) (w32 rxLat) else s1
    .next s2.portStates.tbuShow

/-! ### HELLO (R316, R318, R325) -/

/-- The serials that the image binds to an ID (R317). -/
def State.boundId (s : State) (serial : Nat) : Option Nat :=
  (s.cfl.body.line.plan.table.find? (fun e => e.2.contains serial)).map (·.1)

/-- The partner's serial number as HELLO carries it. -/
def State.partnerSerial (s : State) : Nat := if s.paired then s.twu.partner.serial else 0

/-- The body of the device's HELLO. -/
def State.helloNow (s : State) : List Byte :=
  let d := fun (p : Nat) => if s.fabUp p then (s.rd (Reg.tbuPortMpd p)).toNat else 0
  helloBody s.fuses.serial.toNat s.partnerSerial s.glb.id s.glb.idValid (s.boundId s.fuses.serial.toNat).isSome s.glb.st.code
    s.glb.role.code s.ownEpoch s.ownCandle (d 0) (d 1)

/-- HELLO_SEND: a HELLO is sent on both ports at its interval, or after a change of anything but its path delays. -/
def execHelloSend (s : State) : Host.Outcome State Fault Refusal :=
  let b := s.helloNow
  let every := if s.glb.st = .discover ∨ s.glb.st = .sync then msU else 1024 * s.per
  let due := match s.fbr.sentAt with
    | none => true
    | some t => decide (t + every ≤ s.now)
  if s.glb.opened = false ∨ s.glb.st = .off ∨ (due = false ∧ b.take 54 = s.fbr.lastBody.take 54) then .next s
  else
    let s1 := s.updFbr (fun f => { f with sentAt := some s.now, lastBody := b })
    .next ((s1.fabSend 0 0x11 127 true b).fabSend 1 0x11 127 true b)

/-- A member belongs to this device's own pair. -/
def State.isPartner (s : State) (m : Member) : Bool :=
  s.paired && (decide (m.partner = s.fuses.serial.toNat) || decide (s.twu.partner.serial = m.serial))

/-- Rank of a device for ID conflicts and assignment: the lower serial of a pair (R317, R318). -/
def pairRank (serial partner : Nat) : Nat := if partner = 0 then serial else min serial partner

/-- Puts a member; the set of HELLOs has changed where what tells it apart has (R317). -/
def State.putMember (s : State) (m : Member) : State :=
  let old := s.memberOf m.serial
  let key := fun (x : Member) => (x.partner, x.id, x.assigned, x.bound)
  let same := decide (old.map key = some (key m))
  s.updFbr (fun f => { f with members := m :: f.members.filter (fun x => decide (x.serial ≠ m.serial))
                              changed := if same then f.changed else s.now })

/-- A device claims the controller's own ID (R318): the one of higher rank loses. -/
def State.idConflict (s : State) (m : Member) : State :=
  if s.glb.idValid = false ∨ m.assigned = false ∨ m.id ≠ s.glb.id ∨ s.isPartner m ∨ s.fbr.conflict then s
  else if pairRank s.fuses.serial.toNat s.partnerSerial ≤ pairRank m.serial m.partner then s
  else
    let s1 := s.event 0x0F03 [.h s.glb.id, .w m.serial]
    if s.glb.st = .run ∨ s.glb.st = .degraded ∨ s.glb.st = .safe ∨ s.glb.st = .fault then
      s1.updFbr (fun f => { f with conflict := true })
    else
      let g : Glb := { s1.glb with idValid := false }
      let s2 : State := { s1 with glb := g }
      (s2.updCfl (fun c => { c with applied := false })).setCtl .discover 0x0F03

/-- Bit `c` of FBR_MISMATCH_MAP, and CANDLE_MATCH where it clears (R325). -/
def State.candleBit (s : State) (c : Nat) (bad : Bool) : State :=
  let s1 := s.setCtrl Reg.fbrMismatchMapLo c bad
  if s.mapBit Reg.fbrMismatchMapLo c ∧ bad = false then s1.event 0x0F08 [.h c] else s1

/-- Bit `c` of FBR_MISMATCH_MAP follows the candle of a member (R325). -/
def State.memberCandle (s : State) (m : Member) : State :=
  if m.assigned = false ∨ (m.id = s.glb.id ∧ s.glb.idValid) then s
  else s.candleBit m.id (decide (m.candle ≠ s.ownCandle))

/-- At the lantern, two devices that claim one ID of the epoch's list end the epoch (R330). -/
def State.conflictAborts (s : State) (m : Member) : Bool :=
  m.assigned && s.fbr.epoch.members.contains m.id && ((s.glb.idValid && decide (s.glb.id = m.id) && !s.isPartner m)
    || s.fbr.members.any (fun x => x.assigned && decide (x.id = m.id ∧ x.serial ≠ m.serial ∧ x.partner ≠ m.serial)))

/-- An epoch that does not list this controller is over for it once the lantern runs that epoch. -/
def State.awayDone (s : State) : State :=
  match s.fbr.away, s.lanternMember with
  | some e, some m => if e ≤ m.epoch then s.updFbr (fun f => { f with away := none }) else s
  | _, _ => s

/-- HELLO: a HELLO arrives: members, their order, path delays and candles. -/
def execHelloFrame (p : Nat) (fr : List Byte) (s : State) : Host.Outcome State Fault Refusal :=
  let r := s.fabRx p fr
  match r.1 with
  | none => .next r.2
  | some (h, body) =>
    let s1 := r.2
    let serial := leAt body 0 8
    if h.ftype ≠ 0x11 ∨ body.length ≠ 64 ∨ serial = s.fuses.serial.toNat then .next s1
    else
      let m0 := Member.ofHello body h.links s.now (s1.memberOf serial)
      let m := if h.wrapped then m0 else if p = 0 then { m0 with hops0 := some (h.hops + 1) } else { m0 with hops1 := some (h.hops + 1) }
      let s2 := ((s1.putMember m).idConflict m).memberCandle m
      let s3 := if s2.isLantern ∧ s2.conflictAborts m ∧ (s2.fbr.epoch.phase = .staging ∨ s2.fbr.epoch.phase = .ready) then
          (s2.send (.epoch 4 [s2.fbr.epoch.e, 3] [])).epochAbort 3 []
        else s2.awayDone
      .next (if s3.tbu.hasLantern ∧ s3.tbu.lantern = serial then s3.candleCheck.syncReady else s3)

/-! ### Controller IDs (R317) -/

/-- Members still there: their HELLO is no older than two of its longest intervals (R316; DEDUCED, log entry 66). -/
def State.present (s : State) : List Member :=
  s.fbr.members.filter (fun m => decide (s.now ≤ m.seenAt + max (2 * msU) (2048 * s.per)))

/-- The AUTO IDs that nobody holds, ascending. -/
def State.autoFree (s : State) : List Nat :=
  let held := (s.present.filter (·.assigned)).map (·.id)
  let ids := (s.cfl.body.line.plan.table.filter (fun e => decide (e.2 = []))).map (·.1)
  ((List.range 64).filter ids.contains).filter (fun i => !held.contains i)

/-- The ID that falls to this device, and whether it is AUTO. -/
def State.idNow (s : State) : Option (Option (Nat × Nat)) :=
  let serial := s.fuses.serial.toNat
  let stable := s.rdFld Reg.fbrCfg 7 0 * msU
  match s.boundId serial with
  | some i => if s.fbr.links.any id || (match s.fbr.alone with | some t => decide (t + 4 * stable ≤ s.now) | none => true) then
      some (some (i, 0)) else none
  | none =>
    match s.fbr.alone with
    | some t => if s.now < t + 4 * stable then none else some (s.autoFree.head?.map (fun i => (i, 1)))
    | none =>
      match s.present.find? (fun m => m.assigned && s.isPartner m) with
      | some m => some (some (m.id, 1))
      | none =>
        if s.now < s.fbr.changed + stable then none
        else
          let ranks := (s.present.filter (fun m => !m.assigned && !m.bound && !s.isPartner m)).map (fun m => pairRank m.serial m.partner)
          let mine := pairRank serial s.partnerSerial
          let k := ((ranks.filter (fun r => decide (r < mine))).eraseDups).length
          some ((s.autoFree[k]?).map (fun i => (i, 1)))

/-- The sections of the controller's ID are checked and take effect, or the candidate is refused (R421, R424). -/
def State.idApply (s : State) (told : List Refused) : State :=
  match idChecks s.cfl.image s.cfl.body s.glb.id (toldChecks told) with
  | some r => ((s.imageRefused s.cfl.slot s.cfl.body.firm r).setCtl .load 0x0402).loadNext
  | none => ((s.applyCtrl.setCtl .sync 0).candleCheck).syncReady

/-- ID_ASSIGNED: the controller takes its ID, and the sections of that ID take effect. A controller that comes back to DISCOVER
with its ID keeps it. `told` are the load checks that fail beyond those the model computes. -/
def execIdAssigned (told : List Refused) (s : State) : Host.Outcome State Fault Refusal :=
  if s.glb.st ≠ .discover then .next s
  else if s.glb.idValid then .next (s.idApply told)
  else match s.idNow with
    | none => .next s
    | some none =>
      if s.fbr.idNone then .next s else .next ((s.updFbr (fun f => { f with idNone := true })).event 0x0F02 [])
    | some (some (i, auto)) =>
      let g : Glb := { s.glb with id := i, idValid := true }
      let s1 : State := { s with glb := g }
      .next (((s1.setCtrl Reg.fbrMemberMapLo i true).event 0x0F01 [.h i, .h auto]).idApply told)

/-! ### FAB_DATA (R320, R322, R324, R328) -/

/-- The records of the controller's FAB_DATA frame: exported line angles, blocks of signals, and COMMIT at the lantern. -/
def State.fabBody (s : State) : List Byte :=
  let n := s.cyc.n
  let e := s.fbr.epoch
  leBytes 4 (candlePrefix s.ownCandle)
    ++ s.ctrl.exports.flatMap (fun q => match q with
      | .angle i => let x := s.la i; laRecordBytes n i x.st.code x.ang x.vel x.acc
      | .sigs first k => sigBlockBytes n (n - 1) first ((List.range k).map (fun i => Tab.get 0 s.sigPrev (first + i))))
    ++ (if e.issued && decide (n ≤ e.at_) then commitBytes n e.e (candlePrefix e.candle) e.at_ else [])

/-- FAB_DATA_SEND: at its fabric slot the lit twin sends the controller's FAB_DATA frame. -/
def execFabDataSend (s : State) : Host.Outcome State Fault Refusal :=
  let w := s.rd (Reg.fbrFslotLen s.glb.id)
  if s.cyc.running = false ∨ s.glb.idValid = false ∨ s.fabOrigin = false ∨ s.fbr.conflict ∨ fld w 31 16 = 0 ∨
      (fld w 15 0).testBit (s.cyc.n % 16) = false ∨ s.fbr.sentData = some s.cyc.n ∨
      s.now < s.cyc.c0 + (s.rd (Reg.fbrFslotStart s.glb.id)).toNat * 1024 then .next s
  else
    let b := s.fabBody
    let dual := s.rdBit Reg.fbrCfg 15
    let chain := decide (s.fbr.topo = 1)
    let s1 := s.updFbr (fun f => { f with sentData := some s.cyc.n })
    .next (forAll [0, 1] (fun p st =>
      match s.ctrl.ttl.getD p (some 127) with
      | some t => st.fabSend p 0x12 (if chain then 127 else t) false b
      | none => if dual ∨ chain then st.fabSend p 0x12 127 false b else st) s1)

/-- The candle of an origin, by its frame's prefix and its devices' HELLOs, is the controller's own (R325). -/
def State.originSame (s : State) (c prefix_ : Nat) : Bool :=
  decide (prefix_ = candlePrefix s.ownCandle) &&
    (s.fbr.members.filter (fun m => m.assigned && decide (m.id = c))).all (fun m => decide (m.candle = s.ownCandle))

/-- The candle of an origin's frames lets its records in (R325). -/
def State.importOk (s : State) (c prefix_ : Nat) : Bool := s.tolerate || s.originSame c prefix_

/-- A record of a FAB_DATA frame of controller `c` is taken. A line-angle record that would reach the next S with a cycle number
not below that S's is discarded (R322). -/
def State.fabTake (s : State) (c : Nat) (r : FabRec) : State :=
  match r with
  | .bad => s
  | .angle idx q =>
    if s.cyc.n < q.1 then s.count Reg.fbrCycleSkewCnt
    else forAll (s.lau.angles.filter (fun x => decide (x.2.decl.src = .remote ∧ x.2.decl.srcCtrl = c ∧ x.2.decl.srcIndex = idx)))
      (fun x st =>
        let y := st.la x.1
        let newer := match y.record with
          | some o => decide (o.cycle < q.1)
          | none => true
        if newer then st.setLa x.1 { y with record := some { cycle := q.1, st := q.2.1, ang := q.2.2.1, vel := q.2.2.2.1
                                                             acc := q.2.2.2.2 } } else st) s
  | .sigs first m vals =>
    if s.ctrl.imports.any (fun i => decide (i.src = c ∧ i.first = first ∧ i.count = vals.length)) then
      s.updFbr (fun f => { f with blocks := f.blocks ++ [{ src := c, first := first, apply := m + 2, vals := vals }] })
    else s
  | .commit e pf at_ =>
    match s.lanternMember with
    | some m => if m.id = c then s.setEpoch { s.fbr.epoch with commitIn := some (e, pf, at_) } else s
    | none => s

/-- FAB_DATA: a FAB_DATA frame arrives. The second copy of a frame is not taken (R312, R314). -/
def execFabData (p : Nat) (fr : List Byte) (s : State) : Host.Outcome State Fault Refusal :=
  let r := s.fabRx p fr
  match r.1 with
  | none => .next r.2
  | some (h, body) =>
    let s1 := r.2
    if h.ftype ≠ 0x12 ∨ h.noId ∨ (h.origin = s.glb.id ∧ s.glb.idValid) then .next s1
    else
      let s2 := if h.wrapped then s1 else s1.updFbr (fun f => { f with seen :=
        { id := h.origin, port := p, hops := h.hops + 1, links := h.links } :: f.seen })
      let key := (0x12, h.origin, h.cycle, 0)
      if s2.fbr.taken.contains key then .next s2
      else
        let s3 := (s2.updFbr (fun f => { f with taken := (key :: f.taken).take 256 })).candleBit h.origin
          (!s2.originSame h.origin (leAt body 0 4))
        if s3.fbr.conflict ∨ s3.importOk h.origin (leAt body 0 4) = false then .next s3
        else .next (forAll (fabRecs h.cycle 512 (body.drop 4)) (fun q st => st.fabTake h.origin q) s3)

/-! ### The boundary: routes, members, signals (R319, R324) -/

/-- Hops to a controller on a port: from its FAB_DATA of the cycle that ends, else from the HELLOs of its devices. -/
def State.hopsTo (s : State) (c p : Nat) : Option Nat :=
  let l := (s.fbr.seen.filter (fun x => decide (x.id = c ∧ x.port = p))).map (·.hops)
  let hs := (s.present.filter (fun m => m.assigned && decide (m.id = c))).filterMap (fun m => if p = 0 then m.hops0 else m.hops1)
  if s.fabUp p = false then none
  else match (if l = [] then hs else l) with
    | [] => none
    | h :: t => some (t.foldl min h)

/-- The path delay in 0.25 ns (R319): D_mean, in 1/64 ns, of the link by which each member on the way receives, and 160 ns for
each forwarder. -/
def State.pathDelay (s : State) (p hops : Nat) : Nat :=
  ((List.range hops).map (fun k =>
    match s.present.find? (fun m => decide ((if p = 0 then m.hops0 else m.hops1) = some (k + 1))) with
    | some m => (if p = 0 then m.d1 else m.d0) / 16
    | none => 0)).sum + 640 * (hops - 1)

/-- Word of FBR_ROUTEc. -/
def State.routeWord (s : State) (c : Nat) : Word :=
  let word := fun (port hops delay : Nat) => w32 (2 ^ 31 + port * 2 ^ 29 + hops % 128 * 2 ^ 22 + min delay 0x3FFFFF)
  match s.hopsTo c 0, s.hopsTo c 1 with
  | none, none => 0
  | some a, none => word 0 a (s.pathDelay 0 a)
  | none, some b => word 1 b (s.pathDelay 1 b)
  | some a, some b =>
    let p := if a ≤ b then 0 else 1
    word (if s.rdBit Reg.fbrCfg 15 then 2 else p) (min a b) (s.pathDelay p (min a b))

/-- The topology (R312): 0 NONE, 1 CHAIN, 2 RING. -/
def State.topoNow (s : State) : Nat :=
  if s.fabLinks = 0 then 0
  else if s.fabLinks = 3 ∧ s.present.all (fun m => decide (m.links = 3)) ∧ s.fbr.seen.all (fun x => decide (x.links = 3)) then 2
  else 1

/-- Routes, topology and members are rebuilt. -/
def State.routesBoundary (s : State) : State :=
  let s1 := forAll (List.range 64) (fun c st =>
    if c = st.glb.id ∧ st.glb.idValid then st
    else
      let w := s.routeWord c
      let st1 := st.wr (Reg.fbrRoute c) w
      let known := st.fbr.known.contains c
      if w ≠ 0 then
        let st2 := st1.updFbr (fun f => { f with noRoute := Tab.set 0 f.noRoute c 0, known := if known then f.known else c :: f.known })
        if known then st2 else (st2.setCtrl Reg.fbrMemberMapLo c true).event 0x0F06 [.h c]
      else if known then st1.updFbr (fun f => { f with noRoute := Tab.set 0 f.noRoute c (Tab.get 0 f.noRoute c + 1) })
      else st1) s
  let t := s1.topoNow
  let s2 := s1.updFbr (fun f => { f with topo := t, seen := [] })
  if t = s1.fbr.topo then s2 else (s2.count Reg.fbrTopoCnt).event 0x0F04 [.h t, .h (s2.present.length + 1)]

/-- MEMBER_LOST: a member's ID has been absent from the routes for 16 cycles. At the lantern it ends an epoch that lists it. -/
def execMemberLost (c : Nat) (s : State) : Host.Outcome State Fault Refusal :=
  if s.fbr.known.contains c = false ∨ Tab.get 0 s.fbr.noRoute c < 16 then .next s
  else
    let s1 := s.updFbr (fun f => { f with known := f.known.filter (fun i => decide (i ≠ c)), noRoute := Tab.set 0 f.noRoute c 0
                                          members := f.members.filter (fun m => !(m.assigned && decide (m.id = c)))
                                          changed := s.now })
    let s2 := (s1.setCtrl Reg.fbrMemberMapLo c false).event 0x0F05 [.h c]
    let e := s2.fbr.epoch
    if s2.isLantern ∧ e.members.contains c ∧ (e.phase = .staging ∨ e.phase = .ready) then
      .next ((s2.send (.epoch 4 [e.e, 3] [])).epochAbort 3 [])
    else .next s2

/-- Import blocks at the boundary of cycle `n1` (R324). -/
def State.importsBoundary (s : State) (n1 : Nat) : State :=
  let s1 := forAll s.ctrl.imports.zipIdx (fun p st =>
    let i := p.1
    match st.fbr.blocks.find? (fun b => decide (b.src = i.src ∧ b.first = i.first ∧ b.apply = n1)) with
    | some b =>
      let st1 : State := { st with remote := b.vals.zipIdx.foldl (fun t v => Tab.set 0 t (i.src * 16384 + i.first + v.2) v.1) st.remote }
      (st1.updFbr (fun f => { f with stale := Tab.set 0 f.stale p.2 0 })).setCtrl Reg.fbrStaleMapLo i.src false
    | none => st.updFbr (fun f => { f with stale := Tab.set 0 f.stale p.2 (Tab.get 0 f.stale p.2 + 1) })) s
  s1.updFbr (fun f => { f with blocks := f.blocks.filter (fun b => decide (n1 < b.apply)) })

/-- SIGNAL_STALE: an import block has been missing at SIG_AGE_MAX boundaries. -/
def execSignalStale (i : Nat) (s : State) : Host.Outcome State Fault Refusal :=
  match s.ctrl.imports[i]? with
  | none => .next s
  | some x =>
    if Tab.get 0 s.fbr.stale i < max 1 (s.rdFld Reg.fbrCfg 11 8) ∨ s.mapBit Reg.fbrStaleMapLo x.src then .next s
    else .next ((s.setCtrl Reg.fbrStaleMapLo x.src true).event 0x0F09 [.h x.src])

/-- FBR at the boundary of cycle `n1`. -/
def State.fabricBoundary (s : State) (n1 : Nat) : State := (s.routesBoundary).importsBoundary n1

end Sys2Proof.Machine
end

