-- ==== Sys2Proof/Machine/Epoch.lean ====
section
/-! DEFINITION. Machine/Epoch.lean: epochs: staging, agreement and activation (R55, R56, R125, R212, R271, R326 to R330, R425, R426).
The messages of an epoch have no layout in the spec beyond their contents, so they are structured here: kinds 0 OFFER, 1 NEED,
2 READY, 3 FAIL, 4 ABORT, 5 an image fragment, 6 an image request. -/

namespace Sys2Proof.Machine

/-- EPOCH_TIMEOUT of the running image in 2^-16 ns. -/
def State.epochTimeout (s : State) : Nat := s.cfl.body.line.plan.timeout * msU

/-! ### The checks of a staged image (R424, R425) -/

/-- Index of the first directory entry of a type. -/
def entryIndex (bs : List Byte) (ty : Nat) : Nat := ((imgEntries bs).findIdx? (fun e => decide (entType e = ty))).getD 0

/-- Code 0x20: the base period changes. -/
def State.checkPeriod (s : State) (b : ImageBody) : Option Refused :=
  if loadedReg b.line.allRegs Reg.cycPeriod = loadedReg s.cfl.body.line.allRegs Reg.cycPeriod then none else some ⟨0x20, some 0⟩

/-- Code 0x21: another firmware, EtherType or fabric mode, or a present member's ID unbound. -/
def State.checkForbidden (s : State) (bs : List Byte) (b : ImageBody) : Option Refused :=
  let digest := fun (x : List Byte) => ((imgEntries x).find? (fun e => decide (entType e = 1))).map entDigest
  let new := b.regsOf s.glb.id
  let old := s.cfl.body.regsOf s.glb.id
  let field := fun (a hi lo : Nat) => decide (fld (loadedReg new a) hi lo = fld (loadedReg old a) hi lo)
  let bound := fun (t : List (Nat × List Nat)) (serial : Nat) => (t.find? (fun e => e.2.contains serial)).map (·.1)
  let serials := s.fuses.serial.toNat :: (s.present.filter (·.assigned)).map (·.serial)
  let unbinds := serials.any (fun x => match bound s.cfl.body.line.plan.table x with
    | some i => decide (bound b.line.plan.table x ≠ some i)
    | none => false)
  if digest bs ≠ digest s.cfl.image then some ⟨0x21, some (entryIndex bs 1)⟩
  else if field Reg.slcCfg 31 16 = false ∨ field Reg.fbrCfg 31 15 = false ∨ unbinds then some ⟨0x21, some (entryIndex bs 2)⟩
  else none

/-- Code 0x22: an axis in use changes its node, slots, kind or class. -/
def State.checkInUse (s : State) (b : ImageBody) : Option Refused :=
  match s.fbr.epoch.inUse.find? (fun a => s.axisChanged b a) with
  | some a => some ⟨0x22, some a⟩
  | none => none

/-- The checks of a staged image in the order of R424. `told` are those that fail beyond what the model computes. -/
def State.stageChecks (s : State) (bs : List Byte) (b : ImageBody) (told : List Refused) : Option Refused :=
  match imageChecks s.fuses false bs b.firm with
  | some r => some r
  | none => match lineChecks s.dramSize b.line (toldChecks told) with
    | some r => some r
    | none => match idChecks bs b s.glb.id (toldChecks told) with
      | some r => some r
      | none => match s.checkPeriod b with
        | some r => some r
        | none => match s.checkForbidden bs b with
          | some r => some r
          | none => s.checkInUse b

/-! ### The configuration stream of the couplers (R279) -/

/-- The registers as a list of loads leaves them, a register that only the former list loads at its reset value. -/
def regDelta (old new : List (Nat × Word)) : List (Nat × Word) :=
  ((old ++ new).map (·.1)).eraseDups.filterMap (fun a =>
    if loadedReg old a = loadedReg new a then none else some (a, loadedReg new a))

/-- The link plan as a staged image would leave it. -/
def State.stagedView (s : State) (b : ImageBody) : State :=
  s.loadRegs (regDelta (s.cfl.body.regsOf s.glb.id) (b.regsOf s.glb.id))

/-- A stream of slot, record-map and node entries, with its ACT_CYCLE. -/
def State.cplStream (s : State) (act : Nat) : List Byte :=
  let words := fun (l : List Nat) => wordBytes (l.map s.rd)
  let nSlot := s.slotCount
  let nRec := ((List.range nSlot).map (fun k => let e := s.slotEnt k; e.first + e.nrec)).foldl max 0
  let nodes := (List.range 256).filter (fun n => (s.nodeEnt n).described)
  let body := leBytes 8 act ++ leBytes 2 nSlot ++ leBytes 2 nRec ++ leBytes 2 nodes.length
    ++ words ((List.range (4 * nSlot)).map Reg.slcSlotTab) ++ words ((List.range nRec).map Reg.slcRecMap)
    ++ words (nodes.flatMap (fun n => (List.range 4).map (fun k => Reg.slcNodeTab (4 * n + k))))
  body ++ leBytes 4 (crc32c body).toNat

/-- Streams of a staged configuration to every coupler that has reported. The activation cycle is not yet agreed, so the
ACT_CYCLE that they carry is a free value. -/
def State.queueStreams (s : State) (b : ImageBody) (candle : List Byte) : State :=
  let f := s.free
  let bytes := (s.stagedView b).cplStream f.1.toNat
  let cs := (s.slc.reps.map (fun r => (r.trunk, r.level))).eraseDups
  let l : List CplStream := cs.map (fun c => { trunk := c.1, level := c.2, bytes := bytes, candle := candle })
  { f.2 with slc := { f.2.slc with streams := l } }

/-- The first coupler that has not reported the staged configuration complete under the epoch's candle. -/
def State.couplerMissing (s : State) (candle : List Byte) : Option CplRep :=
  s.slc.reps.find? (fun r => decide (r.result ≠ 0 ∨ r.staged ≠ candlePrefix candle))

/-! ### The members (R327) and the lantern (R328) -/

/-- Sends ABORT to all members and ends the epoch at the lantern. -/
def State.abortAll (s : State) (cause : Nat) (more : List EvArg) (nums : List Nat) : State :=
  (s.send (.epoch 4 ([s.fbr.epoch.e, cause] ++ nums) [])).epochAbort cause more

/-- The lantern issues COMMIT once every member is ready and the commit has been asked for. -/
def State.tryCommit (s : State) : State :=
  let e := s.fbr.epoch
  let all := e.members.all e.ready.contains
  if s.isLantern = false ∨ e.issued ∨ e.phase ≠ .ready ∨ all = false then s
  else match (if e.auto then some (e.nReq.getD 0) else e.nReq) with
    | none => s
    | some q => s.setEpoch { e with issued := true, at_ := max q (s.cyc.n + 64), phase := .committed }

/-- A READY is known. At the lantern the last one is logged with the member count. -/
def State.readyKnown (s : State) (id : Nat) (nReq : Option Nat) : State :=
  let e := s.fbr.epoch
  let was := e.members.all e.ready.contains
  let ready := if e.ready.contains id ∨ e.members.contains id = false then e.ready else id :: e.ready
  let s1 := s.setEpoch { e with ready := ready, nReq := if nReq.isSome then nReq else e.nReq }
  let s2 := if s1.isLantern ∧ was = false ∧ e.members.all ready.contains then
      s1.event 0x0F0A [.w e.e, .h e.members.length] else s1
  s2.tryCommit

/-- A member fails: FAIL to the lantern, and the staged image is discarded. The lantern's own failure ends the epoch for all. -/
def State.stageFail (s : State) (firm : FirmSec) (r : Refused) : State :=
  let e := s.fbr.epoch
  let s1 := (s.imageRefused 4 firm r).event 0x0404 [.w e.e, .h r.code]
  if s1.isLantern then s1.abortAll 1 [.h s1.glb.id, .h r.code] [s1.glb.id, r.code]
  else
    let s2 := if s1.pilotish then s1 else s1.send (.epoch 3 [e.e, s1.glb.id, r.code] [])
    s2.epochIdle e.lastCause

/-- The pilot of the pair, if it is PILOT, has reported ready (R327). -/
def State.pilotReady (s : State) : Bool :=
  s.pilotish || !s.paired || !s.twu.partner.seen || decide (s.twu.partner.role ≠ 1 ∨ s.twu.partner.epoch = 2)

/-- A member whose staged image stands becomes READY once its couplers and its pilot are. -/
def State.stageReady (s : State) : State :=
  let e := s.fbr.epoch
  if (s.couplerMissing e.candle).isSome ∨ s.pilotReady = false then s
  else
    let s1 := s.setEpoch { e with phase := .ready, readyAt := s.now }
    let s2 := (s1.event 0x0404 [.w e.e, .h 0]).event 0x0F0A [.w e.e]
    let s3 := if s2.pilotish then s2 else s2.send (.epoch 2 [e.e, s2.glb.id] [])
    s3.readyKnown s3.glb.id none

/-- STAGE_DONE: a staged image has been received whole and is verified and checked; READY follows once the couplers and the pilot
report. `body` is what its sections hold, `told` the load checks that fail beyond those the model computes; `giveUp` tells that
what is still missing will not come. -/
def execStageDone (body : ImageBody) (told : List Refused) (giveUp : Bool) (s : State) : Host.Outcome State Fault Refusal :=
  let e := s.fbr.epoch
  if e.phase ≠ .staging then .next s
  else match s.cfl.staged with
    | some _ => match (if giveUp then s.couplerMissing e.candle else none) with
      | some r => .next (s.stageFail body.firm ⟨0x23, some (r.trunk + 16 * b2n r.chanB)⟩)
      | none => .next s.stageReady
    | none => match joinFrags e.total e.got with
      | none => if giveUp then .next (s.stageFail body.firm ⟨0x24, some 0⟩) else .next s
      | some bs => match s.stageChecks bs body told with
        | some r => .next (s.stageFail body.firm r)
        | none =>
          let s1 := (s.updCfl (fun c => { c with staged := some (body, bs) })).wrBit Reg.cflStatus 29 true
          .next (s1.queueStreams body e.candle).stageReady

/-- EPOCH_OFFER: an OFFER arrives with the epoch, its candle and its members. -/
def execEpochOffer (e init : Nat) (auto : Bool) (members : List Nat) (candle : List Byte) (s : State) : Host.Outcome State Fault Refusal :=
  if s.fbr.epoch.phase ≠ .idle ∨ s.glb.idValid = false ∨ init = s.glb.id then .next s
  else if s.fbr.conflict ∨ members.contains s.glb.id = false then .next (s.updFbr (fun x => { x with away := some e }))
  else .next (s.setEpoch { phase := .staging, e := e, candle := candle, members := members, auto := auto, offerAt := s.now
                           inUse := s.axesInUse, lastCause := s.fbr.epoch.lastCause })

/-- Numbers of the fragments still missing. -/
def missingFrags (total : Nat) (got : List (Nat × List Byte)) : List Nat :=
  (List.range total).filter (fun k => !got.any (fun p => decide (p.1 = k)))

/-- CFG_XFER: an image fragment for controller `dest` (64: all members) arrives and is stored in the inactive area. After the last
one, what is missing is asked for again (R326, R427). -/
def execCfgXfer (dest k total : Nat) (bytes : List Byte) (s : State) : Host.Outcome State Fault Refusal :=
  let e := s.fbr.epoch
  if total ≤ k ∨ imgMax < fragLen * k + bytes.length then .next s
  else if dest = 64 then
    if e.phase ≠ .staging ∨ e.initiator ∨ e.got.any (fun p => decide (p.1 = k)) then .next s
    else
      let got := (k, bytes) :: e.got
      let s1 := (s.setEpoch { e with got := got, total := total }).dramWrite (s.otherArea + fragLen * k) bytes
      let miss := missingFrags total got
      .next (if k + 1 = total ∧ miss ≠ [] ∧ s1.pilotish = false then s1.send (.epoch 1 (s1.glb.id :: miss) []) else s1)
  else if dest = s.glb.id ∧ s.cfl.adopting then
    let got := (k, bytes) :: s.cfl.adoptGot.filter (fun p => decide (p.1 ≠ k))
    let s1 := (s.updCfl (fun c => { c with adoptGot := got, adoptTotal := total })).dramWrite (s.otherArea + fragLen * k) bytes
    let miss := missingFrags total got
    .next (if k + 1 = total ∧ miss ≠ [] then s1.send (.epoch 1 (s1.glb.id :: miss) []) else s1)
  else .next s

/-- EPOCH_NEED: a controller names fragments that it misses. The initiator sends them to all members again, the lantern those of
its active image to a controller that adopts it. -/
def execEpochNeed (from_ : Nat) (ks : List Nat) (s : State) : Host.Outcome State Fault Refusal :=
  let e := s.fbr.epoch
  if e.phase ≠ .idle ∧ e.initiator ∧ e.members.contains from_ then
    match joinFrags e.total e.got with
    | some bs => .next (s.sendFrags 64 bs (ks.filter (fun k => decide (k < e.total))))
    | none => .next s
  else if s.isLantern ∧ s.cfl.loaded then
    .next (s.sendFrags from_ s.cfl.image (ks.filter (fun k => decide (k < fragCount s.cfl.image))))
  else .next s

/-- EPOCH_READY_RECEIVED: a member's READY, or the commit that the initiator's READY carries on, arrives. The lantern counts it,
and so does the initiator, which answers EPOCH_COMMIT (R329). -/
def execEpochReadyReceived (e from_ : Nat) (nReq : Option Nat) (s : State) : Host.Outcome State Fault Refusal :=
  let x := s.fbr.epoch
  if (x.phase ≠ .staging ∧ x.phase ≠ .ready) ∨ x.e ≠ e ∨ (s.isLantern = false ∧ x.initiator = false) then .next s
  else .next (s.readyKnown from_ nReq)

/-- EPOCH_FAIL: at the lantern a member's FAIL ends the epoch. -/
def execEpochFail (e from_ code : Nat) (s : State) : Host.Outcome State Fault Refusal :=
  let x := s.fbr.epoch
  if (x.phase ≠ .staging ∧ x.phase ≠ .ready) ∨ x.e ≠ e ∨ s.isLantern = false then .next s
  else .next (s.abortAll 1 [.h from_, .h code] [from_, code])

/-- COMMIT_RECEIVED: the lantern's COMMIT for the epoch in READY stands in its FAB_DATA frames. One whose cycle has passed is
missed. -/
def execCommitReceived (s : State) : Host.Outcome State Fault Refusal :=
  let x := s.fbr.epoch
  match x.commitIn with
  | none => .next s
  | some (e, pf, n) =>
    if x.phase ≠ .ready ∨ e ≠ x.e ∨ pf ≠ candlePrefix x.candle ∨ n ≤ s.cyc.n then .next s
    else .next (s.setEpoch { x with phase := .committed, at_ := n })

/-- EPOCH_ABORT: the lantern's ABORT arrives; for cause 1 with the controller and code that failed. -/
def execEpochAbort (e cause : Nat) (more : List Nat) (s : State) : Host.Outcome State Fault Refusal :=
  let x := s.fbr.epoch
  let s1 := if s.fbr.away = some e then s.updFbr (fun f => { f with away := none }) else s
  if (x.phase ≠ .staging ∧ x.phase ≠ .ready) ∨ x.e ≠ e then .next s1
  else .next (s1.epochAbort cause (more.map EvArg.h))

/-- EPOCH_READY_TIMEOUT: no COMMIT or ABORT within EPOCH_TIMEOUT of the READY report. -/
def execEpochReadyTimeout (s : State) : Host.Outcome State Fault Refusal :=
  let x := s.fbr.epoch
  if x.phase ≠ .ready ∨ s.now < x.readyAt + s.epochTimeout then .next s else .next (s.epochAbort 5 [])

/-- EPOCH_OFFER_TIMEOUT: at the lantern, no COMMIT issued within EPOCH_TIMEOUT of the OFFER. -/
def execEpochOfferTimeout (s : State) : Host.Outcome State Fault Refusal :=
  let x := s.fbr.epoch
  if (x.phase ≠ .staging ∧ x.phase ≠ .ready) ∨ s.isLantern = false ∨ s.now < x.offerAt + s.epochTimeout then .next s
  else .next (s.abortAll 2 [] [])

/-! ### The work items (R326, R329) -/

/-- EPOCH_STAGE at service: this controller becomes the initiator. -/
def State.serveEpochStage (s : State) (t : Taken) : State :=
  let it := t.item
  let e := it.u 20 4
  let src := it.u 24 8
  let len := it.u 32 4
  if ¬ (s.glb.st = .ready ∨ s.glb.st = .run ∨ s.glb.st = .degraded) then s.complete t Stat.wrongState
  else if s.fbr.mismatch then s.complete t Stat.candleMismatch
  else if s.fbr.epoch.phase ≠ .idle ∨ s.fbr.away.isSome then s.complete t Stat.busy
  else if e ≤ s.ownEpoch ∨ len = 0 ∨ imgMax < len ∨ s.hostRegion src len = false then s.complete t Stat.badParam
  else
    let bs := s.dramRead src len
    let line := ((imgEntries bs).find? (fun x => decide (entType x = 2))).map (imgSection bs)
    let same := match line with
      | some l => decide (Config.linePeriod l = s.rd Reg.cycPeriod)
      | none => false
    if imgHeaderOk bs = false ∨ same = false ∨ imgCandle bs = s.ownCandle then s.complete t Stat.badParam
    else
      let auto := decide (it.u 36 1 % 2 = 1)
      let members := (s.glb.id :: s.fbr.known.filter (fun i => decide (i ≠ s.glb.id)))
      let total := fragCount bs
      let ep : Epoch := { phase := .staging, e := e, candle := imgCandle bs, members := members, initiator := true, auto := auto
                          offerAt := s.now, got := (List.range total).map (fun k => (k, fragOf bs k)), total := total
                          inUse := s.axesInUse, lastCause := s.fbr.epoch.lastCause }
      let s1 := ((s.setEpoch ep).dramWrite s.otherArea bs).complete t Stat.deferred
      if s1.pilotish then s1
      else (s1.send (.epoch 0 ([e, s1.glb.id, b2n auto] ++ members) ep.candle)).sendFrags 64 bs (List.range total)

/-- EPOCH_COMMIT at service: at the initiator, once every member is READY. Its N_REQ goes on to the lantern. -/
def State.serveEpochCommit (s : State) (t : Taken) : State :=
  let x := s.fbr.epoch
  let e := t.item.u 20 4
  let q := t.item.u 24 8
  if x.phase = .idle ∨ x.initiator = false then s.complete t Stat.notPermitted
  else if e ≠ x.e ∨ s.cyc.n + 2 ^ 31 < q then s.complete t Stat.badParam
  else if x.members.all x.ready.contains = false then s.complete t Stat.busy
  else
    let s1 := (s.complete t Stat.deferred).setEpoch { x with nReq := some q }
    if s1.isLantern then s1.tryCommit
    else if s1.pilotish then s1
    else s1.send (.epoch 2 [e, s1.glb.id, q] [])

/-! ### Activation (R55, R56, R125, R212, R271, R426) -/

/-- A segment under a new description: its speeds follow the ramp set, and a V_OVR above V_LIM is lowered to it (R212). -/
def Seg.under (d : PgnDesc) (sg : Seg) : Seg :=
  let rs := d.ramp sg.rset
  let vovr := if sg.vovr = 0 then 0 else min sg.vovr d.vlim
  let cr := match sg.vel with
    | some w => w.natAbs
    | none => if vovr = 0 then rs.vmax else vovr
  let stop := match sg.vel with
    | some w => min rs.vstop (max w.natAbs rs.vstop)
    | none => min rs.vstop cr
  { sg with vovr := vovr, cruise := cr, vstart := min rs.vstart cr, vstop := stop }

/-- The segment in progress is planned again where the epoch changes its ramp set or a speed of the queue. -/
def Pgn.replan (old new : PgnDesc) (g : Pgn) : Pgn :=
  match g.segs with
  | [] => g
  | sg :: _ =>
    let l := g.segs.map (Seg.under new)
    let slower := g.segs.any (fun x => decide (x.vovr ≠ 0 ∧ new.vlim < x.vovr))
    if g.stop ≠ [] ∨ (old.ramp sg.rset = new.ramp sg.rset ∧ slower = false) then { g with segs := l }
    else match l with
      | [x] => match x.vel with
        | some w => if x.soft then { g with segs := [planSeg (new.ramp x.rset) x g.t0 g.sp.p g.sp.v 0 true] }
                    else { g with segs := [planVel (new.ramp x.rset) x g.t0 g.sp.p g.sp.v w] }
        | none => { g with segs := [planSeg (new.ramp x.rset) x g.t0 g.sp.p g.sp.v 0 true] }
      | _ => { g with segs := planQueue new.ramp g.t0 g.sp.p g.sp.v l }

/-- The axes under the new descriptions; the registers and the image are those of the new epoch already. -/
def State.epochAxes (s : State) (old : CtrlSec) (l : List Nat) : State :=
  forAll l (fun a st =>
    let d0 := ((old.axes.find? (fun p => decide (p.1 = a))).map (·.2)).getD {}
    let d1 := st.desc a
    let st1 := st.updPgn (.ax a) (Pgn.replan d0.pgn d1.pgn)
    if d0.bank0 = d1.bank0 ∧ d0.bank1 = d1.bank1 then st1
    else (st1.cancelSwap a).updAxis a (fun x => { x with oldBank := x.bank, bank0 := d1.bank0, bank1 := d1.bank1, epochDue := true })) s

/-- Monitored axes whose parameters an epoch changes start again; what is latched stays (R382). -/
def State.epochMons (s : State) (old new : SafetySec) : State :=
  let l := (List.range 64).filter (fun k => decide (old.mons[k]? ≠ new.mons[k]?))
  forAll l (fun k st =>
    let st1 : State := { st with sfi := { st.sfi with mons := Tab.del st.sfi.mons k } }
    if k < new.mons.length then st1 else (st1.wr (Reg.sfiMonStat k) 0).wr (Reg.sfiMonSpeed k) 0) s

/-- Objects that the new contents change or remove retire (R55). -/
def State.epochRetire (s : State) (old new : CtrlSec) (delta : List (Nat × Word)) : State :=
  let tables := match delta.find? (fun q => decide (q.1 = Reg.lauCfg)) with
    | some q => fld q.2 15 7
    | none => s.rdFld Reg.lauCfg 15 7
  let las := (old.las.filter (fun p => decide ((new.las.find? (fun q => decide (q.1 = p.1))).map (·.2) ≠ some p.2))).map (·.1)
  let s1 := forAll las (fun n st => st.laRetire n) s
  let cams := (old.cams.filter (fun p => decide ((new.cams.find? (fun q => decide (q.1 = p.1))).map (·.2) ≠ some p.2))).map (·.1)
  let out := (s1.lau.cams.map (·.1)).filter (fun i => decide (tables ≤ i) && !cams.contains i)
  let s2 := forAll (cams ++ out) (fun i st => st.camRetire i) s1
  let hit := fun (c : Nat) => delta.any (fun q => decide (q.1 = Reg.capChCfg c ∨ q.1 = Reg.capChSrc c ∨ q.1 = Reg.capChMask c))
    || decide (Tab.get 0 old.caps c ≠ Tab.get 0 new.caps c)
  let s3 := forAll ((List.range 32).filter (fun c => s2.capDeclared c && hit c)) (fun c st => st.capRetire c) s2
  let conns := (List.range old.safety.conns.length).filter (fun k => decide (old.safety.conns[k]? ≠ new.safety.conns[k]?))
  forAll conns (fun k st =>
    let st1 : State := { st with sfi := { st.sfi with conns := Tab.del st.sfi.conns k } }
    st1.retire 4 k) (s3.epochMons old.safety new.safety)

/-- Line angles, virtual masters, cams and tracks of the new contents. -/
def State.epochLau (s : State) (old new : CtrlSec) : State :=
  let isNew := fun (p : Nat × LaDecl) => decide ((old.las.find? (fun q => decide (q.1 = p.1))).map (·.2) ≠ some p.2)
  let gone := (old.las.filter (fun p => !new.las.any (fun q => decide (q.1 = p.1)))).map (·.1)
  let fresh := new.las.filter isNew
  let s1 := forAll gone (fun n st =>
    let st1 : State := { st with lau := { st.lau with angles := Tab.del st.lau.angles n }, vms := Tab.del st.vms n }
    st1.laShow n {}) s
  let s2 := forAll fresh (fun p st =>
    let st1 : State := { st with vms := if p.2.src = .virtual ∧ p.2.ang0 ≠ 0 then Tab.put st.vms p.1 ({ sp := { p := p.2.ang0 } } : Pgn)
                                        else Tab.del st.vms p.1 }
    let x := laAtLoad p.2
    (st1.setLa p.1 x).laShow p.1 x) s1
  let cams := new.cams.filter (fun p => decide ((old.cams.find? (fun q => decide (q.1 = p.1))).map (·.2) ≠ some p.2))
  let s3 := forAll cams (fun p st =>
    let st1 : State := { st with lau := { st.lau with cams := Tab.put st.lau.cams p.1 p.2 } }
    st1.setMap (Reg.lauCamMap 0) p.1 true) s2
  if old.tracks = new.tracks then s3 else { s3 with lau := { s3.lau with tracks := new.tracks, trackRt := [] } }

/-- Nodes whose table entry or slots the epoch changes become ABSENT (R271). `before` is the block under the former plan. -/
def State.nodeChanged (before after : State) (n : Nat) : Bool :=
  (List.range 4).any (fun k => decide (before.rd (Reg.slcNodeTab (4 * n + k)) ≠ after.rd (Reg.slcNodeTab (4 * n + k))))
    || decide (before.nodeSlots false n ≠ after.nodeSlots false n) || decide (before.nodeSlots true n ≠ after.nodeSlots true n)

/-- The nodes under the new plan. -/
def State.epochNodes (s before : State) : State :=
  let l := (s.slc.nodes.filter (fun p => before.nodeChanged s p.1)).map (·.1)
  let s1 := forAll l (fun n st => st.updNode n (fun x => { x with
    a := { x.a with st := .absent, viol := 0, silent := 0, rejoin := false, fenceDue := 0 }
    b := { x.b with st := .absent, viol := 0, silent := 0, rejoin := false, fenceDue := 0 }, spare := none })) s
  let s2 : State := { s1 with slc := { s1.slc with streams := [] } }
  s2.spareShow

/-- Rings whose base, size or role the epoch changes are empty again. -/
def State.epochRings (s before : State) : State :=
  forAll (List.range 16) (fun r st =>
    if before.ringRole r = st.ringRole r ∧ before.ringSize r = st.ringSize r ∧
        before.rd64 (Reg.wksRingBaseLo r) (Reg.wksRingBaseHi r) = st.rd64 (Reg.wksRingBaseLo r) (Reg.wksRingBaseHi r) then st
    else (((st.wr (Reg.wksRingProd r) 0).wr (Reg.wksRingCons r) 0).ringRefresh r).event 0x1401 [.h r, .h 2]) s

/-- Encoder outputs that the epoch switches on or off. -/
def State.epochOuts (s : State) (old new : CtrlSec) : State :=
  forAll (List.range 8) (fun k st =>
    let a := old.encE.getD k (false, 0)
    let b := new.encE.getD k (false, 0)
    if a = b then st
    else
      let o := st.encOut k
      let st1 := st.setEncOut k (if b.1 then { o with enabled := true, energy := b.2 } else {})
      if b.1 ∧ a.1 = false then st1.encRequest k else if b.1 = false ∧ o.on then st1.encFed k else st1) s

/-- The staged image becomes the active one at the boundary of cycle `n` (step 1 of R33). -/
def State.epochActivate (s : State) (n : Nat) : State :=
  match s.cfl.staged with
  | none => s
  | some (body, bs) =>
    let e := s.fbr.epoch
    let old := s.ctrl
    let new := (body.ctrlOf s.glb.id).getD {}
    let delta := regDelta (s.cfl.body.regsOf s.glb.id) (body.regsOf s.glb.id)
    let used := s.axesInUse
    let s1 := s.epochRetire old new delta
    let s2 := ((s1.wrBit Reg.cflStatus 28 (!s1.rdBit Reg.cflStatus 28)).updCfl (fun c => { c with
      body := body, image := bs, slot := 4 })).loadRegs delta
    let s3 : State := { s2 with
      cea := { s2.cea with p := new.p, y := new.y, library := new.library, order := new.order }
      elg := { s2.elg with lims := if old.lims = new.lims then s2.elg.lims else new.lims }
      pem := { s2.pem with nRetry := body.line.nRetry } }
    let s4 := forAll (new.data.filter (fun p => !old.data.contains p)) (fun p st => st.dramWrite p.1 p.2) s3
    let s5 := forAll ((body.asym s4.fuses.serial.toNat).take 3).zipIdx (fun p st => st.wr (Reg.tbuPortAsymStatic p.2) (wInt p.1)) s4
    let s6 := (((s5.epochLau old new).epochAxes old used).epochNodes s1).epochRings s1
    let s7 := (s6.epochOuts old new).putCandle e.e e.candle
    ((s7.epochIdle e.lastCause).event 0x0F0B [.w e.e, .w (n % 2 ^ 32)]).candleCheck

/-- FBR's epoch at the boundary of cycle `n`. -/
def State.epochBoundary (s : State) (n : Nat) : State :=
  if s.fbr.epoch.phase = .committed ∧ s.fbr.epoch.at_ = n then s.epochActivate n else s

end Sys2Proof.Machine
end

