-- ==== Sys2Proof/Machine/Downlink.lean ====
section
/-! DEFINITION. Machine/Downlink.lean: what the controller sends on its trunks: beacons (R258), downlink bundles (R260, R261), SAFE frames
(R262, R372 to R376), JOIN_ACK and CPL_CFG frames (R277, R279, R281). -/

namespace Sys2Proof.Machine

/-- ETHERTYPE of the trunks. -/
def State.trunkEther (s : State) : Nat := s.rdFld Reg.slcCfg 31 16

/-- The MAC header of a frame that the controller sends on a trunk and channel: to the group, or to one receiver (R254). -/
def State.trunkMac (s : State) (chanB : Bool) (trunk : Nat) (dst : Option (Nat × Nat)) : List Byte :=
  let d := match dst with
    | none => macAddr true s.glb.id chanB 3 0xFF trunk
    | some (kind, b4) => macAddr false s.glb.id chanB kind b4 trunk
  macHdr d (macAddr false s.glb.id chanB 0 0 trunk) s.trunkEther

/-- A frame with its FCS. -/
def withFcs (fr : List Byte) : List Byte := fr ++ leBytes 4 (crc32 fr).toNat

/-- The trunks in use: those with slots. -/
def State.trunksUsed (s : State) : List Nat :=
  (List.range 4).filter (fun t => (List.range s.slotCount).any (fun k => decide ((s.slotEnt k).trunk = t)))

/-! ### Frames of the twin link (R335) -/

/-- A TW frame with the header and check of R313; it is never forwarded. -/
def State.twSend (s : State) (ftype : Nat) (body : List Byte) : State :=
  if s.twu.link = false ∨ s.paired = false then s
  else
    let h : FabHdr := { ftype := ftype, origin := s.glb.id, noId := !s.glb.idValid, hops := 0, ttl := 0, wrapped := false, dual := false
                        port := 0, links := s.fabLinks, len := body.length, cycle := s.cyc.n }
    s.send (.twin ftype (fabFrame s.fabEther h 2 body))

/-- A copy of a frame of channel A goes to the pilot. -/
def State.dlCopy (s : State) (slot : Nat) (half : Bool) (fr : List Byte) : State :=
  if s.glb.role = .lit then s.twSend 0x21 (leBytes 4 (slot % 1024 + 1024 * b2n half) ++ fr) else s

/-! ### Gating (R258, R337, R345) -/

/-- Start of the downlink window that a slot belongs to: its first active slot. -/
def State.windowStart (s : State) (half : Bool) : Nat :=
  let l := ((s.slotsOn true s.cyc.n).filter (fun q => q.2.half == half)).map (·.2.start)
  s.cyc.c0 + (l.foldl min 0xFFFFFFFF) * 1024

/-- The transmitters are enabled, and a window that had opened before ACT was raised is not sent. -/
def State.dlOpen (s : State) (half : Bool) : Bool := s.twu.act && decide (s.twu.upAt ≤ s.windowStart half)

/-- Sends a frame on the trunk's port of a channel. -/
def State.trunkOut (s : State) (trunk : Nat) (chanB : Bool) (fr : List Byte) : State :=
  s.send (.trunk (trunk + 4 * b2n chanB) (withFcs fr))

/-! ### Bundles (R260, R261) -/

/-- The axis's command of this half has been formed in this cycle, by the release deadline of its record (R41). -/
def State.cmdFresh (s : State) (a : Nat) (half : Bool) : Bool :=
  let x := s.axis a
  decide (x.cmd.cycle = s.cyc.n ∧ 0 < x.cmd.done) && (!half || decide (s.cyc.c0 + halfU ≤ x.cmd.done)) &&
    (match s.deadline a (b2n half) with
     | some t => decide (x.cmd.done ≤ t)
     | none => true)

/-- REJOIN to a node on a channel: it is fenced, or an epoch that changes it activates with the next cycle (R271). -/
def State.rejoinNow (s : State) (n : Nat) (b : Bool) : Bool :=
  ((s.node n).link b).rejoin || (match s.cfl.staged with
    | some (body, _) => decide (s.fbr.epoch.phase = .committed ∧ s.fbr.epoch.at_ = s.cyc.n + 1) && s.nodeChanged (s.stagedView body) n
    | none => false)

/-- TCORR of a node on a channel: the lit twin's field (R269, R282). -/
def State.tcorrNow (s : State) (n : Nat) (b : Bool) : Int := if s.pilotish then 0 else tcorrOf ((s.node n).link b).arr

/-- The entry bytes of a node's record. -/
def State.entryBytes (s : State) (node : Nat) (ext : Bool) : List Byte :=
  let room := min (s.nodeEnt node).actEntries (if ext then 3 else 1)
  ((s.actsOf node).take room).flatMap (fun e => actEntry ((e.t - s.cyc.c0) / 1024 % 2 ^ 32) e.level e.out e.owner)

/-- The downlink record at a position. `first` tells that it is its node's first of the cycle, which carries the entries. -/
def State.dlRec (s : State) (r : RecEnt) (half chanB first : Bool) : List Byte :=
  let x := s.axis r.axis
  let d := s.desc r.axis
  let runs := !r.io && x.st.runsJobs
  let fresh := s.cmdFresh r.axis half
  let late := runs && (!fresh || x.cmd.late)
  let stop := runs && ((fresh && x.cmd.stop) || (decide (x.st = .fault) && (x.ownStop || decide (4 ≤ x.noFb))) || decide (x.st = .sto))
  let payload := if runs = false ∨ late then [] else if d.kind = .thin then leBytes 1 (x.cmd.code % 16) else wordBytes x.cmd.payload
  let entries := if first ∧ half = false then s.entryBytes r.node r.ext else []
  dlRecord (s.cyc.n % 2 ^ 32) r.node r.sub (!r.io && x.st.enabled) late stop (s.rejoinNow r.node chanB) r.ext (s.tcorrNow r.node chanB)
    payload entries

/-- The records of a list of positions. -/
def State.dlRecs (s : State) (rs : List RecEnt) (half chanB : Bool) : List Byte :=
  rs.zipIdx.flatMap (fun p => s.dlRec p.1 half chanB (!(rs.take p.2).any (fun q => decide (q.node = p.1.node))))

/-- A bundle frame of a slot up to its FCS. -/
def State.dlBundle (s : State) (k : Nat) (e : SlotEnt) (rs : List RecEnt) (chanB : Bool) : List Byte :=
  s.trunkMac chanB e.trunk none ++ bundleHdr 3 rs.length chanB e.half k (s.cyc.n % 2 ^ 32) ++ s.dlRecs rs e.half chanB

/-! ### SAFE frames (R362, R372 to R376) -/

/-- The downlink connections of a slot, in the order of the safety section. -/
def State.downConns (s : State) (k : Nat) : List (Nat × ConnDecl) :=
  (s.safety.conns.zipIdx.map (fun p => (p.2, p.1))).filter (fun p => p.2.down && decide (p.2.slot = k))

/-- The PDU of a connection goes out with the next SEQ: with the island's permits, or with zero data where the gate has not
computed the same bytes. The bits of the node's safe outputs have no stated rule and are a free value. -/
def State.safePdu (s : State) (c : Nat) (d : ConnDecl) : List Byte × State :=
  let x := s.conn c
  let seq := (x.last + 1) % 65536
  let f := s.free
  let data := if s.sfi.txOk ∧ s.sfi.st = .normal then
      downData (fun a => s.sfi.permit.contains a) (fun a => s.sfi.brakeOff.contains a) d.subs (f.1.toNat % 2 ^ 32)
    else List.replicate 8 0
  (mkPdu d.connId seq d.wd 1 data, f.2.setConn c { x with last := seq, started := true })

/-- The body of a SAFE frame. -/
def State.safeBody (s : State) (k : Nat) : List Byte × State :=
  (s.downConns k).foldl (fun acc p =>
    let r := acc.2.safePdu p.1 p.2
    (acc.1 ++ r.1, r.2)) ([], s)

/-! ### Spare slots (R276, R277, R279, R281) -/

/-- Bytes of the record of a slot. -/
def State.slotRecLen (s : State) (e : SlotEnt) : Nat := match s.recsOf e with
  | r :: _ => dlLen r.ext
  | [] => dlLen false

/-- The fragment of a stream that is due, in a body of `len` bytes. -/
def cplFragment (x : CplStream) (cycle len : Nat) : List Byte :=
  let m := len - 12
  let count := (x.bytes.length + m - 1) / max m 1
  sealRec cycle false (leBytes 2 x.next ++ leBytes 2 count ++ x.candle.take 4 ++ padTo m ((x.bytes.drop (m * x.next)).take m))

/-- A stream after a fragment of it has been sent, or none at its end. -/
def CplStream.advance (x : CplStream) (len : Nat) : Option CplStream :=
  if x.bytes.length ≤ (len - 12) * (x.next + 1) then none else some { x with next := x.next + 1 }

/-- The records of SPARE_BOUND nodes that a downlink spare slot carries: of the node that keeps the paired uplink slot. -/
def State.spareRecs (s : State) (k : Nat) (e : SlotEnt) : List RecEnt :=
  let up := (List.range s.slotCount).find? (fun u =>
    let q := s.slotEnt u
    decide (q.down = false ∧ q.kind = 2 ∧ q.pair = k ∧ q.trunk = e.trunk))
  (s.recsOf e).filter (fun r => match up with
    | some u => decide ((s.node r.node).spare = some u)
    | none => false)

/-- The frames of a spare slot, by channel, and the state after them. -/
def State.spareFrames (s : State) (k : Nat) (e : SlotEnt) : List (Bool × List Byte) × State :=
  let cyc := s.cyc.n % 2 ^ 32
  let acks := s.slc.acks.filter (fun a => decide (a.slot = k ∧ a.port % 4 = e.trunk))
  if acks ≠ [] then
    (acks.map (fun a =>
      let b := decide (4 ≤ a.port)
      (b, s.trunkMac b e.trunk (some (2, a.node)) ++ bundleHdr 6 0 b e.half k cyc ++ a.body)),
     { s with slc := { s.slc with acks := s.slc.acks.filter (fun a => !acks.contains a) } })
  else
    let rs := s.spareRecs k e
    if rs ≠ [] then ([false, true].map (fun b => (b, s.dlBundle k e rs b)), s)
    else match s.slc.streams.find? (fun x => decide (x.trunk = e.trunk)) with
      | some x =>
        let len := s.slotRecLen e
        let rest := s.slc.streams.erase x
        let l := match x.advance len with
          | some y => y :: rest
          | none => rest
        ([false, true].map (fun b => (b, s.trunkMac b e.trunk (some (1, x.level)) ++ bundleHdr 7 0 b e.half k cyc
          ++ cplFragment x cyc len)), { s with slc := { s.slc with streams := l } })
      | none => ([], s)

/-! ### The slot -/

/-- The frames of a downlink slot by channel, and the state after them. -/
def State.slotFrames (s : State) (k : Nat) (e : SlotEnt) : List (Bool × List Byte) × State :=
  match e.kind with
  | 0 => ([false, true].map (fun b => (b, s.dlBundle k e (s.recsOf e) b)), s)
  | 1 =>
    if s.sfi.st = .init then ([], s)
    else
      let r := s.safeBody k
      ([false, true].map (fun b => (b, s.trunkMac b e.trunk none ++ bundleHdr 4 0 b e.half k (s.cyc.n % 2 ^ 32) ++ r.1)), r.2)
  | 2 => if s.pilotish then ([], s) else s.spareFrames k e
  | _ => ([], s)

/-- The records a downlink slot carries. -/
def State.slotSends (s : State) (k : Nat) (e : SlotEnt) : List RecEnt :=
  if e.kind = 0 then s.recsOf e
  else if e.kind = 2 ∧ s.slc.acks.all (fun a => !decide (a.slot = k ∧ a.port % 4 = e.trunk)) = true then s.spareRecs k e
  else []

/-- SLC_NODEn_TCORR holds the last TCORR sent on each channel: the lit twin's only (R282). -/
def State.tcorrShow (s : State) (rs : List RecEnt) : State :=
  if s.pilotish then s
  else forAll rs (fun r st => st.updNode r.node (fun x =>
    { x with a := { x.a with tcorr := s.tcorrNow r.node false }, b := { x.b with tcorr := s.tcorrNow r.node true } })) s

/-- When the contents of a downlink slot stand: at its start, and for axis records at the release deadline of the last (R41). -/
def State.slotDue (s : State) (k : Nat) (e : SlotEnt) : Nat :=
  ((s.slotSends k e).filterMap (fun r => if r.io then none else s.deadline r.axis (b2n e.half))).foldl max (s.cyc.c0 + e.start * 1024)

/-- DOWNLINK_SLOT: a downlink slot of this cycle: SLC builds its frame and, while its transmitters are enabled, sends it on both
channels (R250, R260, R262). The frame starts at the slot's start, and a job released before its own record's deadline is in it (R41):
the frame is taken whole once the deadline of its last record has come. -/
def execDownlinkSlot (k : Nat) (s : State) : Host.Outcome State Fault Refusal :=
  let e := s.slotEnt k
  if s.cyc.running = false ∨ s.slotCount ≤ k ∨ e.down = false ∨ e.active s.cyc.n = false ∨ s.slc.sent.contains k ∨
      s.now < s.slotDue k e then .next s
  else
    let r := s.slotFrames k e
    let s1 : State := { r.2 with slc := { r.2.slc with sent := k :: r.2.slc.sent } }
    if s1.dlOpen e.half = false then .next s1
    else .next (forAll r.1 (fun p st =>
      let st1 := st.trunkOut e.trunk p.1 p.2
      if p.1 then st1 else st1.dlCopy k e.half (withFcs p.2)) (s1.tcorrShow (s.slotSends k e)))

/-! ### The beacon (R258) -/

/-- BEACON on every trunk in use, on both channels, while the transmitters are enabled. The frame start within 6.4 ns and the slot
field of its header have no stated value. -/
def State.beacon (s : State) : State :=
  if s.twu.act = false then s
  else
    let f := s.frees 2
    let ofs := (f.1.getD 0 0).toNat % 411
    let slot := (f.1.getD 1 0).toNat % 1024
    let n := s.cyc.n
    forAll s.trunksUsed (fun t st =>
      let sp := st.spareSlots t
      let ji := Tab.get 0 st.slc.joinIdx t
      let free := sp.any st.spareIsFree
      let joinAt := if free then (st.slotEnt (sp.getD ji 0)).start else 0xFFFFFFFF
      forAll [false, true] (fun b st1 =>
        let p := st1.port (t + 4 * b2n b)
        let body := beaconBody n (st1.per / 1024) (st1.rd Reg.cycAct).toNat ofs st1.ownCandle (st1.glb.id % 64)
          (st1.glb.st.code % 16 + 16 * (st1.glb.role.code % 8)) (u16 (tcorrOf p.cplArr1)) (u16 (tcorrOf (p.cplArr2 - p.chain)))
          (if free then ji % 32 else 0) (st1.spareFreeWord t).toNat joinAt
        let fr := st1.trunkMac b t none ++ bundleHdr 1 0 b false slot (n % 2 ^ 32) ++ body
        let st2 := st1.trunkOut t b fr
        if b then st2 else st2.dlCopy slot false (withFcs fr)) st) f.2

end Sys2Proof.Machine
end

