-- ==== Sys2Proof/Machine/Twin.lean ====
section
/-! DEFINITION. Machine/Twin.lean: the twin unit: the wick, shadow computation, self-test, takeover, handover, roles and peer records
(R334 to R358). Bodies of HB, STATE and MSG frames have no bit layout in the spec: they are structured here, and on the wire they
stand as messages 0x23, 0x24 and 0x25, and a fragment of an image as 0x26. -/

namespace Sys2Proof.Machine

/-! ### Views -/

/-- TWU_STATUS. -/
def State.twuStatusWord (s : State) : Word :=
  let t := s.twu
  w32 (b2n t.act * 2 ^ 31 + b2n t.pAct * 2 ^ 30 + b2n t.wickOk * 2 ^ 29 + b2n t.inhibit * 2 ^ 28 + b2n t.link * 2 ^ 27
    + b2n t.hbOk * 2 ^ 26 + b2n t.shadow * 2 ^ 25 + b2n t.xfer * 2 ^ 24 + t.wickCause % 16 * 2 ^ 16 + s.glb.role.code % 8 * 2 ^ 8)

/-- The peer record in force (R429). -/
def State.peerSerial (s : State) : Nat := ((peerBest s.cfl.peers).map (fun r => leAt r 8 8)).getD 0

/-- The peer record names the partner. -/
def State.peerNamed (s : State) : Bool := decide (s.twu.partner.serial ≠ 0 ∧ s.peerSerial = s.twu.partner.serial)

/-- A received TW frame passes its check (detector 0x0F makes it fail). -/
def State.twRx (s : State) : Bool × State :=
  if s.paired = false ∨ s.twu.link = false then (false, s)
  else
    let i := s.inject 0x0F 0
    if i.1 then (false, i.2.count Reg.fbrCheckErrCnt) else (true, i.2)

/-! ### The wick (R336 to R338) -/

/-- A wick fault: INHIBIT, and DEGRADED for as long as it stands (R346). -/
def State.wickFault (s : State) (cause : Nat) : State :=
  if s.twu.wickBad then s
  else
    let s1 := s.updTwu (fun t => { t with wickBad := true, wickOk := false, wickCause := cause, inhibit := true, disagree := 0 })
    ((s1.count Reg.twuWickFaultCnt).event 0x1003 [.h cause]).degrade 0x1003

/-- A twin becomes UNFIT. -/
def State.twUnfit (s : State) (cause : Nat) : State :=
  (s.setRole .unfit cause).updTwu (fun t => { t with shadow := false, inhibit := true, resyncs := [], xfer := false, clean := 0 })

/-- INHIBIT as a role that may raise ACT has it. -/
def State.unInhibit (s : State) : State := s.updTwu (fun t => { t with inhibit := t.wickBad })

/-- PARTNER_ACT_CHANGE: the partner's wick pair reads new levels. -/
def execPartnerActChange (a b : Bool) (s : State) : Host.Outcome State Fault Refusal :=
  if a = b then .next (s.updTwu (fun t => { t with badAt := some (t.badAt.getD s.now), bothAt := none }))
  else .next (s.updTwu (fun t => { t with
    pAct := a, pActAt := if t.pAct = a ∧ t.badAt = none then t.pActAt else s.now, badAt := none
    bothAt := if a ∧ t.act then some (t.bothAt.getD s.now) else none, wickOk := !t.wickBad }))

/-- WICK_FAULT: a cause of R338 is met: the IN pair invalid for 100 ns, an OUT pin that differs for 100 ns, or a partner that
contradicts its line in 3 cycles. -/
def execWickFault (cause : Nat) (s : State) : Host.Outcome State Fault Refusal :=
  let met : Bool := match cause with
    | 1 => match s.twu.badAt with
      | some t => decide (t + 100 * nsU ≤ s.now)
      | none => false
    | 2 => true
    | 3 => decide (3 ≤ s.twu.disagree)
    | _ => false
  if s.paired ∧ met then .next (s.wickFault cause) else .next s

/-- WICK_CONFLICT: both ACT lines have been asserted for 200 ns: the twin with the higher serial number drops its own. -/
def execWickConflict (s : State) : Host.Outcome State Fault Refusal :=
  match s.twu.bothAt with
  | none => .next s
  | some t =>
    if s.twu.act = false ∨ s.now < t + 200 * nsU ∨ s.fuses.serial.toNat < s.twu.partner.serial then .next s
    else
      let s1 := (s.setAct false).updTwu (fun x => { x with bothAt := none })
      .next ((s1.event 0x1004 [.w s.twu.partner.serial]).twUnfit 0x1004)

/-! ### Takeover (R337, R345, R350, R355) -/

/-- Arrival offsets of the couplers as the new lit twin begins with them: those it measured, less TW_SKEW. -/
def State.lessSkew (s : State) : State :=
  forAll s.ctrl.twSkew (fun q st =>
    let p := st.port q.1
    st.setPort q.1 (if q.2.1 = 1 then { p with cplArr1 := p.cplArr1 - q.2.2 } else { p with cplArr2 := p.cplArr2 - q.2.2 })) s

/-- The new lit twin of a failed lantern announces with the old lantern's priorities and clockClass, as the last Announce over
TW carried them (R300). -/
def State.annTaken (s : State) : State :=
  match (s.tport 2).ann with
  | some a =>
    if s.tbu.hasLantern ∧ s.tbu.lantern = s.twu.partner.serial ∧ a.id = s.tbu.lantern then
      s.updTbu (fun t => { t with annP1 := some (a.p1, a.p2), annCls := some a.cls })
    else s
  | none => s

/-- The pilot takes over: TAKEOVER tells whether a command frame was missed, of a window that had opened before ACT was up and
that the old lit twin could not end. -/
def State.takeover (s : State) : State :=
  let missed := s.cyc.running && decide (s.windowStart false < s.now ∧ s.twu.pActAt < s.instant Reg.cycDlEnd)
  let s1 := (s.setAct true).updTwu (fun t => { t with
    shadow := false, xfer := false, resyncs := [], skip := [], chunks := [], cutover := none, test := none, testOwn := none })
  let s2 : State := { s1 with slc := { s1.slc with streams := s1.slc.streams.map (fun (x : CplStream) => { x with next := 0 }) } }
  let s3 := ((s2.lessSkew.count Reg.twuTakeoverCnt).wr Reg.twuLastTakeover
    (w32 (b2n missed * 2 ^ 31 + min 4095 (s.inCycle / (10 * nsU)) * 65536 + s.cyc.n % 65536)))
  (s3.event 0x1001 [.h (b2n missed), .w s.co]).annTaken.setRole .lit 0x1001

/-- ACT_RAISE: the partner's line has read deasserted for 2 us and INHIBIT is 0: the pilot takes over, and a twin that is to be
LIT, or that has no twin, raises ACT. -/
def execActRaise (s : State) : Host.Outcome State Fault Refusal :=
  let t := s.twu
  if t.act ∨ t.inhibit ∨ t.pAct ∨ t.badAt.isSome ∨ s.now < t.pActAt + 2000 * nsU ∨ s.glb.st = .off then .next s
  else match s.glb.role with
    | .pilot => .next s.takeover
    | .alone =>
      if s.paired = false then .next (s.setAct true)
      else if t.claim then .next ((s.setAct true).setRole .lit 0x0102)
      else .next s
    | _ => .next s

/-- CYC_STALL: CYC has not begun a cycle 2 us after it was due. -/
def execCycStall (s : State) : Host.Outcome State Fault Refusal :=
  if s.cyc.running = false ∨ s.cyc.stall ∨ s.now < s.cyc.c0 + s.per + 2000 * nsU then .next s
  else
    let s1 : State := { s with cyc := { s.cyc with stall := true } }
    .next ((s1.actDrop 5).enterFault 0x1002)

/-! ### Shadow computation (R339 to R343) -/

/-- A mismatch or a difference makes an axis be resynchronised. -/
def State.resyncAxis (s : State) (a cause : Nat) : State :=
  if s.twu.resyncs.any (fun r => decide (r.axis = a)) then s
  else s.updTwu (fun t => { t with resyncs := t.resyncs ++ [{ axis := a, cause := cause }], skip := a :: t.skip })

/-- The twin compares: it shadows, in a role that does. -/
def State.compares (s : State) : Bool := s.twu.shadow && decide (s.glb.role = .pilot ∨ s.glb.role = .probation)

/-- A mismatch is counted (R341, R342, R353). -/
def State.mismatch (s : State) (a ofs : Nat) : State :=
  let s1 := (s.count Reg.twuMismatchCnt).wr Reg.twuLastMismatch (w32 (a % 256 * 2 ^ 24 + ofs % 256 * 65536 + s.cyc.n % 65536))
  let s2 := s1.updTwu (fun t => { t with mm := t.mm ++ [s.cyc.n], mmNow := true, clean := 0 })
  (s2.wr Reg.twuProbation 0).event 0x1005 [.h a, .h ofs]

/-- The first byte of two lists that differs, from an offset on, among those a rule compares. -/
def firstDiff (cmp : Nat → Bool) : Nat → List Byte → List Byte → Option Nat
  | k, x :: xs, y :: ys => if cmp k && decide (x ≠ y) then some k else firstDiff cmp (k + 1) xs ys
  | _, _, _ => none

/-- The bytes of a record that are compared: REJOIN masked, without TCORR and RCRC. -/
def recMask (r : List Byte) : List Byte :=
  let f := leAt r 1 1
  r.take 1 ++ leBytes 1 (if f.testBit 2 then f - 4 else f) ++ r.drop 2

/-- The landing map of this cycle (R335): 8 bytes for each axis active in it, in ascending order. -/
def State.landEntry (s : State) (a : Nat) : List Byte :=
  let x := s.axis a
  leBytes 4 (if x.mapFlags % 2 = 1 then 0 else x.mapCrc) ++ leBytes 1 (x.mapFlags % 16) ++ [0, 0, 0]

/-- LAND_MAP_SEND: at UL_END + 0.2 us the lit twin sends its landing map. -/
def execLandMapSend (s : State) : Host.Outcome State Fault Refusal :=
  if s.cyc.running = false ∨ s.glb.role ≠ .lit ∨ s.twu.landSent = some s.cyc.n ∨ s.now < s.instant Reg.cycUlEnd + 200 * nsU then .next s
  else
    let s1 := s.updTwu (fun t => { t with landSent := some s.cyc.n })
    .next (s1.twSend 0x22 (s.axesActive.flatMap s.landEntry))

/-- LAND_MAP: the pilot compares the lit twin's landing map with its own. -/
def execLandMap (fr : List Byte) (s : State) : Host.Outcome State Fault Refusal :=
  let r := s.twRx
  match (if r.1 then readFab r.2.fabEther fr else none) with
  | none => .next r.2
  | some (h, body) =>
    if h.ftype ≠ 0x22 ∨ s.compares = false ∨ h.cycle ≠ s.cyc.n then .next r.2
    else .next (forAll r.2.axesActive.zipIdx (fun p st =>
      let a := p.1
      let theirs := (body.drop (8 * p.2)).take 8
      let mine := st.landEntry a
      if theirs = mine ∨ st.twu.resyncs.any (fun q => decide (q.axis = a)) then st
      else if theirs.take 4 ≠ mine.take 4 ∨ leAt theirs 4 1 % 2 ≠ leAt mine 4 1 % 2 then
        (st.count Reg.twuInputDiffCnt).resyncAxis a 1
      else (st.count Reg.twuLateDiffCnt).resyncAxis a 2) r.2)

/-- The records of a copied bundle are compared with the pilot's own (R341). Detector 0x11 makes one differ. -/
def State.compareRecs (s : State) (e : SlotEnt) (recs : List Byte) : State :=
  let rs := s.recsOf e
  let go := rs.zipIdx.foldl (fun (acc : Nat × State) p =>
    let r := p.1
    let len := dlLen r.ext
    let theirs := (recs.drop acc.1).take len
    let st := acc.2
    let mine := st.dlRec r e.half false (!(rs.take p.2).any (fun q => decide (q.node = r.node)))
    let x := st.axis r.axis
    let st1 :=
      if !r.io && st.twu.skip.contains r.axis then st
      else if !r.io && x.st.runsJobs && !st.cmdFresh r.axis e.half then (st.count Reg.twuLateDiffCnt).resyncAxis r.axis 2
      else
        let i := st.inject 0x11 0
        let d := firstDiff (fun k => decide (k < 2 ∨ (4 ≤ k ∧ k + 4 < len))) 0 (recMask mine) (recMask theirs)
        match (if i.1 then some (d.getD 0) else d) with
        | some k =>
          let s2 := i.2.mismatch r.axis k
          if r.io then s2 else s2.resyncAxis r.axis 3
        | none => i.2
    (acc.1 + len, st1)) (0, s)
  go.2

/-- A copied beacon: CYCLE, PERIOD, ACT, CANDLE and CTRL are compared. It names no axis, so the axis of its mismatch is a free
value. -/
def State.compareBeacon (s : State) (b : List Byte) : State :=
  let mine := leBytes 8 s.cyc.n ++ leBytes 4 (s.per / 1024) ++ leBytes 4 (s.rd Reg.cycAct).toNat ++ [0, 0, 0, 0]
    ++ padTo 32 s.ownCandle ++ leBytes 1 (s.glb.id % 64)
  match firstDiff (fun k => decide (k < 16 ∨ 20 ≤ k)) 0 mine (b.take 53) with
  | some k =>
    let f := s.free
    f.2.mismatch (f.1.toNat % 256) k
  | none => s

/-- DL_COPY: the pilot takes the SEQ of each safe connection from the copied SAFE frame, and compares bundles and beacons with
its own (R341, R376). -/
def execDlCopy (fr : List Byte) (s : State) : Host.Outcome State Fault Refusal :=
  let r := s.twRx
  match (if r.1 then readFab r.2.fabEther fr else none) with
  | none => .next r.2
  | some (h, body) =>
    let k := leAt body 0 4 % 1024
    let f := body.drop 4
    let b := (f.drop 24).take (f.length - 28)
    let e := s.slotEnt k
    let ft := leAt f 14 1
    if h.ftype ≠ 0x21 ∨ s.pilotish = false then .next r.2
    else if ft = 4 then
      .next ((s.downConns k).foldl (fun (acc : Nat × State) p =>
        (acc.1 + p.2.len, acc.2.setConn p.1 { acc.2.conn p.1 with last := leAt b acc.1 2, started := true })) (0, r.2)).2
    else if s.compares = false ∨ leAt f 18 4 ≠ s.cyc.n % 2 ^ 32 then .next r.2
    else if ft = 3 then .next (if k < s.slotCount ∧ e.down then r.2.compareRecs e b else r.2)
    else if ft = 1 then .next (r.2.compareBeacon b)
    else .next r.2

/-! ### Self-test (R342) -/

/-- The role steps down. -/
def State.stepDown (s : State) (left cause : Nat) : State := s.event 0x1008 [.h left, .h cause]

/-- SELF_TEST_START: MM_MAX mismatches lie within MM_WIN cycles at the pilot, or the partner has begun its self-test. -/
def execSelfTestStart (s : State) : Host.Outcome State Fault Refusal :=
  let t := s.twu
  let mmax := max 1 (s.rdFld Reg.twuCfg 23 16)
  let due := (s.compares && decide (mmax ≤ t.mm.length)) || (decide (s.glb.role = .lit) && decide (t.partner.test = 1))
  if s.paired = false ∨ t.test.isSome ∨ due = false then .next s
  else .next ((s.updTwu (fun x => { x with test := some s.cyc.n, testOwn := none, mm := [], mmNow := true, clean := 0 })).wr Reg.twuProbation 0)

/-- SELF_TEST: the own self-test has ended with a result, and the partner's is known or has not come within 256 cycles. -/
def execSelfTest (own : Bool) (s : State) : Host.Outcome State Fault Refusal :=
  match s.twu.test with
  | none => .next s
  | some c =>
    let mine := s.twu.testOwn.getD own
    let s0 := s.updTwu (fun t => { t with testOwn := some mine })
    let p := s.twu.partner.test
    if (p ≠ 2 ∧ p ≠ 3) ∧ s.cyc.n < c + 256 then .next s0
    else
      let theirs := decide (p = 2)
      let s1 := (s0.updTwu (fun t => { t with test := none, testOwn := none })).event 0x1007
        [.h (Config.selfTestCode mine), .h (Config.selfTestCode theirs)]
      match s.glb.role with
      | .lit =>
        if mine then .next s1
        else if theirs then .next ((s1.stepDown 0 1).updTwu (fun t => { t with hand := true, handCycle := s.cyc.n, stepDown := true }))
        else .next ((s1.stepDown 0 1).degrade 0x1008)
      | .pilot =>
        if mine = false then .next ((s1.stepDown 1 1).twUnfit 0x1008)
        else if theirs then .next ((s1.stepDown 1 2).twUnfit 0x1008)
        else .next s1
      | _ => .next s1

/-! ### The twin link (R335, R338, R347, R348, R350) -/

/-- A newcomer's transfer begins (R351). -/
def State.xferBegin (s : State) : State := s.updTwu (fun t => { t with xfer := true, cutover := none })

/-- The role of an ALONE twin follows what its partner says (R350). -/
def State.aloneNow (s : State) : State :=
  let p := s.twu.partner
  if s.glb.role ≠ .alone ∨ s.twu.act then s
  else if p.role = 0 then
    if s.glb.st ≠ .sync ∧ s.glb.st ≠ .ready then s
    else if s.peerNamed && !s.twu.wasUnfit then if s.twu.xfer then s else (s.updTwu (fun t => { t with inhibit := true, claim := false })).xferBegin
    else
      let s0 := s.setRole .probation 0x1009
      let s1 := if s.peerNamed then s0 else s0.event 0x1009 [.w p.serial]
      (s1.updTwu (fun t => { t with inhibit := true, claim := false, wasUnfit := false, clean := 0, adopt := decide (p.prefix_ ≠ candlePrefix s.ownCandle) })).xferBegin
  else if s.glb.st = .ready ∧ p.cstate = 7 ∧ p.role = 4 then
    let own := s.peerNamed
    let first := if own = p.names then decide (s.fuses.serial.toNat < p.serial) else own
    if first then (s.updTwu (fun t => { t with claim := true })).unInhibit else s
  else s

/-- HB: a heartbeat frame of the partner arrives. -/
def execHb (serial role cstate prefix_ phase test : Nat) (act names : Bool) (s : State) : Host.Outcome State Fault Refusal :=
  let r := s.twRx
  if r.1 = false then .next r.2
  else
    let wrong := decide (act ≠ s.twu.pAct)
    let old := s.twu.partner
    let joins := decide (role = 2 ∨ role = 4) && decide (old.role ≠ role ∨ (old.prefix_ ≠ prefix_ ∧ prefix_ = candlePrefix s.ownCandle))
    let newcomer := decide (s.glb.role = .lit) && (joins || (!old.seen && decide (role = 1 ∨ role = 2 ∨ role = 4)))
    let s1 := r.2.updTwu (fun t => { t with
      partner := { serial := serial, role := role, cstate := cstate, prefix_ := prefix_, epoch := phase, test := test, act := act
                   seen := true, names := names }
      disagree := if wrong then t.disagree + 1 else 0, hbOk := true
      xfer := t.xfer || newcomer
      xferNext := if newcomer then 0 else t.xferNext })
    .next ((s1.wr64 Reg.twuPartnerLo Reg.twuPartnerHi (BitVec.ofNat 64 serial)).aloneNow)

/-- HB_LOST: the partner's HB pin has not toggled for 3 cycles. -/
def execHbLost (s : State) : Host.Outcome State Fault Refusal :=
  if s.paired = false ∨ s.twu.hbOk = false then .next s
  else .next ((s.updTwu (fun t => { t with hbOk := false })).event 0x100D [])

/-- TWIN_LINK: TW gains or loses block lock; on a gain its fixed latencies are known. -/
def execTwinLink (up : Bool) (txLat rxLat : Nat) (s : State) : Host.Outcome State Fault Refusal :=
  if s.twu.link = up ∨ (up ∧ s.pem.lanes.contains (16 * 3 + 2) = false) then .next s
  else
    let s1 := (s.updTwu (fun t => { t with link := up, downAt := if up then t.downAt else s.now, partner := if up then t.partner else
                                      { t.partner with seen := false, test := 0 } })).event 0x100C [.h (b2n up)]
    let s2 :=
      if up then
        let s3 := (s1.wr (Reg.tbuPortTxLat 2) (w32 txLat)).wr (Reg.tbuPortRxLat 2) (w32 rxLat)
        if s3.glb.role = .pilot ∨ s3.glb.role = .probation then s3.xferBegin else s3
      else
        let due := decide (s1.twu.resyncs ≠ [] ∧ s1.glb.role = .pilot)
        let s3 := s1.updTwu (fun t => { t with shadow := false, cutover := none })
        if due then (s3.stepDown 1 3).twUnfit 0x1008 else s3
    .next s2.portStates.tbuShow

/-- START_WAIT: TW down and the partner's ACT deasserted for 5 s make an ALONE twin in READY LIT. -/
def execStartWait (s : State) : Host.Outcome State Fault Refusal :=
  let t := s.twu
  if s.paired = false ∨ s.glb.role ≠ .alone ∨ s.glb.st ≠ .ready ∨ t.link ∨ t.pAct ∨ t.badAt.isSome ∨ t.wickBad ∨
      s.now < max t.downAt t.pActAt + 5 * secTicks then .next s
  else .next (((s.unInhibit).setAct true).setRole .lit 0x0102)

/-- TW_MSG: a MSG frame: traffic of mailbox channel 4 (kind 0 a SEND, 1 its answer with a code), or a health report, whose body
begins with 0xE0 (R446, R511). -/
def execTwMsg (answer : Bool) (code : Nat) (bytes : List Byte) (s : State) : Host.Outcome State Fault Refusal :=
  let r := s.twRx
  if r.1 = false then .next r.2
  else
    let s1 := r.2
    if answer then .next (if (s1.mbChan 4).waitSend then s1.mbAck 4 code (mbReply 0x10 []) else s1)
    else if leAt bytes 0 1 = 0xE0 ∧ bytes.length = 64 then
      .next ((bytesWords 16 bytes).zipIdx.foldl (fun st p => st.wr (Reg.hlmPartner p.2) p.1) s1)
    else
      let q := s1.ringMsg 1 s.glb.id bytes
      .next (q.2.send (.epoch 0x25 [1, if q.1 then Stat.ok else Stat.queueFull] []))

/-! ### State transfer (R343, R351) -/

/-- STATE: a thing of the lit twin's state arrives, to be installed at the next boundary. -/
def execStateChunk (x : XferItem) (s : State) : Host.Outcome State Fault Refusal :=
  let r := s.twRx
  if r.1 = false ∨ s.glb.role = .lit then .next r.2
  else .next (r.2.updTwu (fun t => { t with chunks := t.chunks ++ [x], xfer := t.xfer || (!t.shadow && decide (s.glb.role ≠ .unfit)) }))

/-- A thing received is installed. An axis keeps what of it belongs to this twin's own items and landings. -/
def State.install (s : State) (x : XferItem) : State :=
  match x with
  | .axis a y link units =>
    let own := s.axis a
    let s1 := s.setAxis a { y with enSeq := own.enSeq, stopSeqs := own.stopSeqs, fbNow := own.fbNow, ranHalf := own.ranHalf
                                   lauWait := own.lauWait, cmd := own.cmd, mapFlags := own.mapFlags, mapCrc := own.mapCrc }
    let s2 : State := match link with
      | some l => s1.setLink a l
      | none => { s1 with lau := { s1.lau with links := Tab.del s1.lau.links a } }
    let s3 := forAll units (fun q st => st.setUnit q.1 q.2) s2
    match s.twu.resyncs.find? (fun r => decide (r.axis = a)) with
    | some r => ((s3.updTwu (fun t => { t with resyncs := t.resyncs.filter (fun q => decide (q.axis ≠ a)) })).count Reg.twuResyncCnt).event
        0x1006 [.h a, .h r.cause]
    | none => s3
  | .lines l vms =>
    let s1 : State := { s with vms := vms }
    forAll l (fun q st => (st.setLa q.1 q.2).laShow q.1 q.2) s1
  | .nodes l => forAll l (fun q st => st.setNode q.1 q.2) s
  | .epoch e => s.setEpoch e
  | .encoder k ofs =>
    let c := s.enc k
    s.setEnc k { (c.shift ofs) with serPos := c.serPos + ofs }
  | .cutover n => s.updTwu (fun t => { t with cutover := some n })

/-- The cutover boundary: the twin computes in shadow from here, and a newcomer whose record names its partner is PILOT. -/
def State.cutoverNow (s : State) (n : Nat) : State :=
  if s.twu.cutover ≠ some n then s
  else
    let s1 := (s.updTwu (fun t => { t with cutover := none, xfer := false, shadow := decide (s.glb.role ≠ .lit) })).event 0x100E [.w (n % 2 ^ 32)]
    if s1.glb.role = .alone then (s1.unInhibit).setRole .pilot 0x100E else s1

/-- Axes that a boundary's STATE frames carry at the lit twin in a transfer: about 8 KiB, the size of an axis window (R27, R351;
DEDUCED, log entry 70). -/
abbrev xferBatch : Nat := 1

/-- A newcomer runs under another candle than this lit twin (R352). -/
def State.xferImage (s : State) : Bool :=
  decide (s.twu.partner.role = 2) && decide (s.twu.partner.prefix_ ≠ candlePrefix s.ownCandle)

/-- The active image goes to a newcomer over TW, in fragments (R352). -/
def State.imageSend (s : State) : State :=
  forAll (List.range (fragCount s.cfl.image)) (fun k st => st.send (.epoch 0x26 [k, fragCount s.cfl.image] (fragOf s.cfl.image k))) s

/-- A pass over the axes ends: how many have changed meanwhile is a free value, since the spec does not say what counts as a change.
Fewer than 16 end the transfer: the line angles, node states, epoch and channel offsets follow (257 to 275), and the cutover (256) is
named 4 cycles ahead. From 16 on the stores are sent again. -/
def State.xferPass (s : State) (n : Nat) : State :=
  let f := s.free
  if 16 ≤ f.1.toNat % (s.axesInUse.length + 1) then f.2.updTwu (fun t => { t with xferNext := 0 })
  else
    let s1 := forAll ([257, 258, 259] ++ (List.range 16).map (fun k => 260 + k)) (fun k st => st.send (.epoch 0x24 [k] [])) f.2
    (s1.send (.epoch 0x24 [256, n + 4] [])).updTwu (fun t => { t with cutover := some (n + 4) })

/-- The lit twin's side of a transfer: a newcomer under another candle first receives the image, and its transfer begins once it
runs with it; the axes in use pass in order. -/
def State.xferSend (s : State) (n : Nat) : State :=
  if s.glb.role ≠ .lit ∨ s.twu.xfer = false ∨ s.twu.link = false ∨ s.twu.cutover.isSome then s
  else if s.xferImage then s.imageSend.updTwu (fun t => { t with xfer := false })
  else
    let l := ((s.axesInUse).filter (fun a => decide (s.twu.xferNext ≤ a))).take xferBatch
    match l.getLast? with
    | some a => (forAll l (fun b st => st.send (.epoch 0x24 [b] [])) s).updTwu (fun t => { t with xferNext := a + 1 })
    | none => s.xferPass n

/-- At most 16 resynchronisations are in transfer at once, the others wait in ascending axis index. -/
def State.resyncPick (s : State) : State :=
  let going := (s.twu.resyncs.filter (·.going)).map (·.axis)
  let waits := (s.twu.resyncs.filter (fun r => !r.going)).map (·.axis)
  let next := (((List.range 256).filter waits.contains).take (16 - going.length))
  s.updTwu (fun t => { t with resyncs := t.resyncs.map (fun (r : Resync) => { r with going := r.going || next.contains r.axis }) })

/-- The self-test word of HB. -/
def Twu.testWord (t : Twu) : Nat := match t.test, t.testOwn with
  | some _, some true => 2
  | some _, some false => 3
  | some _, none => 1
  | none, _ => 0

/-- HB of this cycle, and the HB pin. -/
def State.hbSend (s : State) : State :=
  let s1 := (s.updTwu (fun t => { t with hbOut := !t.hbOut })).send (.pin 1 (!s.twu.hbOut))
  if s.paired = false ∨ s.twu.link = false then s1
  else s1.send (.epoch 0x23 [s.fuses.serial.toNat, s.glb.role.code, s.glb.st.code, candlePrefix s.ownCandle, s.fbr.epoch.phase.code,
    s.twu.testWord, b2n s.twu.act, b2n s.peerNamed] [])

/-- TWU at the boundary of cycle `n`: installations, the clean count of the cycle that ends, HB, and detector 0x12. -/
def State.twinBoundary (s : State) (n : Nat) : State :=
  let t := s.twu
  let win := s.rdFld Reg.twuCfg 15 0
  let cl := if t.shadow ∧ t.mmNow = false ∧ s.glb.role = .probation then min 65536 (t.clean + 1) else t.clean
  let s1 := (s.updTwu (fun x => { x with clean := cl, mmNow := false, mm := x.mm.filter (fun c => decide (n < c + win)), chunks := [] })).wr
    Reg.twuProbation (w32 cl)
  let s2 := (forAll t.chunks (fun x st => st.install x) s1).cutoverNow n
  let s3 := (s2.resyncPick).updTwu (fun x => { x with skip := x.resyncs.map (·.axis) })
  let s4 := (s3.xferSend n).hbSend
  if s4.paired = false then s4
  else forAll [0, 1] (fun rail st =>
    let i := st.inject 0x12 rail
    if i.1 then i.2.wickFault 2 else i.2) s4

/-! ### Handover and requests (R349, R350) -/

/-- HANDOVER of TWU_CTRL is written (R349). HB carries no SHADOW: the partner shadows from the cutover that ended its transfer, while
TW is up (R348, R351). -/
def State.handoverAsk (s : State) : State :=
  if s.glb.role = .lit ∧ s.twu.partner.seen ∧ s.twu.partner.role = 1 ∧ s.twu.link ∧ s.twu.xfer = false ∧ s.twu.wickOk ∧ s.twu.hand = false then
    (s.updTwu (fun t => { t with hand := true, handCycle := s.cyc.n, stepDown := false })).wrBit Reg.twuCtrl 0 true
  else s

/-- HANDOVER: a planned handover is asked for. -/
def execHandover (s : State) : Host.Outcome State Fault Refusal := if s.hostOpen then .next s.handoverAsk else .next s

/-- HANDOVER_ACT_DROP: 100 ns after the DL_END of the cycle in which the request was taken. The 2 us of R337 count from here at
the old lit twin. -/
def execHandoverActDrop (s : State) : Host.Outcome State Fault Refusal :=
  let t := s.twu
  if t.hand = false ∨ t.act = false ∨ (s.cyc.n = t.handCycle ∧ s.now < s.instant Reg.cycDlEnd + 100 * nsU) then .next s
  else
    let s1 := ((s.setAct false).event 0x1002 [.h 9]).wrBit Reg.twuCtrl 0 false
    let s2 := s1.updTwu (fun x => { x with hand := false, stepDown := false, pActAt := s.now, bothAt := none })
    if t.stepDown then .next (s2.twUnfit 0x1002)
    else .next ((s2.unInhibit.updTwu (fun x => { x with shadow := true })).setRole .pilot 0x1002)

/-- REQUALIFY at an UNFIT twin. -/
def State.requalify (s : State) : State :=
  if s.glb.role ≠ .unfit then s
  else
    let s1 := (s.setRole .probation 0x0102).updTwu (fun t => { t with clean := 0, inhibit := true, shadow := false })
    (s1.wr Reg.twuProbation 0).xferBegin

/-- REQUALIFY: an UNFIT twin goes to PROBATION. -/
def execRequalify (s : State) : Host.Outcome State Fault Refusal := if s.hostOpen then .next s.requalify else .next s

/-! ### Acceptance (R352 to R354, R429) -/

/-- The writing of the partner into the peer-record region begins. -/
def State.peerBegin (s : State) (byHost : Bool) : State :=
  if s.twu.peerPend.isSome then s else s.updTwu (fun t => { t with peerPend := some (t.partner.serial, s.cyc.n, byHost) })

/-- TWU_ACCEPT is written: the newcomer's serial number, while the candles match. -/
def State.acceptWrite (s : State) (v : Word) : State :=
  let p := s.twu.partner
  if s.glb.role = .lit ∧ p.seen ∧ p.role = 2 ∧ p.prefix_ = candlePrefix s.ownCandle ∧ v.toNat = p.serial % 2 ^ 32 then s.peerBegin true else s

/-- TWU_ACCEPT: the lit twin's host accepts a newcomer. -/
def execTwuAccept (v : Word) (s : State) : Host.Outcome State Fault Refusal := if s.hostOpen then .next (s.acceptWrite v) else .next s

/-- PEER_ACCEPTED: a newcomer meets a condition of acceptance: its clean count, or the lit twin's host. The lit twin takes part with
its own record. -/
def execPeerAccepted (byHost : Bool) (s : State) : Host.Outcome State Fault Refusal :=
  let p := s.twu.partner
  let same := decide (p.prefix_ = candlePrefix s.ownCandle)
  let own := decide (s.glb.role = .probation ∧ p.role = 0) && same &&
    (byHost || (decide (65536 ≤ s.twu.clean) && (s.rdBit Reg.twuCfg 30 || s.peerNamed)))
  let lit := decide (s.glb.role = .lit ∧ p.role = 2) && same
  if s.paired ∧ p.seen ∧ (own ∨ lit) then .next (s.peerBegin byHost) else .next s

/-- PEER_WRITE: the writes of the peer record into both flashes end; `ok` tells where they succeeded, `other` that the partner holds
the record in at least one flash. -/
def execPeerWrite (ok0 ok1 other : Bool) (s : State) : Host.Outcome State Fault Refusal :=
  match s.twu.peerPend with
  | none => .next s
  | some (serial, cycle, byHost) =>
    let seq := ((peerBest s.cfl.peers).map peerSeq).getD 0 + 1
    let r := mkPeer seq serial cycle s.glb.id
    let put := fun (l : List (List Byte)) (ok : Bool) => if ok then peerPut l r else l
    let s1 := (s.updCfl (fun c => { c with peers := [put (c.peers.getD 0 []) ok0, put (c.peers.getD 1 []) ok1] })).updTwu
      (fun t => { t with peerPend := none })
    let sf := s1.countBy Reg.cflPeerFailCnt (b2n (!ok0) + b2n (!ok1))
    let s2 := (sf.event 0x0406 [.h 0, .h (b2n (!ok0))]).event 0x0406 [.h 1, .h (b2n (!ok1))]
    if (ok0 ∨ ok1) ∧ other then
      let s3 := (s2.wr64 Reg.twuPeerLo Reg.twuPeerHi (BitVec.ofNat 64 serial)).event 0x100A [.w serial, .h (b2n byHost)]
      .next (if s3.glb.role = .probation then (s3.unInhibit).setRole .pilot 0x100A else s3)
    else .next (s2.event 0x100B [])

/-- IMAGE_ADOPT: a newcomer has received the lit twin's image and verified it; with it the controller restarts from LOAD. -/
def execImageAdopt (bs : List Byte) (body : ImageBody) (told : List Refused) (s : State) : Host.Outcome State Fault Refusal :=
  if s.twu.adopt = false ∨ s.pilotish = false then .next s
  else
    let r := match imageChecks s.fuses false bs body.firm with
      | some r => some r
      | none => match lineChecks s.dramSize body.line (toldChecks told) with
        | some r => some r
        | none => idChecks bs body s.glb.id (toldChecks told)
    let s0 := s.updTwu (fun t => { t with adopt := false })
    match r with
    | some r => .next ((s0.refuse 5 r).event 0x100F [.h 1])
    | none =>
      let s1 := (s0.dramWrite s.otherArea bs).wrBit Reg.cflStatus 28 (!s.rdBit Reg.cflStatus 28)
      let s2 := s1.updCfl (fun c => { c with cand := some { slot := 5, bytes := bs } })
      .next (((s2.updTwu (fun t => { t with shadow := false, xfer := false })).event 0x100F [.h 0]).setCtl .load 0x100F)

end Sys2Proof.Machine
end

