-- ==== Sys2Proof/Machine/Router.lean ====
section
/-! DEFINITION. Machine/Router.lean: the event router EVR (R449 to R453): arrivals, masks, claims and completions; MSI-X messages
(R442); and the endpoint's link and configuration (R434 to R436). -/

namespace Sys2Proof.Machine

/-! ### Arrivals, masks and settings (R450, R453) -/

/-- Sources that some input drives: those that the blocks' own tables name, the axis groups and the rings. -/
def srcDriven (n : Nat) : Bool :=
  let cnt := [0, 2, 8, 7, 6, 12, 7, 7, 9, 8, 14, 11, 13, 11, 14, 12, 15, 13, 8, 2, 5, 4, 4, 12]
  decide (0x190 ≤ n ∧ n < 0x1E0) || decide (n % 16 < cnt.getD (n / 16) 0)

/-- SOURCE_ARRIVAL: a source's input takes a level. -/
def execSourceArrival (n : Nat) (lvl : Bool) (s : State) : Host.Outcome State Fault Refusal :=
  .next (if srcDriven n then s.level n lvl else s)

/-- Changes the sources that a word names; eligibility follows. -/
def State.srcWrite (s : State) (w : Nat) (v : Word) (f : Src → Src) : State :=
  (forAll (List.range 32) (fun i st =>
    let n := 32 * w + i
    if bit v i && !srcReserved n && decide (n < 512) then st.setSrc n (f (st.src n)) else st) s).evrUpdate

/-- Masks sources. -/
def State.evrMask (s : State) (w : Nat) (v : Word) (on : Bool) : State := s.srcWrite w v (fun x => { x with masked := on })

/-- Sets PENDING: each is an arrival. -/
def State.evrPendSet (s : State) (w : Nat) (v : Word) : State :=
  let hit := (List.range 32).filter (fun i => bit v i && !srcReserved (32 * w + i) && decide ((s.src (32 * w + i)).arrivals = 254))
  let s1 := s.srcWrite w v (fun x => { x with pending := true, arrivals := min 255 (x.arrivals + 1) })
  forAll hit (fun i st => st.event 0x1302 [.h (32 * w + i)]) s1

/-- Clears PENDING; it follows the input of a LEVEL source that is not active. -/
def State.evrPendClr (s : State) (w : Nat) (v : Word) : State :=
  s.srcWrite w v (fun x => if x.sense = .level ∧ x.input = true ∧ x.active = false then x else { x with pending := false })

/-- EVR_SRCs_CFG is written. -/
def State.evrCfgWrite (s : State) (n : Nat) (v : Word) : State :=
  if srcReserved n ∨ 512 ≤ n then s
  else (s.setSrc n { s.src n with vec := fld v 11 9, targets := fld v 6 3, sense := Sense.ofCode (fld v 1 0) }).evrUpdate

/-- MASK_SET: EVR_MASK_SETw is written. -/
def execMaskSet (w : Nat) (v : Word) (s : State) : Host.Outcome State Fault Refusal :=
  if s.hostOpen ∧ w < 16 then .next (s.evrMask w v true) else .next s
/-- MASK_CLR: EVR_MASK_CLRw is written. -/
def execMaskClr (w : Nat) (v : Word) (s : State) : Host.Outcome State Fault Refusal :=
  if s.hostOpen ∧ w < 16 then .next (s.evrMask w v false) else .next s
/-- PEND_SET: EVR_PEND_SETw is written. -/
def execPendSet (w : Nat) (v : Word) (s : State) : Host.Outcome State Fault Refusal :=
  if s.hostOpen ∧ w < 16 then .next (s.evrPendSet w v) else .next s
/-- PEND_CLR: EVR_PEND_CLRw is written. -/
def execPendClr (w : Nat) (v : Word) (s : State) : Host.Outcome State Fault Refusal :=
  if s.hostOpen ∧ w < 16 then .next (s.evrPendClr w v) else .next s

/-! ### Claims and completions (R451, R452) -/

/-- The lowest-numbered source eligible for a target, of one vector where given. -/
def State.claimable (s : State) (k : Nat) (vec : Option Nat) : Option Nat :=
  (s.evr.srcs.filter (fun p => p.2.eligible k && decide (vec = none ∨ vec = some p.2.vec))).foldl (fun (b : Option Nat) p =>
    match b with
    | some n => some (min n p.1)
    | none => some p.1) none

/-- A claim by target `k`: the number that the read returns. -/
def State.claim (s : State) (k : Nat) (vec : Option Nat) : Nat × State :=
  match s.claimable k vec with
  | none => (0x3FF, s.count (Reg.evrSpuriousCnt k))
  | some n =>
    let x := s.src n
    let stay := decide (x.sense = .level) && x.input
    (n, (s.setSrc n { x with active := true, owner := k, pending := stay && x.pending }).evrUpdate)

/-- CLAIM: EVR_CLAIMk is read. -/
def execClaimSrc (k : Nat) (s : State) : Host.Outcome State Fault Refusal :=
  if s.hostOpen ∧ k < 4 then
    let r := s.claim k none
    .next (r.2.send (.bar0 (Reg.evrClaim k) (w32 r.1)))
  else .next s

/-- CLAIM_BY_VECTOR: EVR_CLAIMk_Vv is read. -/
def execClaimByVector (k v : Nat) (s : State) : Host.Outcome State Fault Refusal :=
  if s.hostOpen ∧ k < 4 ∧ v < 8 then
    let r := s.claim k (some v)
    .next (r.2.send (.bar0 (Reg.evrClaimV k v) (w32 r.1)))
  else .next s

/-- Why a completion is ignored: CAUSE of EVR_LAST_BAD_COMPLETE; none for a valid one. -/
def State.completeBad (s : State) (k n : Nat) : Option Nat :=
  if 0x1FF < n then some 3
  else if (s.src n).active = false then some 1
  else if (s.src n).owner ≠ k then some 2
  else none

/-- Target `k` completes source `n`. -/
def State.evrComplete (s : State) (k n : Nat) : State :=
  if n = 0x3FF then s
  else match s.completeBad k n with
  | some cause =>
    ((s.count Reg.evrBadCompleteCnt).wr Reg.evrLastBadComplete (w32 (cause * 2 ^ 30 + k % 4 * 2 ^ 28 + n % 1024))).event 0x1301
      [.h k, .h n, .h cause]
  | none =>
    let x := s.src n
    let v := 8 * k + x.vec
    let was := s.evr.assertedVec v
    let s1 := (s.setSrc n { x with active := false, pending := if x.sense = .level then x.input else x.pending }).evrUpdate
    if was && s1.evr.assertedVec v then s1.msixDue v else s1

/-- COMPLETE: EVR_COMPLETEk is written. -/
def execCompleteSrc (k : Nat) (v : Word) (s : State) : Host.Outcome State Fault Refusal :=
  if s.hostOpen ∧ k < 4 then .next (s.evrComplete k (fld v 9 0)) else .next s

/-! ### MSI-X messages and the endpoint (R434 to R436, R442, R454) -/

/-- MSIX_MESSAGE: a message of vector `v` that is due or pending is sent once nothing holds it; one that is due while held
becomes pending. -/
def execMsixMessage (v : Nat) (s : State) : Host.Outcome State Fault Refusal :=
  let drop : State := { s with evr := { s.evr with due := s.evr.due.erase v } }
  let clear : State := { s with evr := { s.evr with pba := s.evr.pba.filter (fun q => decide (q ≠ v)) } }
  if s.evr.due.contains v then .next (if s.msixHeld v then drop.msixDue v else drop.send (.msix v))
  else if s.evr.pba.contains v ∧ s.msixHeld v = false then .next (clear.send (.msix v))
  else .next s

/-- PERST_N: the endpoint is reset: its link, configuration space, BAR assignments, MSI-X table and PBA. -/
def execPerstN (s : State) : Host.Outcome State Fault Refusal :=
  let s1 : State := { s with pcie := {}, evr := { s.evr with due := [], pba := [] } }
  let s2 := forAll (List.range 32) (fun v st =>
    (((st.wr (Reg.msixAddrLo v) 0).wr (Reg.msixAddrHi v) 0).wr (Reg.msixData v) 0).wr (Reg.msixCtl v) 1) s1
  .next s2.evrUpdate

/-- PCIE_LINK: the link comes up at a speed and width, or goes down; one that is up may change its speed and width. -/
def execPcieLink (up : Bool) (speed width : Nat) (s : State) : Host.Outcome State Fault Refusal :=
  let sp := if up then min (max speed 1) 3 else 0
  let wd := if up then min (max width 1) 2 else 0
  let s1 : State := { s with pcie := { s.pcie with linkUp := up, speed := sp, width := wd } }
  if s.glb.st = .off then .next s
  else if s.pcie.linkUp = up then .next s1
  else .next (s1.event 0x1203 [.h (b2n up), .h sp, .h wd])

/-- The endpoint's state after a configuration write. -/
def Pcie.put (p : Pcie) : PcieWrite → Pcie
  | .busMaster on => { p with busMaster := on }
  | .msix en fm => { p with msixEn := en, funcMask := fm }
  | .power d => { p with d3 := d }
  | .bar k a => if k = 0 then { p with bar0 := a / 2 ^ 22 * 2 ^ 22 } else if k = 2 then { p with bar2 := a / 2 ^ 28 * 2 ^ 28 } else p

/-- PCIE_CONFIG_WRITE: Bus Master Enable, MSI-X enable and function mask, the power state or a BAR is written. -/
def execPcieConfigWrite (w : PcieWrite) (s : State) : Host.Outcome State Fault Refusal :=
  if s.glb.st = .off then .next s
  else
    let s1 : State := { s with pcie := s.pcie.put w }
    .next s1.evrUpdate

end Sys2Proof.Machine
end

