-- ==== Sys2Proof/Machine/Mailbox.lean ====
section
/-! DEFINITION. Machine/Mailbox.lean: the mailboxes MBX (R443 to R447), the doorbells (R448), the messages of channels 4 and 5
(R446, R472), the requests of channel 6 (R385) and the health report (R511). -/

namespace Sys2Proof.Machine

/-! ### States of a channel (R443, R444) -/

/-- SAFE_SRC: the sender of channel 6. -/
def State.safeSrc (s : State) : Nat := s.rdFld Reg.mbxCfg 2 0

/-- The host may write the channel's page. -/
def State.mbHost (s : State) (c : Nat) : Bool := decide (c < 6) || (decide (c = 6) && decide (s.safeSrc < 4))

/-- MB_PROTOCOL: an access that the channel's page or state does not allow. -/
def State.mbErr (s : State) (c cause : Nat) : State := (s.count Reg.mbxProtoErrCnt).event 0x1202 [.h c, .h cause]

/-- The host's access to a channel's page takes effect where the page is writable. -/
def State.mbPage (s : State) (c : Nat) (f : State → State) : State := if s.mbHost c then f s else s.mbErr c 1

/-- A message is posted: IDLE to POSTED. -/
def State.mbPost (s : State) (c : Nat) : State :=
  let x := s.mbChan c
  if x.st ≠ .idle then s.mbErr c 2
  else
    (s.setMbChan c { x with st := .posted, op := fld (s.rd (Reg.mbxChBuf c 0)) 7 0, seq := (x.seq + 1) % 256 }).wrBit Reg.mbxDbIn c true

/-- A reply is released: ACKED to IDLE. -/
def State.mbRelease (s : State) (c : Nat) : State :=
  let x := s.mbChan c
  if x.st ≠ .acked then s.mbErr c 2
  else (s.setMbChan c { x with st := .idle, ackValid := false, ackLen := 0, ackCode := 0 }).dbOutPut (w32 (2 ^ c)) false

/-- A word of the buffer is written. -/
def State.mbWord (s : State) (c w : Nat) (v : Word) : State :=
  if (s.mbChan c).st ≠ .idle then s.mbErr c 2 else s.wr (Reg.mbxChBuf c w) v

/-- POST: a channel's POST is written. -/
def execPostMsg (c : Nat) (s : State) : Host.Outcome State Fault Refusal :=
  if s.hostOpen ∧ c < 8 then .next (s.mbPage c (fun st => st.mbPost c)) else .next s

/-- RELEASE: a channel's RELEASE is written. -/
def execReleaseMsg (c : Nat) (s : State) : Host.Outcome State Fault Refusal :=
  if s.hostOpen ∧ c < 8 then .next (s.mbPage c (fun st => st.mbRelease c)) else .next s

/-- LEN of the message in a channel. -/
def State.mbLen (s : State) (c : Nat) : Nat := fld (s.rd (Reg.mbxChBuf c 0)) 31 16

/-- The message's OP is one of the channel's, with a LEN that fits it (R445, R446). -/
def State.mbFits (s : State) (c : Nat) : Bool :=
  let op := (s.mbChan c).op
  let len := s.mbLen c
  if c ≤ 3 then
    match op with
    | 1 => decide (len ≤ 252)
    | 2 => decide (len = 64)
    | 3 => decide (len = 4 + 4 * leAt (s.mbBuf c) 4 1)
    | 4 => decide (len = 0)
    | _ => false
  else if c = 4 then decide (op = 0x10 ∧ len ≤ 248)
  else if c = 5 then decide (op = 0x11 ∧ 4 ≤ len ∧ len ≤ 248)
  else decide (op = 1 ∨ op = 2)

/-- MAILBOX_TAKE: the receiver takes a posted message. One with an unknown OP or a LEN that does not fit is acknowledged at
once. -/
def execMailboxTake (c : Nat) (s : State) : Host.Outcome State Fault Refusal :=
  let x := s.mbChan c
  if c < 8 ∧ x.st = .posted then
    let s1 := (s.setMbChan c { x with st := .busy }).wrBit Reg.mbxDbIn c false
    .next (if s1.mbFits c then s1 else s1.mbAck c Stat.badParam [])
  else .next s

/-- A channel is BUSY with an operation that has not been passed on. -/
def State.mbServes (s : State) (c op : Nat) : Bool :=
  let x := s.mbChan c
  decide (x.st = .busy ∧ x.op = op) && !x.waitItem && !x.waitSend

/-! ### Channels 0 to 3 (R445) -/

/-- ECHO: the message itself. -/
def execEchoOp (c : Nat) (s : State) : Host.Outcome State Fault Refusal :=
  if c < 4 ∧ s.mbServes c 1 then .next (s.mbAck c Stat.ok ((s.mbBuf c).take (4 + s.mbLen c))) else .next s

/-- WORK: the item is taken; it is acknowledged when it completes. A twin that is not LIT refuses it (R473). -/
def execWorkOp (c : Nat) (s : State) : Host.Outcome State Fault Refusal :=
  if 4 ≤ c ∨ s.mbServes c 2 = false then .next s
  else if s.glb.role ≠ .lit ∧ s.glb.role ≠ .alone then .next (s.mbAck c Stat.wrongState [])
  else if 1024 ≤ s.wks.taken.length then .next s
  else .next ((s.setMbChan c { s.mbChan c with waitItem := true }).takeItem (itemOf (0x80 + c) 0 (((s.mbBuf c).drop 4).take 64)))

/-- The value of a global signal at the end of the previous cycle: none where its controller is neither local nor imported. -/
def State.sigRead (s : State) (addr : Nat) : Option Word :=
  let c := addr / 16384
  if 2 ^ 20 ≤ addr then none
  else if c = s.glb.id then some (Tab.get 0 s.sigPrev (addr % 16384))
  else if s.ctrl.imports.any (fun i => decide (i.src = c)) then some (Tab.get 0 s.remotePrev addr)
  else none

/-- SIGNAL_READ: the values of up to 60 signals at the end of the previous cycle. -/
def execSignalRead (c : Nat) (s : State) : Host.Outcome State Fault Refusal :=
  if 4 ≤ c ∨ s.mbServes c 3 = false then .next s
  else
    let b := s.mbBuf c
    let n := leAt b 4 1
    let vals := (List.range n).map (fun k => s.sigRead (leAt b (8 + 4 * k) 4))
    if n < 1 ∨ 60 < n ∨ vals.any (·.isNone) then .next (s.mbAck c Stat.badParam [])
    else .next (s.mbAck c Stat.ok (mbReply 0x03 (leBytes 8 (s.cycleNo - 1) ++ wordBytes (vals.filterMap id))))

/-- INFO: firmware, ID, role, epoch and candle. -/
def execInfoOp (c : Nat) (s : State) : Host.Outcome State Fault Refusal :=
  if 4 ≤ c ∨ s.mbServes c 4 = false then .next s
  else .next (s.mbAck c Stat.ok (mbReply 0x04 (leBytes 4 s.cfl.body.firm.version.toNat ++ leBytes 1 s.lcu.fwSvn
    ++ leBytes 1 s.glb.id ++ leBytes 1 s.glb.role.code ++ [0] ++ leBytes 4 s.ownEpoch ++ s.ownCandle)))

/-! ### Channels 4 and 5 (R446, R472) -/

/-- The SEND of a channel has gone out and waits for its answer. -/
def State.sendWait (s : State) (c : Nat) : State := s.setMbChan c { s.mbChan c with waitSend := true, sentAt := s.now }

/-- A SEND that has waited 100 ms ends with TIMEOUT. -/
def State.sendTimeout (s : State) (c op : Nat) : State :=
  let x := s.mbChan c
  if x.waitSend ∧ x.sentAt + 100 * msU ≤ s.now then s.mbAck c Stat.timeout (mbReply op []) else s

/-- TWIN_SEND: the payload of channel 4 goes to the partner, whose answer is a TW_MSG; after 100 ms without one it times out. -/
def execTwinSend (s : State) : Host.Outcome State Fault Refusal :=
  if s.mbServes 4 0x10 = false then .next (s.sendTimeout 4 0x10)
  else if s.paired = false ∨ s.twu.link = false then .next (s.mbAck 4 Stat.wrongState (mbReply 0x10 []))
  else .next ((s.sendWait 4).send (.epoch 0x25 [0, 0] (((s.mbBuf 4).drop 4).take (s.mbLen 4))))

/-- FABRIC_SEND: the payload of channel 5 goes to a member, whose answer is a FABRIC_MSG; after 100 ms without one it times
out. -/
def execFabricSend (s : State) : Host.Outcome State Fault Refusal :=
  if s.mbServes 5 0x11 = false then .next (s.sendTimeout 5 0x11)
  else
    let b := s.mbBuf 5
    let d := leAt b 4 1
    let ack := fun (code : Nat) => s.mbAck 5 code (mbReply 0x11 [])
    if 64 ≤ d ∨ leAt b 5 3 ≠ 0 ∨ d = s.glb.id ∨ s.fbr.known.contains d = false then .next (ack Stat.badParam)
    else if s.rdBit (Reg.fbrRoute d) 31 = false then .next (ack Stat.wrongState)
    else .next ((s.sendWait 5).send (.epoch 0x14 [d, 0, 0] ((b.drop 8).take (s.mbLen 5 - 4))))

/-- FABRIC_MSG: a MSG frame of controller `from_` for this one: a SEND, the answer to one with a code, or a health report, whose
body begins with 0xE0 (R472, R511). -/
def execFabricMsg (from_ : Nat) (answer : Bool) (code : Nat) (bytes : List Byte) (s : State) : Host.Outcome State Fault Refusal :=
  if s.fbr.links.any id = false ∨ s.glb.idValid = false ∨ 64 ≤ from_ ∨ from_ = s.glb.id then .next s
  else if answer then .next (if (s.mbChan 5).waitSend then s.mbAck 5 code (mbReply 0x11 []) else s)
  else if leAt bytes 0 1 = 0xE0 ∧ bytes.length = 64 then
    .next ((bytesWords 16 bytes).zipIdx.foldl (fun st p => st.wr (Reg.hlmPeer from_ p.2) p.1) s)
  else if s.fabOrigin = false then .next s
  else
    let q := s.ringMsg 2 from_ bytes
    .next (q.2.send (.epoch 0x14 [from_, 1, if q.1 then Stat.ok else Stat.queueFull] []))

/-! ### Channel 6 (R385) -/

/-- The axes of a message's map. -/
def mapAxes (m : List Byte) : List Nat := (List.range 256).filter (fun a => (leAt m (4 + a / 8) 1).testBit (a % 8))

/-- The function and axes of a valid message: a byte value that is reserved, or a monitoring function on an axis that is not
monitored, makes it invalid. -/
def State.safeMsg (s : State) (m : List Byte) : Option (SfFunc × List Nat) :=
  match SfFunc.ofCode (leAt m 1 1) with
  | none => none
  | some f =>
    let axes := mapAxes m
    if 3 < leAt m 2 1 ∨ leAt m 3 1 ≠ 0 then none
    else if 3 ≤ leAt m 1 1 ∧ axes.any (fun a => (s.monOf a).isNone) then none
    else some (f, axes)

/-- The supervisor firmware, where it is the sender, posts a message on channel 6 and the island takes it. -/
def State.firmPost (s : State) (fw : Option (List Byte)) : State :=
  match fw with
  | none => s
  | some m =>
    let s0 := if (s.mbChan 6).st = .acked then s.mbRelease 6 else s
    if s.safeSrc ≠ 4 ∨ (s0.mbChan 6).st ≠ .idle then s
    else
      let s1 := (s0.setMbBuf 6 m).mbPost 6
      (s1.setMbChan 6 { s1.mbChan 6 with st := .busy }).wrBit Reg.mbxDbIn 6 false

/-- DEMAND: a request for a safety function. `fw` is the firmware's message where the firmware sends it. -/
def execDemandReq (fw : Option (List Byte)) (s : State) : Host.Outcome State Fault Refusal :=
  let s1 := s.firmPost fw
  if s1.mbServes 6 1 = false then .next s1
  else
    let m := s1.mbBuf 6
    match s1.safeMsg m with
    | none => .next (s1.mbAck 6 Stat.badParam [])
    | some (f, axes) =>
      let auto := fun (a : Nat) => s1.safety.maps.any (fun e => decide (e.src = .host ∧ e.func = f) && e.auto && e.axes.contains a)
      let ds : List Demand := axes.map (fun a => { axis := a, func := f, src := .host, sls := leAt m 2 1, auto := auto a })
      let s2 := s1.updSfi (fun x => { x with hostReq := x.hostReq ++ ds })
      let s3 := forAll ds (fun d st => st.demand d) s2
      .next ((s3.sfiEvent 0x110D [.h f.code, .h axes.length]).mbAck 6 Stat.ok [])

/-- WITHDRAW: the demands of channel 6 for a function and axes are withdrawn; latches stay. -/
def execWithdrawReq (fw : Option (List Byte)) (s : State) : Host.Outcome State Fault Refusal :=
  let s1 := s.firmPost fw
  if s1.mbServes 6 2 = false then .next s1
  else
    match s1.safeMsg (s1.mbBuf 6) with
    | none => .next (s1.mbAck 6 Stat.badParam [])
    | some (f, axes) =>
      let keep := s1.sfi.hostReq.filter (fun (d : Demand) => !(decide (d.func = f) && axes.contains d.axis))
      .next ((s1.updSfi (fun x => { x with hostReq := keep })).mbAck 6 Stat.ok [])

/-! ### Doorbells (R448) -/

/-- A ring is kicked. -/
def State.kick (s : State) (r : Nat) : State := s.wrBit Reg.mbxDbIn (8 + r) true

/-- KICK: a ring's bit of MBX_DB_IN_SET is written. -/
def execKickRing (r : Nat) (s : State) : Host.Outcome State Fault Refusal :=
  if s.hostOpen ∧ r < 16 then .next (s.kick r) else .next s

/-- DB_OUT_SET: free bits of DB_OUT are set. -/
def execDbOutSet (v : Word) (s : State) : Host.Outcome State Fault Refusal :=
  if s.hostOpen then .next (s.dbOutPut (v &&& 0xFFFFFF00#32) true) else .next s

/-- DB_OUT_CLR: free bits of DB_OUT are cleared. -/
def execDbOutClr (v : Word) (s : State) : Host.Outcome State Fault Refusal :=
  if s.hostOpen then .next (s.dbOutPut (v &&& 0xFFFFFF00#32) false) else .next s

/-! ### The health report (R511) -/

/-- HEALTH_REPORT: at a boundary whose cycle number is a multiple of 1,024 a report is formed and published. -/
def execHealthReport (s : State) : Host.Outcome State Fault Refusal :=
  let n := s.cyc.n
  if s.cyc.running = false ∨ n % 1024 ≠ 0 ∨ s.hlm.reportAt = some n then .next s
  else
    let b := s.healthBytes
    let s1 := (bytesWords 16 b).zipIdx.foldl (fun st p => st.wr (Reg.hlmReport p.2) p.1) s
    let s2 :=
      if s1.ringRole 12 ≠ 4 then s1
      else if s1.ringRoom 12 1 then (s1.ringPut 12 b).updHlm (fun h => { h with dropped := 0 })
      else (s1.updHlm (fun h => { h with dropped := h.dropped + 1 })).count Reg.hlmHealthDropCnt
    let s3 := if s2.paired ∧ s2.twu.link then s2.send (.epoch 0x25 [0, 0] b) else s2
    let s4 := if s3.fbr.links.any id ∧ s3.glb.idValid ∧ s3.fabOrigin then s3.send (.epoch 0x14 [64, 0, 0] b) else s3
    .next (s4.updHlm (fun h => { h with reportAt := some n, ceReport := 0, maxLoad := 0, minSlack := 0xFFFFFFFF }))

end Sys2Proof.Machine
end

