-- ==== Sys2Proof/Machine/Bar.lean ====
section
/-! DEFINITION. Machine/Bar.lean: the host's reads and writes of BAR0 (R3 to R7, R22, R26 to R28) and of BAR2 (R437 to R440), and
the commands of the service port (R447). -/

namespace Sys2Proof.Machine

/-- The number of a register among `n` that stand `stride` apart from `base`. -/
def regIdx (a base stride n : Nat) : Option Nat :=
  if base ≤ a ∧ (a - base) % stride = 0 ∧ (a - base) / stride < n then some ((a - base) / stride) else none

/-- The access reaches its range: GLB, PEM, LCU, CFL and the MSI-X table and PBA from BOOT onward, every other from DISCOVER
onward (R26, R440). -/
def State.reach (s : State) (a : Nat) : Bool := s.hostUp && (s.glb.opened || earlyRange a)

/-! ### Views: registers that show what the block holds elsewhere -/

/-- LCU_STATE. -/
def Fuses.word (f : Fuses) : Word :=
  let bits := fun (l : List Bool) => (bitsWord l).toNat
  w32 (f.state % 16 * 2 ^ 28 + b2n f.ok * 2 ^ 27 + f.toggles % 64 * 2 ^ 21 + bits (f.oem.map (·.isSome)) * 2 ^ 12
    + bits f.oemRev * 2 ^ 8 + bits (f.quet.map (·.isSome)) * 2 ^ 6 + bits f.quetRev * 2 ^ 4)

/-- LAU_LAn_CFG. -/
def LaDecl.word (d : LaDecl) : Word :=
  w32 (d.src.code % 8 * 2 ^ 29 + b2n d.exported * 2 ^ 28 + d.rejoin % 4 * 2 ^ 26 + d.loss % 4 * 2 ^ 24 + b2n d.evtSubst * 2 ^ 23
    + d.srcCtrl % 64 * 2 ^ 16 + d.srcIndex % 256 * 2 ^ 8)

/-- CMU_CFG. -/
def State.cmuCfgWord (s : State) : Word :=
  let ks := s.ctrl.axes.map (·.2)
  let tab := fun (t : Nat) => s.ctrl.regs.any (fun p =>
    if t = 0 then decide (Reg.cmuSwtab0 0 ≤ p.1 ∧ p.1 < Reg.cmuSwtab0 9)
    else decide (Reg.cmuSwtab1 (t - 1) 0 ≤ p.1 ∧ p.1 < Reg.cmuSwtab1 (t - 1) 9))
  w32 ((bitsWord ((List.range 4).map tab)).toNat * 2 ^ 28 + (ks.filter (fun d => decide (d.kind = .stepper))).length * 2 ^ 17
    + (ks.filter (fun d => decide (d.kind = .thin ∧ d.cls = 5))).length * 2 ^ 8
    + (ks.filter (fun d => decide (d.kind = .thin))).length)

/-- CEA_CFG. -/
def State.ceaCfgWord (s : State) : Word :=
  w32 (((List.range 64).filter (fun k => s.rd (Reg.ceaKsetInfo k) ≠ 0)).length * 2 ^ 16 + 24 * 256 + 18)

/-- PGN_CFG. -/
def State.pgnCfgWord (s : State) : Word :=
  w32 ((s.ctrl.las.filter (fun p => decide (p.2.src = .virtual))).length * 2 ^ 16 + s.ctrl.axes.length)

/-- CEA_ENGn_STAT. -/
def Eng.statWord (e : Eng) : Word :=
  w32 (e.st.code * 2 ^ 29 + b2n e.job.isSome * 2 ^ 28 + e.lastAxis % 256 * 2 ^ 16 + e.jobsPrev % 65536)

/-- FBR_STATUS. -/
def State.fbrStatusWord (s : State) : Word :=
  w32 (s.fbr.topo % 4 * 2 ^ 30 + b2n s.fbr.mismatch * 2 ^ 29 + b2n s.fbr.conflict * 2 ^ 28 + s.fabLinks * 2 ^ 26
    + (if s.fbr.topo = 0 then 0 else min (s.present.length + 1) 128))

/-- WKS_STATUS. -/
def State.wksStatusWord (s : State) : Word :=
  let busy := bitsWord ((List.range 4).map (fun c => (s.preparing c).isSome))
  w32 (min (s.coresIn .inService).length 4 * 2 ^ 28 + busy.toNat * 2 ^ 24 + min s.delayed.length 4096 * 2 ^ 11
    + min s.wks.taken.length 1024)

/-- A map of the engines. -/
def State.engMap (s : State) (f : Eng → Bool) : Word := bitsWord ((List.range 18).map (fun e => f (s.eng e)))

/-- Registers of GLB and LCU that show what the block holds elsewhere. -/
def State.viewGlb (s : State) (a : Nat) : Option Word :=
  if a = Reg.glbId then some (w32 (0x92560000 + s.fuses.variant % 16 * 4096 + s.fuses.stepping % 256))
  else if a = Reg.glbSerialLo then some (loW s.fuses.serial)
  else if a = Reg.glbSerialHi then some (hiW s.fuses.serial)
  else if a = Reg.glbState then some s.glbStateWord
  else if a = Reg.glbStateCause then some (w32 (s.glb.cause % 65536))
  else if a = Reg.glbCycleLo then some (w32 s.cycleNo)
  else if a = Reg.glbCycleHi then some (w32 (s.cycleNo / 2 ^ 32))
  else if a = Reg.lcuState then some s.fuses.word
  else if a = Reg.lcuSvn then some (w32 (s.lcu.fwSvn % 256 * 256 + s.fuses.svnMin % 256))
  else none

/-- Registers of the cycle path that show what the block holds elsewhere. -/
def State.viewCyc (s : State) (a : Nat) : Option Word :=
  if a = Reg.tbuTime0 then some ((timeOf s.now).setWidth 32)
  else if a = Reg.tbuTime1 then some ((timeOf s.now >>> 32).setWidth 32)
  else if a = Reg.tbuTime2 then some ((timeOf s.now >>> 64).setWidth 32)
  else if a = Reg.cycStatus then some s.cycStatusWord
  else if a = Reg.dioOutState then some s.outStateWord
  else if a = Reg.pgnCfg then some s.pgnCfgWord
  else if a = Reg.ceaCfg then some s.ceaCfgWord
  else if a = Reg.ceaSvcMap then some (s.engMap (fun e => decide (e.st = .inService)))
  else if a = Reg.ceaSpareMap then some (s.engMap (fun e => decide (e.st = .spare)))
  else if a = Reg.ceaBusyMap then some (s.engMap (fun e => e.job.isSome))
  else if a = Reg.cmuCfg then some s.cmuCfgWord
  else if a = Reg.fbrStatus then some s.fbrStatusWord
  else if a = Reg.twuStatus then some s.twuStatusWord
  else match regIdx a (Reg.lauLaCfg 0) 0x20 16, regIdx a (Reg.ceaEngStat 0) 4 18 with
    | some n, _ => some ((Tab.get {} s.ctrl.las n).word)
    | _, some e => some (s.eng e).statWord
    | _, _ => none

/-- Registers of the host's blocks that show what the block holds elsewhere. -/
def State.viewHost (s : State) (a : Nat) : Option Word :=
  if a = Reg.mbxPcieStatus then some s.pcie.word
  else if a = Reg.mbxDbInSet then some (s.rd Reg.mbxDbIn &&& 0x00FFFF00#32)
  else if a = Reg.mbxDbOutSet ∨ a = Reg.mbxDbOutClr then some (s.rd Reg.mbxDbOut &&& 0xFFFFFF00#32)
  else if a = Reg.msixPba then some s.evr.pbaWord
  else if a = Reg.wksStatus then some s.wksStatusWord
  else if a = Reg.elgStatus then some s.elg.word
  else match regIdx a (Reg.mbxChStat 0) 0x1000 8, regIdx a (Reg.mbxChAck 0) 0x1000 8, regIdx a (Reg.elgWin 0) 4 8 with
    | some c, _, _ => some (s.mbChan c).statWord
    | _, some c, _ => some (s.mbChan c).ackWord
    | _, _, some w => some (s.logWord (s.rd Reg.elgCursor).toNat w)
    | _, _, _ => none

/-- Registers of the event router that show its sources. -/
def State.viewEvr (s : State) (a : Nat) : Option Word :=
  if a < Reg.evrMaskSet 0 ∨ Reg.evrClaim 0 ≤ a then none
  else match regIdx a (Reg.evrMaskSet 0) 4 32, regIdx a (Reg.evrPendSet 0) 4 32, regIdx a (Reg.evrActive 0) 4 16 with
    | some w, _, _ => some (s.srcWord (w % 16) (·.masked))
    | _, some w, _ => some (s.srcWord (w % 16) (·.pending))
    | _, _, some w => some (s.srcWord w (·.active))
    | _, _, _ => match regIdx a (Reg.evrSrcCfg 0) 8 512, regIdx a (Reg.evrSrcCnt 0) 8 512 with
      | some n, _ => some (if srcReserved n then 0 else (s.src n).cfgWord)
      | _, some n => some (if srcReserved n then 0 else w32 (s.src n).arrivals)
      | _, _ => none

/-- A word of an axis context window: 0 while the axis is UNUSED (R27). -/
def State.windowWord (s : State) (n off : Nat) : Word :=
  let x := s.axis n
  if x.st = .unused then 0 else Tab.get 0 x.pub off

/-- EIU_PROBE_STATUS shows as MASKED whether the source of each probe is masked (R85, R97). -/
def State.viewEiu (s : State) (a : Nat) : Option Word :=
  (regIdx a (Reg.eiuProbeStatus 0) 0x1000 8).map (fun k =>
    let m := fun p => (s.fin (s.probeSrc k p)).masked
    setBit (setBit (s.rd a) 3 (m 0)) 11 (m 1))

/-- The word that a register shows. A write-only register reads 0, as does an offset that no register occupies (R5, R7). -/
def State.peek (s : State) (a : Nat) : Word :=
  match windowOf a with
  | some (n, off) => s.windowWord n off
  | none =>
    match (s.viewGlb a <|> s.viewCyc a <|> s.viewHost a <|> s.viewEvr a <|> s.viewEiu a) with
    | some v => v
    | none => match bankOf a with
      | some b => s.rd a &&& ~~~BitVec.ofNat 32 b.wo
      | none => 0

/-! ### Reads (R5, R6, R28) -/

/-- The holding register of a range, by its address: one for GLB, for each EIU channel, for LAU, TBU, FBR and TWU (R28, R93, R249,
R310, R333, R358). -/
def holdKey (a : Nat) : Nat := if 0x80000 ≤ a ∧ a < 0x88000 then a / 0x1000 * 0x1000 else a / 0x10000 * 0x10000

/-- LO words whose read copies the HI word above them. -/
def holdLo (a : Nat) : Bool :=
  let o := a % 0x1000
  if 0x80000 ≤ a ∧ a < 0x88000 then [0x10, 0x18, 0x28, 0x50, 0x70].contains o
  else decide (a = Reg.glbCycleLo) || [Reg.lauCamBaseLo, Reg.tbuIncrLo, Reg.tbuLanternLo, Reg.tbuPlantOfsLo, Reg.fbrMemberMapLo,
      Reg.fbrMismatchMapLo, Reg.fbrStaleMapLo, Reg.fbrEpochActLo, Reg.twuPartnerLo, Reg.twuPeerLo].contains a ||
    (regIdx a (Reg.lauLaAngleLo 0) 0x20 16).isSome || (regIdx a (Reg.lauLaVelLo 0) 0x20 16).isSome ||
    (regIdx a (Reg.lauLaCorrLo 0) 0x20 16).isSome || (regIdx a (Reg.lauUnitResLo 0) 0x20 128).isSome

/-- Puts a holding register. -/
def State.putHold (s : State) (k : Nat) (v : Word) : State := { s with glb := { s.glb with hold := Tab.set 0 s.glb.hold k v } }

/-- A read of a LO word, of TBU_TIME0, or of a word that they hold: what it returns, and the holding registers after it. -/
def State.holdRead (s : State) (a : Nat) : Option (Word × State) :=
  let k := holdKey a
  if a = Reg.tbuTime0 then
    some (s.peek a, (s.putHold Reg.tbuTime1 (s.peek Reg.tbuTime1)).putHold Reg.tbuTime2 (s.peek Reg.tbuTime2))
  else if a = Reg.tbuTime1 ∨ a = Reg.tbuTime2 then some (Tab.get 0 s.glb.hold a, s)
  else if holdLo a then some (s.peek a, s.putHold k (s.peek (a + 4)))
  else if 4 ≤ a ∧ holdLo (a - 4) then some (Tab.get 0 s.glb.hold k, s)
  else none

/-- Registers that hold two read-clear counters, in bits 31-16 and 15-0: EIU_SC_FIT, SLC_NODEn_MISS and SLC_NODEn_BAD. -/
def rcPair (a : Nat) : Bool :=
  (regIdx a (Reg.eiuScFit 0) 0x1000 8).isSome || (regIdx a (Reg.slcNodeMiss 0) 0x20 256).isSome ||
    (regIdx a (Reg.slcNodeBad 0) 0x20 256).isSome

/-- What the read-clear fields of a register hold after a clearing read: `inc` tells which of its counters are incremented in the
same clock, 1 the only or lower one, 2 the upper one, 3 both (R6). -/
def rcAfter (a inc : Nat) : Word := w32 (inc % 2 + (if rcPair a then inc / 2 % 2 * 65536 else 0))

/-- A read of a read-clear field: the value before, and the field cleared, or 1 in a counter that is incremented in the same
clock (R5, R6). -/
def State.rcRead (s : State) (a : Nat) (inc : Nat) : Option (Word × State) :=
  match regIdx a (Reg.evrSrcCnt 0) 8 512 with
  | some n =>
    if srcReserved n then some (0, s)
    else some (w32 (s.src n).arrivals, s.setSrc n { s.src n with arrivals := inc % 2 })
  | none => match bankOf a with
    | none => none
    | some b =>
      if b.rc = 0 then none
      else
        let s1 := s.wr a ((s.rd a &&& ~~~BitVec.ofNat 32 b.rc) ||| rcAfter a inc)
        let s2 := match regIdx a (Reg.elgLimSupprCnt 0) 0x10 64 with
          | some l => match s1.elg.lims[l]? with
            | some x => { s1 with elg := { s1.elg with lims := s1.elg.lims.set l { x with count := inc % 2 } } }
            | none => s1
          | none => s1
        some (s.rd a, s2)

/-- A claim register that is read. -/
def State.claimRead (s : State) (a : Nat) : Option (Nat × State) :=
  let k := (a - Reg.evrClaim 0) / 0x1000
  let o := (a - Reg.evrClaim 0) % 0x1000
  if a < Reg.evrClaim 0 ∨ 4 ≤ k then none
  else if o = 0 then some (s.claim k none)
  else if 0x20 ≤ o ∧ o < 0x40 ∧ o % 4 = 0 then some (s.claim k (some ((o - 0x20) / 4)))
  else none

/-- An aligned 32-bit read of BAR0: what it returns, and its effects. -/
def State.bar0Read (s : State) (a : Nat) (inc : Nat) : Word × State :=
  if s.reach a = false then (0, s)
  else match s.claimRead a with
    | some r => (w32 r.1, r.2)
    | none => match s.rcRead a inc with
      | some r => r
      | none => match s.holdRead a with
        | some r => r
        | none => (s.peek a, if a = Reg.elgWin 7 then s.elgWinRead else s)

/-- The host reads a register, and is answered. -/
def State.hostRead (s : State) (a : Nat) (inc : Nat) : State :=
  if a % 4 ≠ 0 ∨ 0x400000 ≤ a ∨ s.hostUp = false then s
  else
    let r := s.bar0Read a inc
    r.2.send (.bar0 a r.1)

/-- RC_COUNTER_READ: a read-clear counter is read; `inc` as in `rcAfter`. -/
def execRcCounterRead (a : Nat) (inc : Nat) (s : State) : Host.Outcome State Fault Refusal := .next (s.hostRead a inc)

/-- HOLDING_REGISTER_READ: a word of a LO and HI pair or of TBU_TIME, or any other register, is read. -/
def execHoldingRegisterRead (a : Nat) (s : State) : Host.Outcome State Fault Refusal := .next (s.hostRead a 0)

/-! ### Writes (R5 to R7, R22) -/

/-- The bits of a register after a write by their access codes. -/
def Bank.put (b : Bank) (old v : Word) : Word :=
  let m := fun (x : Nat) => BitVec.ofNat 32 x
  ((((old &&& ~~~m b.rw) ||| (v &&& (m b.rw ||| m b.wo))) ||| (v &&& m b.w1s)) &&& ~~~(v &&& m b.w1c))

/-- A write by access codes alone. -/
def State.plainWrite (s : State) (a : Nat) (v : Word) : State :=
  match bankOf a with
  | some b => s.wr a (b.put (if b.wo = 0 then s.rd a else s.rd a &&& ~~~BitVec.ofNat 32 b.wo) v)
  | none => s

/-- A write of EIU_PROBE_CTRL: the fields of both probes, then ARM and ACK. -/
def State.probeWrite (s : State) (k : Nat) (v : Word) : State :=
  let s1 := s.wr (Reg.eiuProbeCtrl k) (v &&& 0x380F380F#32)
  forAll [0, 1] (fun p st =>
    let st1 := if bit v (16 * p + 15) then st.probeArm k p else st
    if bit v (16 * p + 14) then st1.probeAck k p else st1) s1

/-- A write of CFL_FLASH_CTRL without an image to check: FLASH and TARGET, and GO for the peer-record region. -/
def State.flashWrite (s : State) (v : Word) : State :=
  if bit v 31 ∧ fld v 28 27 = 2 then s.flashGo (fld v 29 29) 2 {}
  else if s.flashBusy then s
  else s.wrFld Reg.cflFlashCtrl 29 27 (fld v 29 27)

/-- A write of MBX_CHc_CTRL. -/
def State.mbCtrl (s : State) (c : Nat) (v : Word) : State :=
  let s1 := if bit v 0 then s.mbPage c (fun st => st.mbPost c) else s
  if bit v 1 then s1.mbPage c (fun st => st.mbRelease c) else s1

/-- Writes to the registers of PEM, LCU, CFL, TWU and ELG whose effect goes beyond their access codes. -/
def State.writeUnit (s : State) (a : Nat) (v : Word) : Option State :=
  if a = Reg.pemReset then some (s.pemReset v s.lcu.bootSel)
  else if a = Reg.pemEncCtrl then some (s.encRetry v)
  else if a = Reg.lcuCtrl then some (if bit v 0 then s.tokenApply else s)
  else if a = Reg.cflFlashCtrl then some (s.flashWrite v)
  else if a = Reg.dioOutSet then some (s.foutHost v true)
  else if a = Reg.dioOutClr then some (s.foutHost v false)
  else if a = Reg.twuCtrl then
    let s1 := if bit v 0 then s.handoverAsk else s
    some (if bit v 1 then s1.requalify else s1)
  else if a = Reg.twuAccept then some (s.acceptWrite v)
  else if a = Reg.elgCursor then some (s.elgCursorWrite v)
  else if a = Reg.elgCtrl then some (s.elgCtrl v)
  else if a = Reg.elgFillThresh then some ((s.plainWrite a v).logFill)
  else match regIdx a (Reg.hlmInjCtrl 0) 0x10 8, regIdx a (Reg.eiuMode 0) 0x1000 8, regIdx a (Reg.eiuProbeCtrl 0) 0x1000 8,
      regIdx a (Reg.eiuBissCmd 0) 0x1000 8 with
    | some i, _, _, _ => some (s.injWrite i v)
    | _, some k, _, _ => some (if (s.encMode k = 5 ∨ s.encMode k = 6) ∧ bit v 31 = true then s.rereadSet k else s)
    | _, _, some k, _ => some (s.probeWrite k v)
    | _, _, _, some k => some (s.bissWrite k v)
    | _, _, _, _ => none

/-- Writes to the registers of MBX and WKS whose effect goes beyond their access codes. -/
def State.writeMbx (s : State) (a : Nat) (v : Word) : Option State :=
  if a = Reg.mbxDbInSet then some (forAll (List.range 16) (fun r st => if bit v (8 + r) then st.kick r else st) s)
  else if a = Reg.mbxDbOutSet then some (s.dbOutPut (v &&& 0xFFFFFF00#32) true)
  else if a = Reg.mbxDbOutClr then some (s.dbOutPut (v &&& 0xFFFFFF00#32) false)
  else if (regIdx a (Reg.mbxDbOutMask 0) 4 4).isSome then some (s.plainWrite a v).dbOutLevels
  else if (regIdx a (Reg.msixCtl 0) 0x10 32).isSome then some (s.plainWrite a v).evrUpdate
  else if Reg.mbxChBuf 0 0 ≤ a ∧ a < Reg.mbxChBuf 8 0 then
    let c := (a - Reg.mbxChBuf 0 0) / 0x1000
    let o := (a - Reg.mbxChBuf 0 0) % 0x1000
    some (if o < 0x100 then s.mbPage c (fun st => st.mbWord c (o / 4) v)
      else if o = 0x100 then s.mbCtrl c v
      else if s.mbHost c then s else s.mbErr c 1)
  else match regIdx a (Reg.wksRingProd 0) 0x1000 16, regIdx a (Reg.wksRingCons 0) 0x1000 16, regIdx a (Reg.wksRingThresh 0) 0x1000 16 with
    | some r, _, _ => some (s.prodWrite r v)
    | _, some r, _ => some (s.consWrite r v)
    | _, _, some r => some ((s.plainWrite a v).ringRefresh r)
    | _, _, _ => none

/-- Writes to the registers of the event router. -/
def State.writeEvr (s : State) (a : Nat) (v : Word) : Option State :=
  if a < Reg.evrCfg ∨ Reg.evrCfg + 0x10000 ≤ a then none
  else match regIdx a (Reg.evrMaskSet 0) 4 16, regIdx a (Reg.evrMaskClr 0) 4 16, regIdx a (Reg.evrPendSet 0) 4 16,
      regIdx a (Reg.evrPendClr 0) 4 16 with
    | some w, _, _, _ => some (s.evrMask w v true)
    | _, some w, _, _ => some (s.evrMask w v false)
    | _, _, some w, _ => some (s.evrPendSet w v)
    | _, _, _, some w => some (s.evrPendClr w v)
    | _, _, _, _ => match regIdx a (Reg.evrSrcCfg 0) 8 512, regIdx a (Reg.evrComplete 0) 0x1000 4 with
      | some n, _ => some (s.evrCfgWrite n v)
      | _, some k => some (s.evrComplete k (fld v 9 0))
      | _, _ => some s

/-- An aligned 32-bit write to BAR0. -/
def State.bar0Write (s : State) (a : Nat) (v : Word) : State :=
  if s.reach a = false then s
  else match (s.writeUnit a v <|> s.writeMbx a v <|> s.writeEvr a v) with
    | some t => t
    | none => s.plainWrite a v

/-- REGISTER_WRITE: the host writes a register. -/
def execRegisterWrite (a : Nat) (v : Word) (s : State) : Host.Outcome State Fault Refusal :=
  if a % 4 ≠ 0 ∨ 0x400000 ≤ a then .next s else .next (s.bar0Write a v)

/-! ### Discarded accesses and BAR2 (R4, R437 to R440) -/

/-- A refused access is shown and logged. -/
def State.barErr (s : State) (bar2 write : Bool) (off : Nat) : State :=
  (s.wr Reg.mbxLastBarErr (w32 (b2n bar2 * 2 ^ 31 + b2n write * 2 ^ 30 + off % 2 ^ 28))).event 0x1201
    [.h (2 * b2n bar2), .h (b2n write), .w off]

/-- An access to BAR0 that R4 allows: an aligned word, or an aligned 64-bit access to the MSI-X table or PBA (R440). -/
def bar0Good (off size : Nat) : Bool :=
  (decide (size = 4) && decide (off % 4 = 0)) ||
    (decide (size = 8) && decide (off % 8 = 0) && (decide (0x17E000 ≤ off ∧ off < 0x17E200) || decide (off = 0x17F000)))

/-- BAR0_BAD_ACCESS: an access of another size or alignment: a read returns 0, a write is discarded. -/
def execBar0BadAccess (write : Bool) (off size : Nat) (s : State) : Host.Outcome State Fault Refusal :=
  if bar0Good off size ∨ 0x400000 ≤ off ∨ s.hostUp = false then .next s
  else
    let s1 := (s.count Reg.mbxBar0ErrCnt).barErr false write off
    .next (if write then s1 else s1.send (.bar0 off 0))

/-- The DRAM address at an offset of BAR2. -/
def State.bar2Addr (s : State) (off : Nat) : Nat := (s.rd64 Reg.mbxBar2BaseLo Reg.mbxBar2BaseHi).toNat + off

/-- BAR2 is closed: before DISCOVER, outside flash service mode. -/
def State.bar2Closed (s : State) : Bool := !s.glb.opened && !s.rdBit Reg.cflStatus 31

/-- Some byte of the access lies in the firmware region or the spare-page pool, or at or beyond the usable capacity. -/
def State.bar2Bad (s : State) (off len : Nat) : Bool :=
  decide (0 < len) && (decide (s.bar2Addr off < 0x4000000) || decide (s.dramSize - 0x4000000 < s.bar2Addr off + len))

/-- PCIE_ERR with an AER status bit, or 32 for a poisoned completion. -/
def State.pcieErr (s : State) (bitNo : Nat) : State := s.event 0x1204 [.h bitNo]

/-- A BAR2 read. -/
def State.bar2Read (s : State) (off len : Nat) : State :=
  let zero := WireOut.bar2 (List.replicate len 0) false
  if s.bar2Closed then s.send zero
  else if s.bar2Bad off len then ((s.count Reg.mbxBar2ErrCnt).barErr true false off).send zero
  else
    let q := s.touchDram (s.bar2Addr off) len
    if q.1 then ((q.2.count Reg.mbxPoisonCnt).pcieErr 32).send (.bar2 [] true)
    else q.2.send (.bar2 (q.2.dramRead (s.bar2Addr off) len) false)

/-- A BAR2 write. -/
def State.bar2Write (s : State) (off : Nat) (bs : List Byte) : State :=
  if s.bar2Closed then s
  else if s.bar2Bad off bs.length then (s.count Reg.mbxBar2ErrCnt).barErr true true off
  else (s.dramWrite (s.bar2Addr off) bs).dramFresh (s.bar2Addr off) bs.length

/-- BAR2_ACCESS: a read of `len` bytes, or a write of `data`; `aer` is the status bit of an uncorrectable error of the endpoint,
reported in place of the access. -/
def execBar2Access (off len : Nat) (data : Option (List Byte)) (aer : Option Nat) (s : State) : Host.Outcome State Fault Refusal :=
  if s.hostUp = false then .next s
  else match aer with
    | some b => .next (s.pcieErr (b % 32))
    | none =>
      let n := match data with
        | some bs => bs.length
        | none => len
      if 2 ^ 28 < off + n then .next s
      else match data with
        | some bs => .next (s.bar2Write off bs)
        | none => .next (s.bar2Read off len)

/-! ### The service port: channel 7 (R402, R447) -/

/-- The port takes reads: in every life-cycle state but DEAD. -/
def State.svcOpen (s : State) : Bool := decide (s.glb.st ≠ .off) && decide (s.fuses.state ≠ 6)
/-- The port takes full service commands: not in FIELD. -/
def State.svcFull (s : State) : Bool := s.svcOpen && decide (s.fuses.state ≠ 3)

/-- A command of the port is posted on channel 7, taken and acknowledged: `f` carries it out where it is allowed and answers its
reply. The port releases its last reply as it posts. -/
def State.svc (s : State) (op : Nat) (allowed : Bool) (f : State → List Byte × State) : State :=
  let s0 := if (s.mbChan 7).st = .acked then s.mbRelease 7 else s
  let x := s0.mbChan 7
  if s.svcOpen = false ∨ x.st ≠ .idle then s
  else
    let s1 := s0.setMbChan 7 { x with st := .busy, op := op, seq := (x.seq + 1) % 256 }
    if allowed then
      let r := f s1
      (r.2.mbAck 7 Stat.ok (mbReply op (r.1.take 252))).send (.service r.1)
    else (s1.mbAck 7 Stat.notPermitted (mbReply op [])).send (.service [])

/-- DIAG_READ: `n` words of BAR0 from an address. -/
def execDiagRead (a n : Nat) (s : State) : Host.Outcome State Fault Refusal :=
  .next (s.svc 1 true (fun st => (List.range (min n 63)).foldl (fun (acc : List Byte × State) k =>
    let r := acc.2.bar0Read (a / 4 * 4 + 4 * k) 0
    (acc.1 ++ leBytes 4 r.1.toNat, r.2)) ([], st)))

/-- LOG_READ: up to `n` event records from the port's own cursor, which goes past them (R494). -/
def execLogRead (n : Nat) (s : State) : Host.Outcome State Fault Refusal :=
  .next (s.svc 2 true (fun st => (List.range (min n 7)).foldl (fun (acc : List Byte × State) _ =>
    let c := acc.2.mbx.logCur
    if c < (acc.2.rd Reg.elgWrIdx).toNat then
      (acc.1 ++ wordBytes ((List.range 8).map (acc.2.logWord c)), { acc.2 with mbx := { acc.2.mbx with logCur := c + 1 } })
    else acc) ([], st)))

/-- TOKEN: a token is sent and applied (R405); the reply is LCU_TOKEN_RESULT. -/
def execTokenCmd (token : List Byte) (s : State) : Host.Outcome State Fault Refusal :=
  .next (s.svc 3 s.svcFull (fun st =>
    let st1 := (bytesWords 52 token).zipIdx.foldl (fun q p => q.wr (Reg.lcuToken p.2) p.1) st
    let st2 := st1.tokenApply
    (leBytes 4 (st2.rd Reg.lcuTokenResult).toNat, st2)))

/-- FLASH: a flash operation is begun (R428): flash 0 XA or 1 XB, target 0, 1 or 2. -/
def execFlashCmd (fl tg : Nat) (firm : FirmSec) (s : State) : Host.Outcome State Fault Refusal :=
  .next (s.svc 4 s.svcFull (fun st => ([], st.flashGo (fl % 2) tg firm)))

end Sys2Proof.Machine
end

