-- ==== Sys2Proof/Machine/Items.lean ====
section
/-! DEFINITION. Machine/Items.lean: the service of a work item (R464) by its opcode, and the commands that are work items. Such a
command is an item that is taken and prepared: served in step 4 of the boundary where that stands, else staged for the next. -/

namespace Sys2Proof.Machine

/-- The third handle check of R15, for an opcode that targets an object (R464). An axis whose AXIS_DESTROY has been accepted is
stale already (R54, R465). -/
def State.staleAt (s : State) (it : Item) : Bool :=
  let h := it.handle
  !s.handleFresh h || !s.objLive (hType h) (hIdx h) || (decide (hType h = 1) && (s.axis (hIdx h)).destroy)

/-- What the owner of an opcode does with an item at service. -/
def State.serveOp (s : State) (t : Taken) : State :=
  match t.item.opcode with
  | 0x01 => s.serveCreate t
  | 0x02 => s.serveDestroy t
  | 0x03 => s.serveEnable t
  | 0x04 => s.serveDisable t
  | 0x05 => s.serveMove t
  | 0x06 => s.serveMove t
  | 0x07 => s.serveMove t
  | 0x08 => s.serveStop t
  | 0x09 => s.serveHome t
  | 0x0A => s.serveGearSet t
  | 0x0B => s.serveGearChange t
  | 0x0C => s.serveCamSet t
  | 0x0D => s.serveCompareArm t
  | 0x0E => s.serveCaptureArm t
  | 0x0F => s.serveCoefWrite t
  | 0x10 => s.serveCoefSwap t
  | 0x11 => s.serveSignalWrite t
  | 0x12 => s.serveEpochStage t
  | 0x13 => s.serveEpochCommit t
  | 0x14 => s.serveLogMark t
  | 0x15 => s.spareTest t
  | _ => s.complete t Stat.badParam

/-- The lit twin forwards an item at the boundary at which it serves it (R339). -/
def State.forwardItem (s : State) (it : Item) : State :=
  if s.glb.role = .lit ∧ s.paired = true ∧ s.twu.link = true then s.send (.epoch 0x20 [s.cyc.n] (itemBytes it)) else s

/-- Service of an item (R464, step 4). -/
def State.serveItem (s : State) (t : Taken) : State :=
  let it := t.item
  let s1 := if t.pend then s else s.forwardItem it
  if it.opcode ≠ Opc.axisCreate ∧ opTypes it.opcode ≠ [] ∧ s.staleAt it = true then s1.completeHandle t it.handle Stat.stale s.cyc.n
  else s1.serveOp t

/-- The controller serves items that its own rings and mailboxes bring (R473). -/
def State.serves (s : State) : Bool := s.cyc.running && decide (s.glb.role = .lit ∨ s.glb.role = .alone)

/-- WKS holds fewer than 1,024 items, and the completion ring of the item's own is not stalled: else the item waits where it is
(R460, R467). -/
def State.roomFor (s : State) (it : Item) : Bool :=
  decide (s.wks.taken.length < 1024) && (decide (0x80 ≤ it.origin) || !s.wks.stalled.contains (s.ringPair it.origin))

/-- An earlier item of the flow waits for its transition (R60). -/
def State.flowHeld (s : State) (t : Taken) : Bool :=
  t.item.flow.isSome && s.wks.taken.any (fun u => u.pend && decide (u.seq < t.seq ∧ u.item.flow = t.item.flow))

/-- A delayed item that could not be served at its due cycle (R469). -/
def State.itemLate (s : State) (t : Taken) : State :=
  let s1 := s.updTaken t.seq (fun u => { u with dueLate := true })
  (s1.count Reg.wksLateCnt).event 0x1405 [.h t.item.opcode, .w t.item.handle.toNat, .w (s.cyc.n - t.item.due)]

/-- The service of one due item. -/
def State.serveDue (s : State) (q : Taken) : State :=
  match s.takenOf q.seq with
  | none => s
  | some t =>
    if s.flowHeld t then s
    else
      let late := (match t.stage with
        | .delayed _ => true
        | _ => false) && decide (t.item.due < s.cyc.n)
      if late then (s.itemLate t).serveItem { t with dueLate := true } else s.serveItem t

/-- An earlier item of the flow has still to be served, and is not delayed or held for an angle (R465). -/
def State.flowAhead (s : State) (t : Taken) : Bool :=
  t.item.flow.isSome && s.wks.taken.any (fun u => decide (u.seq < t.seq ∧ u.item.flow = t.item.flow) && (match u.stage with
    | .ready => true
    | .preparing _ _ => true
    | .staged _ => true
    | _ => false))

/-- An item is taken and prepared. Where the boundary stands, and neither a due condition nor an earlier item of its flow holds it
back, it is served there in step 4 (R33, R464); else it is staged, delayed or held as any other item. -/
def State.serveNow (s : State) (it : Item) : State :=
  if s.roomFor it = false then s else
  let t : Taken := { seq := s.wks.nextSeq, item := it, takeCycle := s.cyc.n, stage := .ready }
  let s1 : State := { s with wks := { s.wks with taken := s.wks.taken ++ [t], nextSeq := s.wks.nextSeq + 1 } }
  match it.prepare with
  | some c => s1.refuseItem t c
  | none =>
    if it.opcode = Opc.axisCreate ∧ s.desc? (hIdx it.handle) = none then s1.refuseItem t Stat.badParam
    else if s1.flowFree t = false then s1
    else if s.atBoundary = true ∧ it.dueKind = 0 ∧ s1.flowAhead t = false then (s1.setStage t.seq (.staged s.cyc.n)).serveItem { t with stage := .staged s.cyc.n }
    else s1.stageItem t

/-- AXIS_CREATE: the item creates an axis from its description and returns its handle. -/
def execAxisCreate (it : Item) (s : State) : Host.Outcome State Fault Refusal :=
  if it.opcode = Opc.axisCreate ∧ s.serves = true then .next (s.serveNow it) else .next s

/-- AXIS_DESTROY: the item destroys an axis in CREATED. -/
def execAxisDestroy (it : Item) (s : State) : Host.Outcome State Fault Refusal :=
  if it.opcode = Opc.axisDestroy ∧ s.serves = true then .next (s.serveNow it) else .next s

/-- AXIS_ENABLE: the item asks for admission of an axis. -/
def execAxisEnable (it : Item) (s : State) : Host.Outcome State Fault Refusal :=
  if it.opcode = Opc.axisEnable ∧ s.serves = true then .next (s.serveNow it) else .next s

/-- AXIS_DISABLE: the item disables an axis, or leaves FAULT. -/
def execAxisDisable (it : Item) (s : State) : Host.Outcome State Fault Refusal :=
  if it.opcode = Opc.axisDisable ∧ s.serves = true then .next (s.serveNow it) else .next s

/-- COEF_WRITE: the item writes words of the inactive bank. -/
def execCoefWrite (it : Item) (s : State) : Host.Outcome State Fault Refusal :=
  if it.opcode = Opc.coefWrite ∧ s.serves = true then .next (s.serveNow it) else .next s

/-- COEF_SWAP: the item names the cycle of a bank swap. -/
def execCoefSwap (it : Item) (s : State) : Host.Outcome State Fault Refusal :=
  if it.opcode = Opc.coefSwap ∧ s.serves = true then .next (s.serveNow it) else .next s

/-- MOVE_ABS: the item moves to an absolute target. -/
def execMoveAbs (it : Item) (s : State) : Host.Outcome State Fault Refusal :=
  if it.opcode = Opc.moveAbs ∧ s.serves = true then .next (s.serveNow it) else .next s

/-- MOVE_REL: the item moves by a distance from the end of the queue. -/
def execMoveRel (it : Item) (s : State) : Host.Outcome State Fault Refusal :=
  if it.opcode = Opc.moveRel ∧ s.serves = true then .next (s.serveNow it) else .next s

/-- MOVE_VEL: the item runs at a velocity. -/
def execMoveVel (it : Item) (s : State) : Host.Outcome State Fault Refusal :=
  if it.opcode = Opc.moveVel ∧ s.serves = true then .next (s.serveNow it) else .next s

/-- STOP: the item stops an axis or a virtual master. -/
def execStopItem (it : Item) (s : State) : Host.Outcome State Fault Refusal :=
  if it.opcode = Opc.stop ∧ s.serves = true then .next (s.serveNow it) else .next s

/-- HOME: the item starts homing. -/
def execHomeItem (it : Item) (s : State) : Host.Outcome State Fault Refusal :=
  if it.opcode = Opc.home ∧ s.serves = true then .next (s.serveNow it) else .next s

/-- GEAR_SET: the item links an axis to a master. -/
def execGearSet (it : Item) (s : State) : Host.Outcome State Fault Refusal :=
  if it.opcode = Opc.gearSet ∧ s.serves = true then .next (s.serveNow it) else .next s

/-- GEAR_CHANGE_AT: the item changes a link at a master value. -/
def execGearChangeAt (it : Item) (s : State) : Host.Outcome State Fault Refusal :=
  if it.opcode = Opc.gearChangeAt ∧ s.serves = true then .next (s.serveNow it) else .next s

/-- CAM_SET: the item copies a cam table. -/
def execCamSet (it : Item) (s : State) : Host.Outcome State Fault Refusal :=
  if it.opcode = Opc.camSet ∧ s.serves = true then .next (s.serveNow it) else .next s

/-- COMPARE_ARM: the item arms a compare unit; one of KIND 0 is the row COMPARE_DISARM. -/
def execCompareArm (it : Item) (s : State) : Host.Outcome State Fault Refusal :=
  if it.opcode = Opc.compareArm ∧ it.u 21 1 % 4 ≠ 0 ∧ s.serves = true then .next (s.serveNow it) else .next s

/-- COMPARE_DISARM: COMPARE_ARM with KIND 0. -/
def execCompareDisarm (it : Item) (s : State) : Host.Outcome State Fault Refusal :=
  if it.opcode = Opc.compareArm ∧ it.u 21 1 % 4 = 0 ∧ s.serves = true then .next (s.serveNow it) else .next s

/-- EPOCH_STAGE: the item makes this controller the initiator of an epoch. -/
def execEpochStage (it : Item) (s : State) : Host.Outcome State Fault Refusal :=
  if it.opcode = Opc.epochStage ∧ s.serves = true then .next (s.serveNow it) else .next s

/-- EPOCH_COMMIT: the item asks for the commit of the staged epoch. -/
def execEpochCommit (it : Item) (s : State) : Host.Outcome State Fault Refusal :=
  if it.opcode = Opc.epochCommit ∧ s.serves = true then .next (s.serveNow it) else .next s

/-- SIGNAL_WRITE: the item writes signals. -/
def execSignalWrite (it : Item) (s : State) : Host.Outcome State Fault Refusal :=
  if it.opcode = Opc.signalWrite ∧ s.serves = true then .next (s.serveNow it) else .next s

/-- LOG_MARK: the item logs a mark. -/
def execLogMark (it : Item) (s : State) : Host.Outcome State Fault Refusal :=
  if it.opcode = Opc.logMark ∧ s.serves = true then .next (s.serveNow it) else .next s

/-- CAPTURE_ARM: the item arms a capture channel; one of MODE DISARM is the row CAPTURE_DISARM. -/
def execCaptureArm (it : Item) (s : State) : Host.Outcome State Fault Refusal :=
  if it.opcode = Opc.captureArm ∧ it.u 20 1 % 4 ≠ 0 ∧ s.serves = true then .next (s.serveNow it) else .next s

/-- CAPTURE_DISARM: CAPTURE_ARM with MODE DISARM. -/
def execCaptureDisarm (it : Item) (s : State) : Host.Outcome State Fault Refusal :=
  if it.opcode = Opc.captureArm ∧ it.u 20 1 % 4 = 0 ∧ s.serves = true then .next (s.serveNow it) else .next s

/-- SPARE_TEST with ACTION TEST, or with an ACTION that is reserved. -/
def execSpareTestTest (it : Item) (s : State) : Host.Outcome State Fault Refusal :=
  if it.opcode = Opc.spareTest ∧ it.u 20 1 ≠ 2 ∧ it.u 20 1 ≠ 3 ∧ s.serves = true then .next (s.serveNow it) else .next s

/-- SPARE_TEST with ACTION ROTATE. -/
def execSpareTestRotate (it : Item) (s : State) : Host.Outcome State Fault Refusal :=
  if it.opcode = Opc.spareTest ∧ it.u 20 1 = 2 ∧ s.serves = true then .next (s.serveNow it) else .next s

/-- SPARE_TEST with ACTION RETURN. -/
def execSpareTestReturn (it : Item) (s : State) : Host.Outcome State Fault Refusal :=
  if it.opcode = Opc.spareTest ∧ it.u 20 1 = 3 ∧ s.serves = true then .next (s.serveNow it) else .next s

/-- FORWARDED_WORK_ITEM: the pilot receives an item that the lit twin serves, without the due condition that it has met: it is served
at the boundary that stands, or the next; no completion is posted (R339, R473). -/
def execForwardedWorkItem (it : Item) (s : State) : Host.Outcome State Fault Refusal :=
  let r := s.twRx
  if r.1 = true ∧ s.cyc.running = true ∧ (s.glb.role = .pilot ∨ s.glb.role = .probation) then
    .next (r.2.serveNow { it with origin := 0x100, ctl := it.ctl % 8, due := 0, dueLa := 0 })
  else .next r.2

end Sys2Proof.Machine
end

