-- ==== Sys2Proof/Machine/Boundary.lean ====
section
/-! DEFINITION. Machine/Boundary.lean: the cycle boundary (R33): the end of a cycle, then the order of R33, the service of work items
(R464, R469), READY to RUN (R422), and the clock. -/

namespace Sys2Proof.Machine

/-! ### The end of a cycle -/

/-- Jobs that have neither started nor ended when the cycle ends: those still ready are skipped, those still running are ended as
overruns (R40, R42). -/
def State.jobsEnd (s : State) : State :=
  let s1 := forAll s.cea.ready (fun j st => st.jobSkip j.axis j.half) s
  forAll (List.range 18) (fun e st => if (st.eng e).job.isSome then st.overrunEnd e else st) s1

/-- What the channel that feeds an axis shows of it, copied at the boundary (R70): HOMED goes with POS_VALID (R210). -/
def State.axisFed (s : State) (a : Nat) : State :=
  match (s.desc a).chan with
  | none =>
    let x := s.axis a
    let d := s.desc a
    -- an S of the axis without a record: the speed alone is evaluated (R88)
    let t? : Option Nat := if x.fbSeen = false ∨ d.active s.cyc.n = false then none
      else if x.fbNow = [] then some (s.sampleAt 0)
      else if d.c2 ∧ ¬ x.fbNow.contains 1 then some (s.sampleAt 1) else none
    match t? with
    | some t =>
      let e := x.est.atS { d.speed with estep := 0 } t none
      s.setAxis a { x with est := e, bound := e.bound, still := e.standstill }
    | none => s
  | some k =>
    let x := s.axis a
    let c := s.enc k
    let s1 := s.updAxis a (fun y => { y with posValid := c.posValid, bound := c.est.bound, still := c.est.standstill })
    if x.posValid && !c.posValid then s1.posLost a else s1

/-- An axis as its cycle ends: a hard limit stop takes its position (R203), and homing is carried on (R207). -/
def State.axisEnd (s : State) (a : Nat) : State :=
  let p := s.fbAtS a
  let s1 := s.axisFed a
  let s2 := if (s1.axis a).pgn.hardPend then s1.updPgn (.ax a) (Pgn.hardHold p) else s1
  if (s2.axis a).st = .homing then s2.homing a else s2

/-- Statistics of the cycle that ends, with their restarts (R51, R159). -/
def State.cycStats (s : State) : State :=
  let units := 16 * (s.per / 1024)
  let load := if units = 0 then 0 else min 1000 (s.cyc.busy * 1000 / units)
  let mx := if s.rdBit Reg.cycCtrl 1 then 0 else max load (s.rdFld Reg.cycLoad 31 16)
  let old := (s.rd Reg.cycMinSlack).toNat
  let slack := if s.rdBit Reg.cycCtrl 0 then 0xFFFFFFFF else min old (s.cyc.minSlack.getD old)
  let s1 := (((s.wr Reg.cycLoad (w32 (mx * 65536 + load))).wr Reg.cycMinSlack (w32 slack)).wr Reg.cycLastLand
    (w32 (s.cyc.land.getD 0xFFFFFFFF))).wr Reg.cycLastDone (w32 (s.cyc.done.getD 0xFFFFFFFF))
  let s2 := s1.wr Reg.cycCtrl 0
  let s3 := if s.rdBit Reg.ceaCtrl 0 then
      (forAll (List.range 64) (fun k st => st.wrFld (Reg.ceaKsetObs k) 15 0 0) s2).wrBit Reg.ceaCtrl 0 false
    else s2
  let s4 := s3.updHlm (fun h => { h with maxLoad := max h.maxLoad load, minSlack := min h.minSlack (s.cyc.minSlack.getD h.minSlack) })
  { s4 with cea := { s4.cea with engs := s4.cea.engs.map (fun (p : Nat × Eng) =>
      (p.1, { p.2 with jobsPrev := p.2.jobsNow, jobsNow := 0 })) } }

/-- The end of cycle n: what its conditions leave for the boundary. -/
def State.cycleEnd (s : State) : State :=
  let s1 := s.jobsEnd
  let s2 := forAll (List.range 16) (fun k st =>
    let p := st.fbAtS (st.finAxis k)
    (st.limTrip k p).limJudge k p) s1
  let s3 := forAll s2.axesInUse (fun a st => st.axisEnd a) (forAll (List.range 8) (fun k st => st.encEnd k) s2)
  let s4 := ((s3.sfiPublish).capCycleEnd).cycStats
  let s5 := s4.publish
  { s5 with sigPrev := s5.sigs, remotePrev := s5.remote }

/-! ### Step 3 of R33 -/

/-- The per-cycle fields start again. -/
def State.cycleOpen (s : State) (n c0 : Nat) : State :=
  { s with
    cyc := { running := true, n := n, c0 := c0, clk0 := s.clk }
    lau := { s.lau with posted := false }
    glb := { s.glb with cycValid := true }
    cfl := { s.cfl with cycles0 := s.cfl.cycles0 + 1 }
    sfi := { s.sfi with scaTick := s.now, scbTick := s.now }
    axes := s.axes.map (fun (p : Nat × Axis) =>
      (p.1, { p.2 with fbNow := [], ranHalf := [], lauWait := [], mapFlags := 0, mapCrc := 0 })) }

/-- Setpoints for the actuation instants of the cycle, of the axes active in it; virtual masters at its S (R194, R211). -/
def State.setpoints (s : State) : State :=
  let s1 := forAll s.axesActive (fun a st => st.produceAll a) s
  forAll ((s1.lau.angles.filter (fun p => decide (p.2.decl.src = .virtual))).map (·.1)) (fun n st => st.produceVm n (st.sampleAt 0)) s1

/-- The safe stop of PGN follows the stops that the island runs (R200, R370): it holds while one stands. A lower stop that still
acts when it ends is counted then. -/
def State.safeStops (s : State) : State :=
  let s1 := forAll s.sfi.stops (fun r st =>
    if (st.axis r.axis).st.enabled then st.safeStop r.axis ((st.safeAxis r.axis).dSs * 65536) else st) s
  forAll s1.axesInUse (fun a st =>
    let g := (st.axis a).pgn
    if g.st = .safeStop ∧ st.sfi.stops.all (fun r => decide (r.axis ≠ a)) = true then
      let rest := decide (g.segs = [] ∧ g.stop = [])
      let st1 := if (st.axis a).waitActs then st.lastStop (.ax a) g.waitStop else st
      st1.updPgn (.ax a) (fun h => { h with st := if rest then .idle else .stopRamp, safeDec := 0, waitStop := 0 })
    else st) s1

/-- Fast inputs at S: latches clear and trip, and a trip acts on its axis (R96, R100, R101, R203). -/
def State.inputsAtS (s : State) : State :=
  let s1 := forAll (List.range 16) (fun k st => st.limClear k) s
  forAll (List.range 16) (fun k st =>
    let st1 := (st.finInject k).limSample k
    if (st1.fin k).tripDue then st1.limitStop (st1.finAxis k) (if st1.finRole k = 1 then 0 else 1) else st1) s1

/-- The nodes that the plan describes and that do not use a spare slot are JOINED on a channel (R422). -/
def State.nodesIn (s : State) : Bool :=
  (List.range 256).all (fun n =>
    let e := s.nodeEnt n
    let x := s.node n
    !e.described || e.spareBound || decide (x.a.st = .joined ∨ x.b.st = .joined))

/-- READY to RUN (R422). -/
def State.readyRun (s : State) : State :=
  if s.glb.st = .ready ∧ 64 ≤ s.cfl.cycles0 ∧ s.candleOk = true ∧
      (s.nodesIn = true ∨ s.cfl.readyAt + s.cfl.body.line.runWait * msU ≤ s.now) then s.enterRun
  else s

/-- AXM_STATE_COUNT follows the counts of AXM. -/
def State.stateCounts (s : State) : State :=
  forAll (List.range 10) (fun i st => st.wr (Reg.axmStateCount i) (w32 (s.axm.count.getD i 0))) s

/-- Step 3 and what happens at S: every block at the boundary of cycle `n`, which starts at `c0`. -/
def State.stepThree (s : State) (n c0 : Nat) : State :=
  let s1 := s.cycleOpen n c0
  let s2 := ((s1.slcBoundary.tbuBoundary).fabricBoundary n).twinBoundary n
  let s3 := ((s2.setpoints.safeStops).axmBoundary.stateCounts).publishStates
  let s4 := forAll s3.axesInUse (fun a st => st.flySeed a) s3
  let s5 := forAll (List.range 8) (fun k st => if st.encMode k = 0 then st else st.encAtS k) s4.inputsAtS
  let s6 := forAll (List.range 4) (fun k st => st.readBackInject k) s5
  let s7 := forAll [1, 6, 7] (fun u st => st.touch u 0) s6
  let s8 := (s7.tick 0x066).readyRun
  ((s8.beacon).capBoundary.capCycleTrig).elgBoundary

/-! ### Step 4 of R33 (R60, R464, R465, R469) -/

/-- Inserts an item by take order. -/
def insertTaken (t : Taken) : List Taken → List Taken
  | [] => [t]
  | u :: r => if t.seq < u.seq then t :: u :: r else u :: insertTaken t r

/-- The items due at the present boundary, in take order. -/
def State.dueItems (s : State) : List Taken :=
  (s.wks.taken.filter (fun t => match t.stage with
    | .staged c => decide (c ≤ s.cyc.n)
    | .delayed c => decide (c ≤ s.cyc.n)
    | _ => false)).foldl (fun l t => insertTaken t l) []

/-- Step 4: the items due, then the COMMAND rings are due for a take (R460). -/
def State.stepFour (s : State) : State :=
  let s1 := forAll s.dueItems (fun t st => st.serveDue t) s
  let s2 : State := { s1 with wks := { s1.wks with takeAll := true } }
  s2.stallRefresh

/-! ### The boundary -/

/-- The steps of R33 at the boundary of cycle `n`. -/
def State.boundary (s : State) (n c0 : Nat) : State :=
  let s1 := s.epochBoundary n
  let s2 := (s1.bringIn 1 n).bringIn 2 n
  (s2.stepThree n c0).stepFour

/-- CYCLE_BOUNDARY: fabric time has reached the next n T (R32). CYC begins with the first boundary after READY is entered
(R421). -/
def execCycleBoundary (s : State) : Host.Outcome State Fault Refusal :=
  if s.cyc.running then
    if s.now < s.cyc.c0 + s.per then .next s else .next (s.cycleEnd.boundary (s.cyc.n + 1) (s.cyc.c0 + s.per))
  else
    let n := s.now / s.per
    if s.glb.st ≠ .ready ∨ s.per = 0 ∨ n ≤ s.cfl.readyAt / s.per then .next s
    else
      let s1 := s.updHlm (fun h => { h with lastRotate := s.now })
      .next (s1.boundary n (n * s.per))

/-! ### The clock (R287) -/

/-- One SYS clock with no command: the probes settle (R85, R86), the time base advances by INCR, and signals are held as it passes DL_END
(R102). -/
def State.clock (s : State) : State :=
  let t := s.instant Reg.cycDlEnd
  let s := s.probesSettle
  let s1 : State := { s with clk := s.clk + 1, ft := s.ft + (s.rd64 Reg.tbuIncrLo Reg.tbuIncrHi).toNat }
  if s.cyc.running ∧ s.now < t ∧ t ≤ s1.now then s1.holdSignals else s1

end Sys2Proof.Machine
end

