-- ==== Sys2Proof/Machine/EngineInstr.lean ====
section
/-! DEFINITION. Machine/EngineInstr.lean: the instructions of the control engines (R143), one command for each: engine
`e` executes the instruction at its program counter. -/

namespace Sys2Proof.Machine

/-- MOV (R143). Parallel move only; the all-zero word is NOP. -/
def execMov (e : Nat) (s : State) : Host.Outcome State Fault Refusal := .next (s.engineRow 0x00 e)

/-- MPY (R143). Accumulator set to the signed product of two D registers. -/
def execMpy (e : Nat) (s : State) : Host.Outcome State Fault Refusal := .next (s.engineRow 0x01 e)

/-- MAC (R143). Signed product added to the accumulator. -/
def execMac (e : Nat) (s : State) : Host.Outcome State Fault Refusal := .next (s.engineRow 0x02 e)

/-- MACR (R143). Product added to the accumulator then rounded at bit 30. -/
def execMacr (e : Nat) (s : State) : Host.Outcome State Fault Refusal := .next (s.engineRow 0x03 e)

/-- MPYU (R136). Accumulator set to an unsigned-by-signed product. -/
def execMpyu (e : Nat) (s : State) : Host.Outcome State Fault Refusal := .next (s.engineRow 0x04 e)

/-- MACS (R136). Accumulator shifted right 32 arithmetically and the product added. -/
def execMacs (e : Nat) (s : State) : Host.Outcome State Fault Refusal := .next (s.engineRow 0x05 e)

/-- MPYM (R143). Accumulator set to the product of X and Y memory operands. -/
def execMpym (e : Nat) (s : State) : Host.Outcome State Fault Refusal := .next (s.engineRow 0x06 e)

/-- MACM (R143). Product of X and Y memory operands added to the accumulator. -/
def execMacm (e : Nat) (s : State) : Host.Outcome State Fault Refusal := .next (s.engineRow 0x07 e)

/-- ADD (R143). Saturated sum of two D registers with N and Z. -/
def execAddOp (e : Nat) (s : State) : Host.Outcome State Fault Refusal := .next (s.engineRow 0x08 e)

/-- SUB (R143). Saturated difference of two D registers with N and Z. -/
def execSubOp (e : Nat) (s : State) : Host.Outcome State Fault Refusal := .next (s.engineRow 0x09 e)

/-- ADDA (R143). A Q1.31 D register added to the accumulator at bits 62-31. -/
def execAdda (e : Nat) (s : State) : Host.Outcome State Fault Refusal := .next (s.engineRow 0x0A e)

/-- SUBA (R143). A Q1.31 D register subtracted from the accumulator. -/
def execSuba (e : Nat) (s : State) : Host.Outcome State Fault Refusal := .next (s.engineRow 0x0B e)

/-- ABS (R143). Saturated absolute value into a D register. -/
def execAbsOp (e : Nat) (s : State) : Host.Outcome State Fault Refusal := .next (s.engineRow 0x0C e)

/-- NEG (R143). Saturated negation into a D register. -/
def execNegOp (e : Nat) (s : State) : Host.Outcome State Fault Refusal := .next (s.engineRow 0x0D e)

/-- MIN (R143). Signed minimum of two D registers. -/
def execMinOp (e : Nat) (s : State) : Host.Outcome State Fault Refusal := .next (s.engineRow 0x0E e)

/-- MAX (R143). Signed maximum of two D registers. -/
def execMaxOp (e : Nat) (s : State) : Host.Outcome State Fault Refusal := .next (s.engineRow 0x0F e)

/-- AND (R143). Bitwise AND of two D registers. -/
def execAndOp (e : Nat) (s : State) : Host.Outcome State Fault Refusal := .next (s.engineRow 0x10 e)

/-- OR (R143). Bitwise OR of two D registers. -/
def execOrOp (e : Nat) (s : State) : Host.Outcome State Fault Refusal := .next (s.engineRow 0x11 e)

/-- XOR (R143). Bitwise XOR of two D registers. -/
def execXor (e : Nat) (s : State) : Host.Outcome State Fault Refusal := .next (s.engineRow 0x12 e)

/-- ASL (R143). Saturating arithmetic left shift. -/
def execAsl (e : Nat) (s : State) : Host.Outcome State Fault Refusal := .next (s.engineRow 0x13 e)

/-- ASR (R143). Arithmetic right shift. -/
def execAsr (e : Nat) (s : State) : Host.Outcome State Fault Refusal := .next (s.engineRow 0x14 e)

/-- LSR (R143). Logical right shift. -/
def execLsr (e : Nat) (s : State) : Host.Outcome State Fault Refusal := .next (s.engineRow 0x15 e)

/-- CMP (R143). N and Z from an unsaturated difference. -/
def execCmp (e : Nat) (s : State) : Host.Outcome State Fault Refusal := .next (s.engineRow 0x16 e)

/-- CLR (R143). Accumulator cleared. -/
def execClr (e : Nat) (s : State) : Host.Outcome State Fault Refusal := .next (s.engineRow 0x17 e)

/-- ASHA (R143). Accumulator shifted by a signed amount, saturating to 80 bits. -/
def execAsha (e : Nat) (s : State) : Host.Outcome State Fault Refusal := .next (s.engineRow 0x18 e)

/-- STA (R135). Rounded, saturated Q1.31 of the accumulator into a D register. -/
def execSta (e : Nat) (s : State) : Host.Outcome State Fault Refusal := .next (s.engineRow 0x19 e)

/-- STAH (R135). High word of the Q1.63 accumulator into a D register. -/
def execStah (e : Nat) (s : State) : Host.Outcome State Fault Refusal := .next (s.engineRow 0x1A e)

/-- STAL (R135). Low word of the Q1.63 accumulator into a D register. -/
def execStal (e : Nat) (s : State) : Host.Outcome State Fault Refusal := .next (s.engineRow 0x1B e)

/-- RND (R143). Accumulator rounded at bit 30 with low bits cleared. -/
def execRnd (e : Nat) (s : State) : Host.Outcome State Fault Refusal := .next (s.engineRow 0x1C e)

/-- MVA (R143). Accumulator set to the other accumulator. -/
def execMva (e : Nat) (s : State) : Host.Outcome State Fault Refusal := .next (s.engineRow 0x1D e)

/-- LDA (R143). Accumulator loaded from a D register as Q1.31. -/
def execLda (e : Nat) (s : State) : Host.Outcome State Fault Refusal := .next (s.engineRow 0x1E e)

/-- LDH (R143). Upper half of a register loaded from the immediate. -/
def execLdh (e : Nat) (s : State) : Host.Outcome State Fault Refusal := .next (s.engineRow 0x20 e)

/-- LDL (R143). Lower half of a register loaded from the immediate. -/
def execLdl (e : Nat) (s : State) : Host.Outcome State Fault Refusal := .next (s.engineRow 0x21 e)

/-- MOVR (R143). Register-to-register move. -/
def execMovr (e : Nat) (s : State) : Host.Outcome State Fault Refusal := .next (s.engineRow 0x28 e)

/-- LDX (R134). Register loaded from X memory at register plus displacement. -/
def execLdx (e : Nat) (s : State) : Host.Outcome State Fault Refusal := .next (s.engineRow 0x29 e)

/-- STX (R143). Register stored to X memory at register plus displacement. -/
def execStx (e : Nat) (s : State) : Host.Outcome State Fault Refusal := .next (s.engineRow 0x2A e)

/-- LDY (R143). Register loaded from Y memory at register plus displacement. -/
def execLdy (e : Nat) (s : State) : Host.Outcome State Fault Refusal := .next (s.engineRow 0x2B e)

/-- JMP (R139). Unconditional branch after two delay slots. -/
def execJmp (e : Nat) (s : State) : Host.Outcome State Fault Refusal := .next (s.engineRow 0x30 e)

/-- Jcc (R144). Conditional branch on COND after two delay slots. -/
def execJcc (e : Nat) (s : State) : Host.Outcome State Fault Refusal := .next (s.engineRow 0x31 e)

/-- JSR (R139). Subroutine call writing RA. -/
def execJsr (e : Nat) (s : State) : Host.Outcome State Fault Refusal := .next (s.engineRow 0x32 e)

/-- RTS (R139). Return to RA after two delay slots. -/
def execRts (e : Nat) (s : State) : Host.Outcome State Fault Refusal := .next (s.engineRow 0x33 e)

/-- DO (R141). Starts a hardware loop of an immediate count. -/
def execDoLoop (e : Nat) (s : State) : Host.Outcome State Fault Refusal := .next (s.engineRow 0x34 e)

/-- DOD (R141). Starts a hardware loop with the count from a D register. -/
def execDod (e : Nat) (s : State) : Host.Outcome State Fault Refusal := .next (s.engineRow 0x35 e)

/-- REP (R140). Repeats the next instruction an immediate number of times. -/
def execRepOp (e : Nat) (s : State) : Host.Outcome State Fault Refusal := .next (s.engineRow 0x36 e)

/-- REPD (R140). Repeats the next instruction a D-register number of times. -/
def execRepd (e : Nat) (s : State) : Host.Outcome State Fault Refusal := .next (s.engineRow 0x37 e)

/-- ENDDO (R141). Makes the current loop iteration the last. -/
def execEnddo (e : Nat) (s : State) : Host.Outcome State Fault Refusal := .next (s.engineRow 0x38 e)

/-- EXIT (R153). Ends the job and starts the 8-clock writeback. -/
def execExitJob (e : Nat) (s : State) : Host.Outcome State Fault Refusal := .next (s.engineRow 0x3C e)

/-- ABORT (R153). Ends the job without results. -/
def execAbortJob (e : Nat) (s : State) : Host.Outcome State Fault Refusal := .next (s.engineRow 0x3D e)

/-- RTI (R146). Returns from an interrupt handler, acting as ABORT in the overrun handler. -/
def execRti (e : Nat) (s : State) : Host.Outcome State Fault Refusal := .next (s.engineRow 0x3E e)

end Sys2Proof.Machine
end

