-- ==== Sys2Proof/Machine/Dispatch.lean ====
section
/-! DEFINITION. Machine/Dispatch.lean: which meaning each command has. -/

namespace Sys2Proof.Machine

/-- The effect of one command on everything but the queue. -/
def exec (i : Instr) (s : State) : Host.Outcome State Fault Refusal :=
  match i with
  | .registerWrite a v => Sys2Proof.Machine.execRegisterWrite a v s
  | .bar0BadAccess write off size => Sys2Proof.Machine.execBar0BadAccess write off size s
  | .rcCounterRead a inc => Sys2Proof.Machine.execRcCounterRead a inc s
  | .holdingRegisterRead a => Sys2Proof.Machine.execHoldingRegisterRead a s
  | .cycleBoundary => Sys2Proof.Machine.execCycleBoundary s
  | .ulBundleFrame p fr fcsOk => Sys2Proof.Machine.execUlBundleFrame p fr fcsOk s
  | .babble p => Sys2Proof.Machine.execBabble p s
  | .uplinkRecordLanded p k => Sys2Proof.Machine.execUplinkRecordLanded p k s
  | .localSamplePost k half => Sys2Proof.Machine.execLocalSamplePost k half s
  | .ulEnd h => Sys2Proof.Machine.execUlEnd h s
  | .feedbackLost a => Sys2Proof.Machine.execFeedbackLost a s
  | .cmdLost a => Sys2Proof.Machine.execCmdLost a s
  | .frameStage a half => Sys2Proof.Machine.execFrameStage a half s
  | .jobDispatch => Sys2Proof.Machine.execJobDispatch s
  | .jobSkipped a half => Sys2Proof.Machine.execJobSkipped a half s
  | .cycleOverrun e => Sys2Proof.Machine.execCycleOverrun e s
  | .urgentStop e => Sys2Proof.Machine.execUrgentStop e s
  | .engineHalt e => Sys2Proof.Machine.execEngineHalt e s
  | .engineReset e => Sys2Proof.Machine.execEngineReset e s
  | .mov e => Sys2Proof.Machine.execMov e s
  | .mpy e => Sys2Proof.Machine.execMpy e s
  | .mac e => Sys2Proof.Machine.execMac e s
  | .macr e => Sys2Proof.Machine.execMacr e s
  | .mpyu e => Sys2Proof.Machine.execMpyu e s
  | .macs e => Sys2Proof.Machine.execMacs e s
  | .mpym e => Sys2Proof.Machine.execMpym e s
  | .macm e => Sys2Proof.Machine.execMacm e s
  | .addOp e => Sys2Proof.Machine.execAddOp e s
  | .subOp e => Sys2Proof.Machine.execSubOp e s
  | .adda e => Sys2Proof.Machine.execAdda e s
  | .suba e => Sys2Proof.Machine.execSuba e s
  | .absOp e => Sys2Proof.Machine.execAbsOp e s
  | .negOp e => Sys2Proof.Machine.execNegOp e s
  | .minOp e => Sys2Proof.Machine.execMinOp e s
  | .maxOp e => Sys2Proof.Machine.execMaxOp e s
  | .andOp e => Sys2Proof.Machine.execAndOp e s
  | .orOp e => Sys2Proof.Machine.execOrOp e s
  | .xor e => Sys2Proof.Machine.execXor e s
  | .asl e => Sys2Proof.Machine.execAsl e s
  | .asr e => Sys2Proof.Machine.execAsr e s
  | .lsr e => Sys2Proof.Machine.execLsr e s
  | .cmp e => Sys2Proof.Machine.execCmp e s
  | .clr e => Sys2Proof.Machine.execClr e s
  | .asha e => Sys2Proof.Machine.execAsha e s
  | .sta e => Sys2Proof.Machine.execSta e s
  | .stah e => Sys2Proof.Machine.execStah e s
  | .stal e => Sys2Proof.Machine.execStal e s
  | .rnd e => Sys2Proof.Machine.execRnd e s
  | .mva e => Sys2Proof.Machine.execMva e s
  | .lda e => Sys2Proof.Machine.execLda e s
  | .ldh e => Sys2Proof.Machine.execLdh e s
  | .ldl e => Sys2Proof.Machine.execLdl e s
  | .movr e => Sys2Proof.Machine.execMovr e s
  | .ldx e => Sys2Proof.Machine.execLdx e s
  | .stx e => Sys2Proof.Machine.execStx e s
  | .ldy e => Sys2Proof.Machine.execLdy e s
  | .jmp e => Sys2Proof.Machine.execJmp e s
  | .jcc e => Sys2Proof.Machine.execJcc e s
  | .jsr e => Sys2Proof.Machine.execJsr e s
  | .rts e => Sys2Proof.Machine.execRts e s
  | .doLoop e => Sys2Proof.Machine.execDoLoop e s
  | .dod e => Sys2Proof.Machine.execDod e s
  | .repOp e => Sys2Proof.Machine.execRepOp e s
  | .repd e => Sys2Proof.Machine.execRepd e s
  | .enddo e => Sys2Proof.Machine.execEnddo e s
  | .exitJob e => Sys2Proof.Machine.execExitJob e s
  | .abortJob e => Sys2Proof.Machine.execAbortJob e s
  | .rti e => Sys2Proof.Machine.execRti e s
  | .jobWritebackEnd e => Sys2Proof.Machine.execJobWritebackEnd e s
  | .downlinkSlot k => Sys2Proof.Machine.execDownlinkSlot k s
  | .actuationInstant => Sys2Proof.Machine.execActuationInstant s
  | .loadRestart => Sys2Proof.Machine.execLoadRestart s
  | .slackRestart => Sys2Proof.Machine.execSlackRestart s
  | .axisCreate it => Sys2Proof.Machine.execAxisCreate it s
  | .axisDestroy it => Sys2Proof.Machine.execAxisDestroy it s
  | .axisEnable it => Sys2Proof.Machine.execAxisEnable it s
  | .axisDisable it => Sys2Proof.Machine.execAxisDisable it s
  | .admitTimeout a => Sys2Proof.Machine.execAdmitTimeout a s
  | .enableTimeout a => Sys2Proof.Machine.execEnableTimeout a s
  | .quadEdge k a b z => Sys2Proof.Machine.execQuadEdge k a b z s
  | .indexEvent k => Sys2Proof.Machine.execIndexEvent k s
  | .encSettle k => Sys2Proof.Machine.execEncSettle k s
  | .sincosConversion k sv cv => Sys2Proof.Machine.execSincosConversion k sv cv s
  | .scSignal k => Sys2Proof.Machine.execScSignal k s
  | .fitCompleted k osSin osCos gain phi => Sys2Proof.Machine.execFitCompleted k osSin osCos gain phi s
  | .serialReadStart k => Sys2Proof.Machine.execSerialReadStart k s
  | .serialReadEnd k frame ack delay => Sys2Proof.Machine.execSerialReadEnd k frame ack delay s
  | .reread k => Sys2Proof.Machine.execReread k s
  | .bissRegisterRead k slave addr => Sys2Proof.Machine.execBissRegisterRead k slave addr s
  | .bissRegisterWrite k slave addr data => Sys2Proof.Machine.execBissRegisterWrite k slave addr data s
  | .bissTransactionEnd k data ok => Sys2Proof.Machine.execBissTransactionEnd k data ok s
  | .probeArm k p => Sys2Proof.Machine.execProbeArm k p s
  | .probeAck k p => Sys2Proof.Machine.execProbeAck k p s
  | .standstillTimeout ix => Sys2Proof.Machine.execStandstillTimeout ix s
  | .fastInputTransition k pin => Sys2Proof.Machine.execFastInputTransition k pin s
  | .inputStuck k => Sys2Proof.Machine.execInputStuck k s
  | .inputReleased k => Sys2Proof.Machine.execInputReleased k s
  | .chatterRelease k => Sys2Proof.Machine.execChatterRelease k s
  | .dioOutSet v => Sys2Proof.Machine.execDioOutSet v s
  | .dioOutClr v => Sys2Proof.Machine.execDioOutClr v s
  | .outputEdgeDue k => Sys2Proof.Machine.execOutputEdgeDue k s
  | .coefWrite it => Sys2Proof.Machine.execCoefWrite it s
  | .coefSwap it => Sys2Proof.Machine.execCoefSwap it s
  | .followingError a => Sys2Proof.Machine.execFollowingError a s
  | .obsRestart => Sys2Proof.Machine.execObsRestart s
  | .rotorLost a => Sys2Proof.Machine.execRotorLost a s
  | .recatchDue a => Sys2Proof.Machine.execRecatchDue a s
  | .recatchEnd a => Sys2Proof.Machine.execRecatchEnd a s
  | .magTimeElapsed a => Sys2Proof.Machine.execMagTimeElapsed a s
  | .alignStepEnd a => Sys2Proof.Machine.execAlignStepEnd a s
  | .startTimeout a => Sys2Proof.Machine.execStartTimeout a s
  | .retryWaitElapsed a => Sys2Proof.Machine.execRetryWaitElapsed a s
  | .holdCurrentTimeout a => Sys2Proof.Machine.execHoldCurrentTimeout a s
  | .keWindowFilled a => Sys2Proof.Machine.execKeWindowFilled a s
  | .offsetFit a => Sys2Proof.Machine.execOffsetFit a s
  | .moveAbs it => Sys2Proof.Machine.execMoveAbs it s
  | .moveRel it => Sys2Proof.Machine.execMoveRel it s
  | .moveVel it => Sys2Proof.Machine.execMoveVel it s
  | .stopItem it => Sys2Proof.Machine.execStopItem it s
  | .homeItem it => Sys2Proof.Machine.execHomeItem it s
  | .segDone ix => Sys2Proof.Machine.execSegDone ix s
  | .softLimit a => Sys2Proof.Machine.execSoftLimit a s
  | .homeDone a => Sys2Proof.Machine.execHomeDone a s
  | .lauPost => Sys2Proof.Machine.execLauPost s
  | .coastExpiry n => Sys2Proof.Machine.execCoastExpiry n s
  | .rejoinSlewEnd n => Sys2Proof.Machine.execRejoinSlewEnd n s
  | .periodicEdgeMissing n => Sys2Proof.Machine.execPeriodicEdgeMissing n s
  | .gearSet it => Sys2Proof.Machine.execGearSet it s
  | .gearChangeAt it => Sys2Proof.Machine.execGearChangeAt it s
  | .camSet it => Sys2Proof.Machine.execCamSet it s
  | .camCopyDone ix => Sys2Proof.Machine.execCamCopyDone ix s
  | .compareArm it => Sys2Proof.Machine.execCompareArm it s
  | .compareDisarm it => Sys2Proof.Machine.execCompareDisarm it s
  | .joinReq p fr => Sys2Proof.Machine.execJoinReq p fr s
  | .joinTimeout n b => Sys2Proof.Machine.execJoinTimeout n b s
  | .portFenced n b => Sys2Proof.Machine.execPortFenced n b s
  | .trimAlarm n b => Sys2Proof.Machine.execTrimAlarm n b s
  | .asymDisagree n => Sys2Proof.Machine.execAsymDisagree n s
  | .safeFrame p fr => Sys2Proof.Machine.execSafeFrame p fr s
  | .cplStat p fr => Sys2Proof.Machine.execCplStat p fr s
  | .linkDown p => Sys2Proof.Machine.execLinkDown p s
  | .linkUp p => Sys2Proof.Machine.execLinkUp p s
  | .ptpSync p m => Sys2Proof.Machine.execPtpSync p m s
  | .ptpFollowUp p m => Sys2Proof.Machine.execPtpFollowUp p m s
  | .ptpPdelayReq p seq => Sys2Proof.Machine.execPtpPdelayReq p seq s
  | .ptpPdelayResp p m => Sys2Proof.Machine.execPtpPdelayResp p m s
  | .ptpAnnounce p a => Sys2Proof.Machine.execPtpAnnounce p a s
  | .ptpManagement p => Sys2Proof.Machine.execPtpManagement p s
  | .ptpSyncSend p => Sys2Proof.Machine.execPtpSyncSend p s
  | .ptpAnnounceSend p => Sys2Proof.Machine.execPtpAnnounceSend p s
  | .ptpPdelaySend p => Sys2Proof.Machine.execPtpPdelaySend p s
  | .pdelayTimeout p => Sys2Proof.Machine.execPdelayTimeout p s
  | .timeSync => Sys2Proof.Machine.execTimeSync s
  | .timeUnsync => Sys2Proof.Machine.execTimeUnsync s
  | .holdoverEnter => Sys2Proof.Machine.execHoldoverEnter s
  | .announceTimeout => Sys2Proof.Machine.execAnnounceTimeout s
  | .asymCheck => Sys2Proof.Machine.execAsymCheck s
  | .ppsOutEdge => Sys2Proof.Machine.execPpsOutEdge s
  | .ppsInEdge rising => Sys2Proof.Machine.execPpsInEdge rising s
  | .ppsLost => Sys2Proof.Machine.execPpsLost s
  | .plantPtpExchange ofs => Sys2Proof.Machine.execPlantPtpExchange ofs s
  | .helloSend => Sys2Proof.Machine.execHelloSend s
  | .helloFrame p fr => Sys2Proof.Machine.execHelloFrame p fr s
  | .idAssigned told => Sys2Proof.Machine.execIdAssigned told s
  | .fabDataSend => Sys2Proof.Machine.execFabDataSend s
  | .fabData p fr => Sys2Proof.Machine.execFabData p fr s
  | .asyncFrameRelease p => Sys2Proof.Machine.execAsyncFrameRelease p s
  | .memberLost c => Sys2Proof.Machine.execMemberLost c s
  | .signalStale ix => Sys2Proof.Machine.execSignalStale ix s
  | .epochStage it => Sys2Proof.Machine.execEpochStage it s
  | .epochCommit it => Sys2Proof.Machine.execEpochCommit it s
  | .epochOffer e init auto members candle => Sys2Proof.Machine.execEpochOffer e init auto members candle s
  | .cfgXfer dest k total bytes => Sys2Proof.Machine.execCfgXfer dest k total bytes s
  | .epochNeed from_ ks => Sys2Proof.Machine.execEpochNeed from_ ks s
  | .stageDone body told giveUp => Sys2Proof.Machine.execStageDone body told giveUp s
  | .epochReadyReceived e from_ nReq => Sys2Proof.Machine.execEpochReadyReceived e from_ nReq s
  | .epochFail e from_ code => Sys2Proof.Machine.execEpochFail e from_ code s
  | .commitReceived => Sys2Proof.Machine.execCommitReceived s
  | .epochAbort e cause more => Sys2Proof.Machine.execEpochAbort e cause more s
  | .epochReadyTimeout => Sys2Proof.Machine.execEpochReadyTimeout s
  | .epochOfferTimeout => Sys2Proof.Machine.execEpochOfferTimeout s
  | .landMapSend => Sys2Proof.Machine.execLandMapSend s
  | .landMap fr => Sys2Proof.Machine.execLandMap fr s
  | .dlCopy fr => Sys2Proof.Machine.execDlCopy fr s
  | .selfTestStart => Sys2Proof.Machine.execSelfTestStart s
  | .selfTest own => Sys2Proof.Machine.execSelfTest own s
  | .hb serial role cstate prefix_ phase test act names => Sys2Proof.Machine.execHb serial role cstate prefix_ phase test act names s
  | .stateChunk x => Sys2Proof.Machine.execStateChunk x s
  | .twMsg answer code bytes => Sys2Proof.Machine.execTwMsg answer code bytes s
  | .partnerActChange a b => Sys2Proof.Machine.execPartnerActChange a b s
  | .actRaise => Sys2Proof.Machine.execActRaise s
  | .wickConflict => Sys2Proof.Machine.execWickConflict s
  | .wickFault cause => Sys2Proof.Machine.execWickFault cause s
  | .cycStall => Sys2Proof.Machine.execCycStall s
  | .hbLost => Sys2Proof.Machine.execHbLost s
  | .twinLink up txLat rxLat => Sys2Proof.Machine.execTwinLink up txLat rxLat s
  | .startWait => Sys2Proof.Machine.execStartWait s
  | .handover => Sys2Proof.Machine.execHandover s
  | .handoverActDrop => Sys2Proof.Machine.execHandoverActDrop s
  | .requalify => Sys2Proof.Machine.execRequalify s
  | .twuAccept v => Sys2Proof.Machine.execTwuAccept v s
  | .peerAccepted byHost => Sys2Proof.Machine.execPeerAccepted byHost s
  | .imageAdopt bs body told => Sys2Proof.Machine.execImageAdopt bs body told s
  | .peerWrite ok0 ok1 other => Sys2Proof.Machine.execPeerWrite ok0 ok1 other s
  | .islandStart crcA crcB testOk => Sys2Proof.Machine.execIslandStart crcA crcB testOk s
  | .sfiEvaluation => Sys2Proof.Machine.execSfiEvaluation s
  | .posDisc k => Sys2Proof.Machine.execPosDisc k s
  | .sfiCrossCompare agree delivered same => Sys2Proof.Machine.execSfiCrossCompare agree delivered same s
  | .scaClock => Sys2Proof.Machine.execScaClock s
  | .scbClock => Sys2Proof.Machine.execScbClock s
  | .connLost c => Sys2Proof.Machine.execConnLost c s
  | .ss1Timeout a => Sys2Proof.Machine.execSs1Timeout a s
  | .sbcEngage a => Sys2Proof.Machine.execSbcEngage a s
  | .safeInputChange k chanB lvl => Sys2Proof.Machine.execSafeInputChange k chanB lvl s
  | .inputDisc k => Sys2Proof.Machine.execInputDisc k s
  | .outReadback k chanB => Sys2Proof.Machine.execOutReadback k chanB s
  | .outputTestPulse k seen => Sys2Proof.Machine.execOutputTestPulse k seen s
  | .safeReset chanB lvl => Sys2Proof.Machine.execSafeReset chanB lvl s
  | .resetStuck => Sys2Proof.Machine.execResetStuck s
  | .powerOn mv por sel => Sys2Proof.Machine.execPowerOn mv por sel s
  | .dramTrainingDone sramOk ok => Sys2Proof.Machine.execDramTrainingDone sramOk ok s
  | .dramWipeDone ok ms => Sys2Proof.Machine.execDramWipeDone ok ms s
  | .imageReadDone => Sys2Proof.Machine.execImageReadDone s
  | .imageVerifyDone body told => Sys2Proof.Machine.execImageVerifyDone body told s
  | .vinLow mv => Sys2Proof.Machine.execVinLow mv s
  | .vinLowClear mv => Sys2Proof.Machine.execVinLowClear mv s
  | .vinHigh mv => Sys2Proof.Machine.execVinHigh mv s
  | .brownout mv => Sys2Proof.Machine.execBrownout mv s
  | .overvolt mv => Sys2Proof.Machine.execOvervolt mv s
  | .railReset rail => Sys2Proof.Machine.execRailReset rail s
  | .thermalReset => Sys2Proof.Machine.execThermalReset s
  | .clockReset sel => Sys2Proof.Machine.execClockReset sel s
  | .pinReset ns sel => Sys2Proof.Machine.execPinReset ns sel s
  | .pemReset v sel => Sys2Proof.Machine.execPemReset v sel s
  | .lifecycleReset sel => Sys2Proof.Machine.execLifecycleReset sel s
  | .ledgerEvaluation mv ma => Sys2Proof.Machine.execLedgerEvaluation mv ma s
  | .encRampEnd k => Sys2Proof.Machine.execEncRampEnd k s
  | .encCut k => Sys2Proof.Machine.execEncCut k s
  | .encRetryDue k => Sys2Proof.Machine.execEncRetryDue k s
  | .encOvervolt mv => Sys2Proof.Machine.execEncOvervolt mv s
  | .encTotal ma => Sys2Proof.Machine.execEncTotal ma s
  | .encRetry v => Sys2Proof.Machine.execEncRetry v s
  | .tokenTransition => Sys2Proof.Machine.execTokenTransition s
  | .tokenKeyAdd => Sys2Proof.Machine.execTokenKeyAdd s
  | .tokenKeyRevoke => Sys2Proof.Machine.execTokenKeyRevoke s
  | .imageAdopted body told => Sys2Proof.Machine.execImageAdopted body told s
  | .adoptTimeout => Sys2Proof.Machine.execAdoptTimeout s
  | .flashProgramSlot xb slotB firm => Sys2Proof.Machine.execFlashProgramSlot xb slotB firm s
  | .flashErasePeer xb => Sys2Proof.Machine.execFlashErasePeer xb s
  | .flashDone fail left => Sys2Proof.Machine.execFlashDone fail left s
  | .perstN => Sys2Proof.Machine.execPerstN s
  | .pcieLink up speed width => Sys2Proof.Machine.execPcieLink up speed width s
  | .bar2Access off len data aer => Sys2Proof.Machine.execBar2Access off len data aer s
  | .msixMessage v => Sys2Proof.Machine.execMsixMessage v s
  | .postMsg c => Sys2Proof.Machine.execPostMsg c s
  | .releaseMsg c => Sys2Proof.Machine.execReleaseMsg c s
  | .mailboxTake c => Sys2Proof.Machine.execMailboxTake c s
  | .echoOp c => Sys2Proof.Machine.execEchoOp c s
  | .workOp c => Sys2Proof.Machine.execWorkOp c s
  | .signalRead c => Sys2Proof.Machine.execSignalRead c s
  | .infoOp c => Sys2Proof.Machine.execInfoOp c s
  | .twinSend => Sys2Proof.Machine.execTwinSend s
  | .fabricSend => Sys2Proof.Machine.execFabricSend s
  | .fabricMsg from_ answer code bytes => Sys2Proof.Machine.execFabricMsg from_ answer code bytes s
  | .demandReq fw => Sys2Proof.Machine.execDemandReq fw s
  | .withdrawReq fw => Sys2Proof.Machine.execWithdrawReq fw s
  | .diagRead a n => Sys2Proof.Machine.execDiagRead a n s
  | .logRead n => Sys2Proof.Machine.execLogRead n s
  | .tokenCmd token => Sys2Proof.Machine.execTokenCmd token s
  | .flashCmd fl tg firm => Sys2Proof.Machine.execFlashCmd fl tg firm s
  | .kickRing r => Sys2Proof.Machine.execKickRing r s
  | .dbOutSet v => Sys2Proof.Machine.execDbOutSet v s
  | .dbOutClr v => Sys2Proof.Machine.execDbOutClr v s
  | .sourceArrival n lvl => Sys2Proof.Machine.execSourceArrival n lvl s
  | .claimSrc k => Sys2Proof.Machine.execClaimSrc k s
  | .claimByVector k v => Sys2Proof.Machine.execClaimByVector k v s
  | .completeSrc k v => Sys2Proof.Machine.execCompleteSrc k v s
  | .maskSet w v => Sys2Proof.Machine.execMaskSet w v s
  | .maskClr w v => Sys2Proof.Machine.execMaskClr w v s
  | .pendSet w v => Sys2Proof.Machine.execPendSet w v s
  | .pendClr w v => Sys2Proof.Machine.execPendClr w v s
  | .prodWrite r v => Sys2Proof.Machine.execProdWrite r v s
  | .consWrite r v => Sys2Proof.Machine.execConsWrite r v s
  | .itemTake => Sys2Proof.Machine.execItemTake s
  | .itemPrepare c => Sys2Proof.Machine.execItemPrepare c s
  | .itemStage c => Sys2Proof.Machine.execItemStage c s
  | .completionWrite => Sys2Proof.Machine.execCompletionWrite s
  | .signalWrite it => Sys2Proof.Machine.execSignalWrite it s
  | .logMark it => Sys2Proof.Machine.execLogMark it s
  | .captureArm it => Sys2Proof.Machine.execCaptureArm it s
  | .captureDisarm it => Sys2Proof.Machine.execCaptureDisarm it s
  | .captureDone c => Sys2Proof.Machine.execCaptureDone c s
  | .captureForced c => Sys2Proof.Machine.execCaptureForced c s
  | .eventRecordWrite => Sys2Proof.Machine.execEventRecordWrite s
  | .limiterToken l => Sys2Proof.Machine.execLimiterToken l s
  | .elgRestart => Sys2Proof.Machine.execElgRestart s
  | .cursorWrite v => Sys2Proof.Machine.execCursorWrite v s
  | .windowRead => Sys2Proof.Machine.execWindowRead s
  | .spareTestTest it => Sys2Proof.Machine.execSpareTestTest it s
  | .spareTestRotate it => Sys2Proof.Machine.execSpareTestRotate it s
  | .spareTestReturn it => Sys2Proof.Machine.execSpareTestReturn it s
  | .spareTestDone kind unit pass => Sys2Proof.Machine.execSpareTestDone kind unit pass s
  | .spareRotation => Sys2Proof.Machine.execSpareRotation s
  | .coreWatchdog c missed => Sys2Proof.Machine.execCoreWatchdog c missed s
  | .coreFirmwareLoaded c => Sys2Proof.Machine.execCoreFirmwareLoaded c s
  | .scrubPass errs => Sys2Proof.Machine.execScrubPass errs s
  | .wearMeasurement losses => Sys2Proof.Machine.execWearMeasurement losses s
  | .thermalRead temps => Sys2Proof.Machine.execThermalRead temps s
  | .healthReport => Sys2Proof.Machine.execHealthReport s
  | .injectionArm ix v => Sys2Proof.Machine.execInjectionArm ix v s
  | .fabricLinkChange p up txLat rxLat => Sys2Proof.Machine.execFabricLinkChange p up txLat rxLat s
  | .thermalResetRelease sel => Sys2Proof.Machine.execThermalResetRelease sel s
  | .sfiSupplyTrip chanB => Sys2Proof.Machine.execSfiSupplyTrip chanB s
  | .forwardedWorkItem it => Sys2Proof.Machine.execForwardedWorkItem it s
  | .pcieConfigWrite w => Sys2Proof.Machine.execPcieConfigWrite w s
  | .adoptionRequest from_ => Sys2Proof.Machine.execAdoptionRequest from_ s

end Sys2Proof.Machine
end

