-- ==== Sys2Proof/Safety.lean ====
section
/-! DEFINITION. Safety.lean: what counts as a well-kept state of the block, and the terms in which claims are stated. -/

namespace Sys2Proof.Machine

/-- The canonical form of the register file: addresses rising, and no register listed that holds its reset value. -/
def regsWf (r : Tab Word) : Bool := Tab.sorted r && r.all (fun p => decide (p.2 ≠ regReset p.1))

/-- DRAM and the register file are in their one canonical form. -/
def State.wf (s : State) : Prop := Memory.wf s.dram = true ∧ regsWf s.regs = true

/-- The command completes from a state, and the next state has a property. -/
def Completes (c : Instr) (s : State) (P : State → Prop) : Prop := ∃ t, exec c s = .next t ∧ P t

/-! ### Control engines -/

/-- Engine `e` runs a job and meets the word `w`, of operation code `op`, at its program counter; no error is injected into it. -/
abbrev EngineAt (s : State) (e op w : Nat) : Prop :=
  (s.eng e).job.isSome = true ∧ (s.eng e).exited = false ∧ (s.eng e).resetting = false ∧ (s.eng e).inj = 0 ∧
    s.injSlots 1 0 = [] ∧ s.injSlots 2 0 = [] ∧ (s.eng e).pc < s.pUsed ∧ s.fetchWord e = w ∧ opcodeOf w = op

/-- The word has no parallel move: XM and YM are 0 (R142). -/
abbrev noMove (w : Nat) : Prop := wf w 15 14 = 0 ∧ wf w 8 7 = 0

/-- The engine is at an instruction that no REP repeats and that stands in no delay slot and in no end region of a loop, with no
interrupt waiting. -/
abbrev Eng.plain (x : Eng) : Prop :=
  x.rep = 0 ∧ x.branch = none ∧ x.slots = 0 ∧ x.commit.inEndRegion = false ∧ x.commit.loopEnd = false ∧ x.urgPend = false ∧ x.ovrPend = false

/-- The register with code `c` once every write on its way has landed (R138). -/
def Eng.landed (x : Eng) (c : Nat) : Nat := x.drain.reg c

/-- A D register as the instruction at hand sees it, signed. -/
def Eng.seen (x : Eng) (c : Nat) : Int := sgn 32 (x.commit.reg c)

/-- NEG of a product (R142). -/
def negated (w : Nat) (p : Int) : Int := if wf w 24 24 = 1 then -p else p

/-- N and Z of a value, as SR bits 1 and 0 (R137). -/
def nzOf (v : Int) : Nat := (if v < 0 then 2 else 0) + (if v = 0 then 1 else 0)

/-- An instruction of an engine completes: where engine `e` stands at a word of the operation and the engine meets `H`, the command
answers a next state in which `P` holds of the engine before and after. -/
def EngRow (c : Nat → Instr) (op : Nat) (H : State → Eng → Nat → Prop) (P : State → Eng → Nat → Eng → Prop) : Prop :=
  ∀ s e w, EngineAt s e op w → H s (s.eng e) w → Completes (c e) s (fun t => P s (s.eng e) w (t.eng e))

/-- The accumulator that the word names in bit 25 or bit 16. -/
def accM (w : Nat) : Nat := wf w 25 25
/-- The accumulator of an R-format word. -/
def accR (w : Nat) : Nat := wf w 16 16

/-- Accumulator `a` holds a value of 80 bits. -/
abbrev Eng.accIs (y : Eng) (a : Nat) (v : Int) : Prop := y.reg (0x42 + a) = bitsOf 80 v

/-- The D register of an R-format word holds a value once it has landed. -/
abbrev Eng.ddIs (y : Eng) (w : Nat) (v : Int) : Prop := y.landed (wf w 25 23) % 2 ^ 32 = bitsOf 32 v

/-- N and Z are those of a value once they have landed. -/
abbrev Eng.nzIs (y : Eng) (v : Int) : Prop := y.landed 0x28 % 4 = nzOf v

/-- Product of the D registers S1 and S2 of an M-format word. -/
def Eng.prod (x : Eng) (w : Nat) : Int := negated w (x.seen (wf w 23 21) * x.seen (wf w 20 18))

/-- Product of the memory operands of MPYM and MACM. -/
def Eng.memProd (s : State) (x : Eng) (w : Nat) : Int :=
  negated w (sgn 32 (x.commit.xRead (x.commit.reg (0x10 + wf w 13 12))) *
    sgn 32 (Eng.yRead s.cea.y x.commit (x.commit.reg (0x14 + wf w 6 5))))

/-- Frame slot of the engine's job. -/
def Eng.slot (x : Eng) : Nat := (x.job.map (·.frame)).getD 0

/-- MPYM and MACM may access their operands. -/
abbrev Eng.memOk (x : Eng) (w : Nat) : Prop :=
  wf w 15 14 ≠ 2 ∧ wf w 8 7 ≠ 3 ∧ accessOk x.slot (x.commit.reg (0x10 + wf w 13 12)) = true ∧
    accessOk x.slot (x.commit.reg (0x14 + wf w 6 5)) = true

/-- S1 and S2 of an R-format word. -/
def Eng.s1 (x : Eng) (w : Nat) : Int := x.seen (wf w 22 20)
/-- S2 of an R-format word. -/
def Eng.s2 (x : Eng) (w : Nat) : Int := x.seen (wf w 19 17)

/-! ### Work items -/

/-- No item of the flow of `it` is held (R465). -/
abbrev State.flowQuiet (s : State) (it : Item) : Prop :=
  it.flow = none ∨ s.wks.taken.all (fun u => decide (u.item.flow ≠ it.flow)) = true

/-- An item of an opcode that the controller takes at a boundary that stands, without a due condition and with nothing of its flow before
it, whose preparation finds nothing wrong: it is served in step 4 of that boundary (R464). -/
abbrev ItemTaken (s : State) (op : Nat) (it : Item) : Prop :=
  it.opcode = op ∧ s.serves = true ∧ s.roomFor it = true ∧ s.atBoundary = true ∧ it.dueKind = 0 ∧ s.flowQuiet it ∧ it.prepare = none

/-- The same, of an opcode that targets an object whose handle is current. -/
abbrev ItemFresh (s : State) (op : Nat) (it : Item) : Prop := ItemTaken s op it ∧ s.staleAt it = false

/-- A 64-bit operand of a move, converted where USER is set; none on overflow (R189). -/
def itemVal (d : PgnDesc) (it : Item) (off : Nat) : Option Int :=
  if it.u 36 1 / 4 % 2 = 1 then userConv d (it.s64 off) else some (it.s64 off)

/-- The position at which MOVE_ABS and MOVE_REL aim (R190). -/
def moveTarget (g : Pgn) (it : Item) (v : Int) : Int :=
  if it.opcode = Opc.moveAbs then g.sp.p + modDiff (dInt v) (dInt g.sp.p) else g.moveBase + v

/-- The limit of a velocity move with the soft limits in force (R205). -/
def moveLimit (d : PgnDesc) (g : Pgn) (v : Int) : Int :=
  if v < 0 then g.sp.p + modDiff (dInt d.posMin) (dInt g.sp.p) else g.sp.p + modDiff (dInt d.posMax) (dInt g.sp.p)

/-- The state of axis `a` accepts a move (R190): READY, in no link and no stop, with no transition at this boundary. -/
abbrev State.moveReady (s : State) (a : Nat) : Prop :=
  (s.axis a).st = .ready ∧ (s.axis a).moved = false ∧ s.linked a = false ∧
    s.lau.armedLinks.any (fun p => decide (p.1 = a)) = false ∧ (s.axis a).pgn.limStop = false ∧ 3 < s.stopRank a

/-- The soft limits of axis `a` are in force (R205). -/
def State.softOn (s : State) (a : Nat) : Bool := (s.desc a).pgn.softEn && (s.axis a).homed

/-! ### Feedback -/

/-- The filters of a channel's lines have passed since their last accepted changes: a change now is accepted (R71). -/
abbrev State.linesSettled (s : State) (k : Nat) : Prop :=
  let f := s.rdFld (Reg.eiuQcfg k) 6 0
  (s.enc k).lnA + f ≤ s.clk ∧ (s.enc k).lnB + f ≤ s.clk ∧ (s.enc k).lnZ + f ≤ s.clk

/-- What a conversion gives: the count, the merged position and the quadrant difference. The first conversion places the count in the
quadrant of the comparators (R76). -/
def State.scNow (s : State) (k : Nat) (sv cv : Int) : Int × Int × Int :=
  let f := s.scFit k
  let r := scCorrect sv cv f.osSin f.osCos f.gain f.phi
  let c := s.enc k
  scMerge f (decide (2000000 < c.est.v.natAbs / 2 ^ 24)) (if c.scSeen then c.count else c.count + quadDiff c.count (atanLine r.1 r.2)) sv cv

/-! ### Siran -/

/-- A window of trunk port `p` is open now (R267). -/
abbrev State.windowOpen (s : State) (p : Nat) : Prop :=
  ∃ q, q ∈ s.slotsOn false s.cyc.n ∧ q.2.trunk = p % 4 ∧ s.cyc.c0 + q.2.start * 1024 ≤ s.now ∧
    s.now ≤ s.cyc.c0 + q.2.start * 1024 + s.guard

/-- A frame of type `ty` that begins now at port `p` passes the tests of R254, R257 and R267 for slot `e`, and no error is injected. -/
abbrev FrameAccepted (s : State) (p ty : Nat) (fr : List Byte) (e : SlotEnt) : Prop :=
  p < 8 ∧ s.cyc.running = true ∧ leAt fr 14 1 = ty ∧ s.injSlots 0x0A p = [] ∧ s.injSlots 0x0C p = [] ∧ s.injSlots 0x0D p = [] ∧
    (s.port p).lockAt ≤ s.now ∧ foreign (s.rdFld Reg.slcCfg 31 16) s.glb.id fr = false ∧ (readHdr fr).ok = true ∧
    s.rxSlot p (readHdr fr) = some e ∧ s.cyc.c0 + e.start * 1024 ≤ s.now ∧
    s.now ≤ s.cyc.c0 + e.start * 1024 + s.rxWindow (decide (ty = 5)) (s.slotDirect e)

/-- Record `k` of the frame `f` that port `p` receives has landed as `rb`, undamaged and no filler, at record map entry `r` of slot
`e`, and its node's link admits records. -/
abbrev RecordLands (s : State) (p k : Nat) (f : RxFrame) (e : SlotEnt) (r : RecEnt) (rb : List Byte) : Prop :=
  s.slc.rx.find? (fun q => decide (q.1 = p)) = some (p, f) ∧ e = s.slotEnt f.slot ∧ (s.recsOf e)[k]? = some r ∧ k < f.count ∧
    f.cycle = s.cyc.n % 2 ^ 32 ∧ f.endAt = none ∧ (f.bad1 = false ∨ k ≠ 0) ∧
    f.start + wireTime (25 + (((s.recsOf e).take k).map (fun q => ulLen q.ext)).sum + ulLen r.ext) ≤ s.now ∧
    rb = (f.body.drop (((s.recsOf e).take k).map (fun q => ulLen q.ext)).sum).take (ulLen r.ext) ∧
    s.linkAdmits r.node (decide (4 ≤ p)) = true ∧ recOk f.cycle true rb = true ∧ (UlRec.of rb).node = r.node ∧
    (UlRec.of rb).sub = r.sub ∧ (UlRec.of rb).fill = false

/-- What has landed of a record position on a channel. -/
def Landed.on (l : Landed) (b : Bool) : Option (List Byte) := if b then l.b else l.a

/-! ### The fabric -/

/-- A fabric frame that arrives at port `p` reads as a header and body, and no error is injected. -/
abbrev FabArrives (s : State) (p : Nat) (fr : List Byte) (h : FabHdr) (body : List Byte) : Prop :=
  p < 2 ∧ s.fabUp p = true ∧ s.injSlots 0x0E p = [] ∧ readFab s.fabEther fr = some (h, body)

/-! ### The twin -/

/-- A TW frame that arrives passes its check. -/
abbrev TwPasses (s : State) : Prop := s.paired = true ∧ s.twu.link = true ∧ s.injSlots 0x0F 0 = []

/-! ### The safety island -/

/-- A function stands on an axis, active or latched. -/
abbrev Sfi.demanded (x : Sfi) (a : Nat) (f : SfFunc) : Prop := x.demands.any (fun d => decide (d.axis = a ∧ d.func = f)) = true

/-- The island is in FAULT for a cause: every torque permit is 0, every brake engaged, and a running controller is in SAFE (R363). -/
abbrev State.islandFaulted (s : State) (cause : Nat) (t : State) : Prop :=
  t.sfi.st = .fault ∧ t.sfi.cause = cause ∧ t.sfi.permit = [] ∧ t.sfi.brakeOff = [] ∧
    (s.glb.st = .run ∨ s.glb.st = .degraded → t.glb.st = .safe)

/-! ### Power and resets -/

/-- An event stands in the queue of the event recorder, where the recorder runs and its queue had a place. -/
abbrev State.logged (s : State) (code : Nat) (args : List EvArg) (t : State) : Prop :=
  s.elg.running = true → s.elg.queue.length < 1024 →
    t.elg.queue.any (fun e => decide (e.code = code ∧ e.args = packArgs args)) = true

/-- What a reset of a cause leaves (R393, R394, R401): DRAM waits for its wipe, flash and the peer records stay, everything else is
as at reset, and the cause is recorded. -/
abbrev State.resetLeft (s : State) (code rail : Nat) (t : State) : Prop :=
  t.dram = s.dram ∧ t.cfl.flash = s.cfl.flash ∧ t.cfl.peers = s.cfl.peers ∧ t.axes = [] ∧ t.gens = [] ∧ t.twu.act = false ∧
    t.sfi = {} ∧ t.cyc.running = false ∧ t.glb.opened = false ∧ t.rd Reg.pemResetCause = w32 (rail * 256 + code)

/-- A reset after which BOOT begins at once, with BOOT_SEL sampled. Of two causes that come in one clock the lower code is recorded
(R393): the clock count is still 0 in a BOOT whose cause has just been recorded. -/
abbrev State.rebooted (s : State) (code sel : Nat) (t : State) : Prop :=
  let was := s.rdFld Reg.pemResetCause 7 0
  s.resetLeft (if s.clk = 0 ∧ s.glb.st = .boot ∧ 0 < was then min was code else code) 0 t ∧ t.glb.st = .boot ∧ t.lcu.bootSel = sel % 4 ∧ t.pem.dramPwr = true

/-- A reset after which the controller is OFF. -/
abbrev State.switchedOff (s : State) (code rail : Nat) (t : State) : Prop :=
  s.resetLeft code rail t ∧ t.glb.st = .off ∧ t.pem.dramPwr = (decide (5 ≤ code) && s.pem.dramPwr)

/-- A load for a row of the ledger's table and an index waits in its queue. -/
abbrev State.asked (s : State) (row idx : Nat) : Prop := s.pem.queue.any (fun l => decide (l.row = row ∧ l.index = idx)) = true

/-! ### The host's side -/

/-- A read of BAR0 at this address is a plain one: no claim, no read-clear field, no holding register, no log window. -/
abbrev State.plainRead (s : State) (a : Nat) : Prop :=
  s.claimRead a = none ∧ s.rcRead a 0 = none ∧ s.holdRead a = none ∧ a ≠ Reg.elgWin 7

/-- A write of BAR0 at this address has no effect beyond its access codes. -/
abbrev State.plainlyWritten (s : State) (a : Nat) (v : Word) : Prop :=
  s.writeUnit a v = none ∧ s.writeMbx a v = none ∧ s.writeEvr a v = none

/-- A source that a word of the event router's maps names by a bit of a value. -/
abbrev srcNamed (w : Nat) (v : Word) (n : Nat) : Prop := n / 32 = w ∧ bit v (n % 32) = true ∧ srcReserved n = false

/-- The reply of a mailbox message stands: ACKED with a code. -/
abbrev State.acked (t : State) (c code : Nat) : Prop :=
  (t.mbChan c).st = .acked ∧ (t.mbChan c).ackValid = true ∧ (t.mbChan c).ackCode = code

/-- The service port may post: channel 7 is IDLE, or holds the reply of the command before. -/
abbrev State.svcFree (s : State) : Prop := s.svcOpen = true ∧ ((s.mbChan 7).st = .idle ∨ (s.mbChan 7).st = .acked)

/-! ### Completions of work items -/

/-- The item taken at the present boundary has a completion entry on chip with a status, where it came from a ring or a mailbox. -/
abbrev State.answered (s : State) (it : Item) (status : Nat) (t : State) : Prop :=
  it.origin < 0x100 → t.wks.waiting.any (fun e => decide (e.seq = s.wks.nextSeq ∧ e.status = status)) = true

/-- The address and the value of pair `k` of a SIGNAL_WRITE. -/
def itemPair (it : Item) (k : Nat) : Nat × Word := (it.u (24 + 8 * k) 4, w32 (it.u (28 + 8 * k) 4))

/-! ### Frames -/

/-- The parts of the block that a frame speaks of: the fields of its state less its queue. -/
inductive Part where
  | freeCtr | wire | clk | ft | regs | dram | gens | sigs | sigPrev | remote | remotePrev | fuses | glb | pem | lcu | cfl
  | tbu | cyc | axes | axm | eiu | dio | lau | vms | cea | slc | fbr | twu | sfi | mbx | evr | pcie | wks | cap | elg | hlm
deriving DecidableEq, Repr

/-- A part stands as before; of the register file, every register outside `rs`. -/
def Part.same (rs : List Nat) (s t : State) : Part → Prop
  | .freeCtr => t.freeCtr = s.freeCtr
  | .wire => t.wire = s.wire
  | .clk => t.clk = s.clk
  | .ft => t.ft = s.ft
  | .regs => ∀ a, a ∉ rs → t.rd a = s.rd a
  | .dram => t.dram = s.dram
  | .gens => t.gens = s.gens
  | .sigs => t.sigs = s.sigs
  | .sigPrev => t.sigPrev = s.sigPrev
  | .remote => t.remote = s.remote
  | .remotePrev => t.remotePrev = s.remotePrev
  | .fuses => t.fuses = s.fuses
  | .glb => t.glb = s.glb
  | .pem => t.pem = s.pem
  | .lcu => t.lcu = s.lcu
  | .cfl => t.cfl = s.cfl
  | .tbu => t.tbu = s.tbu
  | .cyc => t.cyc = s.cyc
  | .axes => t.axes = s.axes
  | .axm => t.axm = s.axm
  | .eiu => t.eiu = s.eiu
  | .dio => t.dio = s.dio
  | .lau => t.lau = s.lau
  | .vms => t.vms = s.vms
  | .cea => t.cea = s.cea
  | .slc => t.slc = s.slc
  | .fbr => t.fbr = s.fbr
  | .twu => t.twu = s.twu
  | .sfi => t.sfi = s.sfi
  | .mbx => t.mbx = s.mbx
  | .evr => t.evr = s.evr
  | .pcie => t.pcie = s.pcie
  | .wks => t.wks = s.wks
  | .cap => t.cap = s.cap
  | .elg => t.elg = s.elg
  | .hlm => t.hlm = s.hlm

/-- What a command may change: nothing but the parts `ps` and the registers `rs`; where the register file is one of `ps`, any
register. The queue of commands stays. -/
def Frame (c : Instr) (ps : List Part) (rs : List Nat) : Prop :=
  ∀ s t, exec c s = .next t → t.pending = s.pending ∧ ∀ p, p ∉ ps → p.same rs s t

/-- Registers that the raising of an event may change: drops of the event recorder and the state words of capture channels. -/
def recorderRegs : List Nat :=
  [Reg.elgQdropCnt, Reg.elgEarlyDropCnt, Reg.capArmedMap, Reg.capHeldMap, Reg.capMissedCnt] ++ (List.range 32).map Reg.capChStat

/-- Registers of the error injection slots (R514, R515). -/
def injRegs : List Nat := Reg.hlmStatus :: (List.range 8).flatMap (fun i => [Reg.hlmInjCtrl i, Reg.hlmInjHits i])

/-- The frame of a command that may raise events: the event router, the recorder and the capture channels may change too. -/
def Logs (c : Instr) (ps : List Part) (rs : List Nat) : Prop := Frame c (ps ++ [.evr, .cap, .elg]) (rs ++ recorderRegs)

/-- Registers of line angle `n`. -/
def laRegs (n : Nat) : List Nat := [Reg.lauLaStatus n, Reg.lauLaAngleLo n, Reg.lauLaAngleHi n, Reg.lauLaVelLo n, Reg.lauLaVelHi n,
  Reg.lauLaCorrLo n, Reg.lauLaCorrHi n]

/-- Registers of node `n`, with SLC_STATUS. -/
def nodeRegs (n : Nat) : List Nat := [Reg.slcNodeStat n, Reg.slcNodeArr n, Reg.slcNodeTcorr n, Reg.slcStatus]

/-- Words of mailbox channel `c`, with MBX_DB_OUT. -/
def mbRegs (c : Nat) : List Nat := Reg.mbxDbOut :: (List.range 64).map (Reg.mbxChBuf c)

/-- LCU_TOKEN, LCU_NONCE and LCU_TOKEN_RESULT. -/
def tokenRegs : List Nat := Reg.lcuTokenResult :: (List.range 52).map Reg.lcuToken ++ (List.range 8).map Reg.lcuNonce

/-- Counters of work items. -/
def itemRegs : List Nat := [Reg.wksItemCnt, Reg.axmHandleErrCnt]

/-- Registers of ring `r`. -/
def ringRegs (r : Nat) : List Nat := [Reg.wksRingProd r, Reg.wksRingCons r, Reg.wksRingStat r, Reg.wksRingErrCnt]

/-! ### The fuses -/

/-- Fuses blow and are never restored: the device's identity and the Quetric keys stay, the lowest security version and the toggles
never fall, a revoked key stays revoked, and DEAD stays DEAD (R402, R403, R406, R407). -/
def Fuses.advanced (f g : Fuses) : Prop :=
  g.variant = f.variant ∧ g.stepping = f.stepping ∧ g.serial = f.serial ∧ g.dram4 = f.dram4 ∧ g.ok = f.ok ∧
    g.quet = f.quet ∧ g.quetRev = f.quetRev ∧ f.svnMin ≤ g.svnMin ∧ f.toggles ≤ g.toggles ∧
    (∀ k, k < 4 → f.oemRev.getD k false = true → g.oemRev.getD k false = true) ∧
    (f.state = 6 → g.state = 6) ∧ (f.state = 5 → g.state = 5 ∨ g.state = 6)

end Sys2Proof.Machine
end

