-- ==== Sys2Proof/Certificates/Slice0/Obligations.lean ====
section
/-! DEFINITION. Certificates/Slice0/Obligations.lean: the statements about the block. -/

open Sys2Proof Sys2Proof.Machine


/-! ### Control engines (R131 to R156) -/

/-- R143: MPY, MAC, MACR, MPYU, MACS, MPYM and MACM leave their product, or the sum with the accumulator, in accumulator A. -/
def Obligations.EngineProductsLandInAccumulator : Prop :=
  EngRow .mpy 0x01 (fun _ _ w => noMove w) (fun _ x w y => y.accIs (accM w) (x.prod w)) ∧
  EngRow .mac 0x02 (fun _ _ w => noMove w) (fun _ x w y => y.accIs (accM w) (x.commit.accFast (accM w) + x.prod w)) ∧
  EngRow .macr 0x03 (fun _ _ w => noMove w) (fun _ x w y =>
    y.accIs (accM w) (roundAcc (x.commit.sr 7 6) (x.commit.accFast (accM w) + x.prod w))) ∧
  EngRow .mpyu 0x04 (fun _ _ w => noMove w) (fun _ x w y =>
    y.accIs (accM w) (negated w ((x.commit.reg (wf w 23 21) : Int) * x.seen (wf w 20 18)))) ∧
  EngRow .macs 0x05 (fun _ _ w => noMove w) (fun _ x w y =>
    y.accIs (accM w) (x.commit.accFast (accM w) / 2 ^ 32 + x.prod w)) ∧
  EngRow .mpym 0x06 (fun _ x w => x.memOk w) (fun s x w y => y.accIs (accM w) (x.memProd s w)) ∧
  EngRow .macm 0x07 (fun _ x w => x.memOk w) (fun s x w y =>
    y.accIs (accM w) (x.commit.accFast (accM w) + x.memProd s w))

/-- R143, R135: the R-format operations whose result is a D register, saturated to 32 bits, with N and Z of it. -/
def Obligations.EngineResultsLandInDataRegisters : Prop :=
  let D := fun (c : Nat → Instr) (op : Nat) (f : Eng → Nat → Int) =>
    EngRow c op (fun _ _ w => noMove w) (fun _ x w y => y.ddIs w (satS 32 (f x w)) ∧ y.nzIs (satS 32 (f x w)))
  let u := fun (x : Eng) (c : Nat) => x.commit.reg c
  D .addOp 0x08 (fun x w => x.s1 w + x.s2 w) ∧
  D .subOp 0x09 (fun x w => x.s1 w - x.s2 w) ∧
  D .absOp 0x0C (fun x w => if x.s1 w < 0 then -x.s1 w else x.s1 w) ∧
  D .negOp 0x0D (fun x w => -x.s1 w) ∧
  D .minOp 0x0E (fun x w => min (x.s1 w) (x.s2 w)) ∧
  D .maxOp 0x0F (fun x w => max (x.s1 w) (x.s2 w)) ∧
  D .andOp 0x10 (fun x w => sgn 32 (u x (wf w 22 20) &&& u x (wf w 19 17))) ∧
  D .orOp 0x11 (fun x w => sgn 32 (u x (wf w 22 20) ||| u x (wf w 19 17))) ∧
  D .xor 0x12 (fun x w => sgn 32 (u x (wf w 22 20) ^^^ u x (wf w 19 17))) ∧
  D .asl 0x13 (fun x w => x.s1 w * 2 ^ (u x (wf w 19 17) % 32)) ∧
  D .asr 0x14 (fun x w => x.s1 w / 2 ^ (u x (wf w 19 17) % 32)) ∧
  D .lsr 0x15 (fun x w => sgn 32 (u x (wf w 22 20) / 2 ^ (u x (wf w 19 17) % 32)))

/-- R143, R135: the R-format operations on the accumulators, and CMP, which sets N and Z alone. -/
def Obligations.EngineAccumulatorOperations : Prop :=
  let A := fun (c : Nat → Instr) (op : Nat) (f : Eng → Nat → Int) =>
    EngRow c op (fun _ _ w => noMove w) (fun _ x w y => y.accIs (accR w) (f x w))
  let acc := fun (x : Eng) (w : Nat) => x.commit.accFast (accR w)
  let slow := fun (x : Eng) (w : Nat) => x.commit.accSlow (accR w)
  A .adda 0x0A (fun x w => acc x w + x.s1 w * 2 ^ 31) ∧
  A .suba 0x0B (fun x w => acc x w - x.s1 w * 2 ^ 31) ∧
  A .clr 0x17 (fun _ _ => 0) ∧
  A .asha 0x18 (fun x w =>
    let sh := sgn 7 (x.commit.reg (wf w 22 20))
    satS 80 (if 0 ≤ sh then acc x w * 2 ^ sh.toNat else acc x w / 2 ^ (-sh).toNat)) ∧
  A .rnd 0x1C (fun x w => roundAcc (x.commit.sr 7 6) (acc x w)) ∧
  A .mva 0x1D (fun x w => x.commit.accSlow (1 - accR w)) ∧
  A .lda 0x1E (fun x w => x.s1 w * 2 ^ 31) ∧
  EngRow .cmp 0x16 (fun _ _ w => noMove w) (fun _ x w y => y.nzIs (x.s1 w - x.s2 w)) ∧
  EngRow .sta 0x19 (fun _ _ w => noMove w) (fun _ x w y =>
    y.ddIs w (satS 32 (roundAcc (x.commit.sr 7 6) (slow x w) / 2 ^ 31))) ∧
  EngRow .stah 0x1A (fun _ _ w => noMove w) (fun _ x w y =>
    y.ddIs w (bitsOf 64 (satS 64 (slow x w * 2)) / 2 ^ 32 : Nat)) ∧
  EngRow .stal 0x1B (fun _ _ w => noMove w) (fun _ x w y =>
    y.ddIs w (bitsOf 64 (satS 64 (slow x w * 2)) % 2 ^ 32 : Nat))

/-- R134, R142, R143: moves between registers and memories: MOV's parallel load and store with post-modification, LDL, LDH, MOVR,
LDX, STX and LDY. -/
def Obligations.EngineMovesAndLoads : Prop :=
  EngRow .mov 0x00 (fun _ x w => wf w 15 14 = 1 ∧ wf w 8 7 = 0 ∧ accessOk x.slot (x.commit.reg (0x10 + wf w 13 12)) = true)
    (fun _ x w y =>
      let xa := x.commit.reg (0x10 + wf w 13 12)
      y.landed (wf w 11 9) % 2 ^ 32 = x.commit.xRead xa % 2 ^ 32 ∧
        y.reg (0x10 + wf w 13 12) = modAdvance xa (x.commit.reg (0x18 + wf w 13 12))) ∧
  EngRow .mov 0x00 (fun _ x w => wf w 15 14 = 0 ∧ wf w 8 7 = 1 ∧ accessOk x.slot (x.commit.reg (0x14 + wf w 6 5)) = true)
    (fun s x w y =>
      let ya := x.commit.reg (0x14 + wf w 6 5)
      y.landed (wf w 4 2) % 2 ^ 32 = Eng.yRead s.cea.y x.commit ya % 2 ^ 32 ∧
        y.reg (0x14 + wf w 6 5) = modAdvance ya (x.commit.reg (0x1C + wf w 6 5))) ∧
  EngRow .mov 0x00 (fun _ x w => wf w 15 14 = 2 ∧ wf w 8 7 = 0 ∧ x.commit.reg (0x10 + wf w 13 12) < 0x800)
    (fun _ x w y =>
      let xa := x.commit.reg (0x10 + wf w 13 12)
      Tab.get 0 y.drain.x xa = w32 (x.commit.reg (wf w 11 9)) ∧
        y.reg (0x10 + wf w 13 12) = modAdvance xa (x.commit.reg (0x18 + wf w 13 12))) ∧
  EngRow .ldl 0x21 (fun _ x w => x.rep = 0 ∧ (wf w 25 20 < 8 ∨ (0x18 ≤ wf w 25 20 ∧ wf w 25 20 ≤ 0x1F)))
    (fun _ _ w y => y.landed (wf w 25 20) % 2 ^ 16 = wf w 15 0) ∧
  EngRow .ldh 0x20 (fun _ x w => x.rep = 0 ∧ (wf w 25 20 < 8 ∨ (0x18 ≤ wf w 25 20 ∧ wf w 25 20 ≤ 0x1F)))
    (fun _ _ w y => y.landed (wf w 25 20) / 2 ^ 16 % 2 ^ 16 = wf w 15 0) ∧
  EngRow .movr 0x28 (fun _ x w => x.rep = 0 ∧ regWidth (wf w 19 14) ≠ none ∧ wf w 25 20 < 8)
    (fun _ x w y => y.landed (wf w 25 20) % 2 ^ 32 = x.commit.readCode (wf w 19 14) % 2 ^ 32) ∧
  EngRow .ldx 0x29 (fun _ x w => x.rep = 0 ∧ wf w 25 20 < 8 ∧
      accessOk x.slot (((x.commit.reg (0x10 + wf w 19 18) : Int) + sgn 14 w) % 8192).toNat = true)
    (fun _ x w y => y.landed (wf w 25 20) % 2 ^ 32 =
      x.commit.xRead (((x.commit.reg (0x10 + wf w 19 18) : Int) + sgn 14 w) % 8192).toNat % 2 ^ 32) ∧
  EngRow .ldy 0x2B (fun _ x w => x.rep = 0 ∧ wf w 25 20 < 8 ∧
      accessOk x.slot (((x.commit.reg (0x14 + wf w 19 18) : Int) + sgn 14 w) % 8192).toNat = true)
    (fun s x w y => y.landed (wf w 25 20) % 2 ^ 32 =
      Eng.yRead s.cea.y x.commit (((x.commit.reg (0x14 + wf w 19 18) : Int) + sgn 14 w) % 8192).toNat % 2 ^ 32) ∧
  EngRow .stx 0x2A (fun _ x w => x.rep = 0 ∧ regWidth (wf w 25 20) ≠ none ∧
      (((x.commit.reg (0x10 + wf w 19 18) : Int) + sgn 14 w) % 8192).toNat < 0x800)
    (fun _ x w y => Tab.get 0 y.drain.x (((x.commit.reg (0x10 + wf w 19 18) : Int) + sgn 14 w) % 8192).toNat =
      w32 (x.commit.readCode (wf w 25 20)))

/-- R139 to R141, R144: branches wait for two delay slots, REP and DO set up their counts, loops return to their start. -/
def Obligations.EngineControlFlow : Prop :=
  EngRow .jmp 0x30 (fun _ x _ => x.plain) (fun _ x w y => y.branch = some (wf w 13 0, 2) ∧ y.pc = x.pc + 1) ∧
  EngRow .jcc 0x31 (fun _ x w => x.plain ∧ condHolds x.commit (wf w 25 22) = some true)
    (fun _ x w y => y.branch = some (wf w 13 0, 2) ∧ y.pc = x.pc + 1) ∧
  EngRow .jcc 0x31 (fun _ x w => x.plain ∧ condHolds x.commit (wf w 25 22) = some false)
    (fun _ x _ y => y.branch = none ∧ y.slots = 2 ∧ y.pc = x.pc + 1) ∧
  EngRow .jsr 0x32 (fun _ x _ => x.plain)
    (fun _ x w y => y.branch = some (wf w 13 0, 2) ∧ y.landed 0x2B % 2 ^ 14 = (x.pc + 3) % 2 ^ 14) ∧
  EngRow .rts 0x33 (fun _ x _ => x.plain) (fun _ x _ y => y.branch = some (x.commit.reg 0x2B, 2)) ∧
  EngRow .doLoop 0x34 (fun _ x w => x.plain ∧ x.commit.depth < 2 ∧ x.pc < wf w 13 0)
    (fun _ x w y => y.landed 0x20 % 2 ^ 11 = immCount (wf w 25 16) ∧ y.landed 0x21 % 2 ^ 14 = (x.pc + 1) % 2 ^ 14 ∧
      y.landed 0x22 % 2 ^ 14 = wf w 13 0 ∧ y.depth = x.commit.depth + 1) ∧
  EngRow .dod 0x35 (fun _ x w => x.plain ∧ x.commit.depth < 2 ∧ x.pc < wf w 13 0 ∧ dCount (x.commit.reg (wf w 25 23)) ≠ 0)
    (fun _ x w y => y.landed 0x20 % 2 ^ 11 = dCount (x.commit.reg (wf w 25 23)) ∧ y.depth = x.commit.depth + 1) ∧
  EngRow .dod 0x35 (fun _ x w => x.plain ∧ x.commit.depth < 2 ∧ x.pc < wf w 13 0 ∧ dCount (x.commit.reg (wf w 25 23)) = 0)
    (fun _ _ w y => y.pc = wf w 13 0 + 1) ∧
  EngRow .repOp 0x36 (fun _ x _ => x.plain) (fun _ x w y => y.rep = immCount (wf w 25 16) ∧ y.pc = x.pc + 1) ∧
  EngRow .repd 0x37 (fun _ x w => x.plain ∧ dCount (x.commit.reg (wf w 25 23)) ≠ 0)
    (fun _ x w y => y.rep = dCount (x.commit.reg (wf w 25 23)) ∧ y.pc = x.pc + 1) ∧
  EngRow .repd 0x37 (fun _ x w => x.plain ∧ dCount (x.commit.reg (wf w 25 23)) = 0) (fun _ x _ y => y.pc = x.pc + 2) ∧
  EngRow .enddo 0x38 (fun _ x _ => x.plain) (fun _ x _ y => y.landed 0x20 % 2 ^ 11 = 1 ∧ y.endDue = true ∧ y.pc = x.pc + 1) ∧
  EngRow .mov 0x00 (fun _ x w => noMove w ∧ x.rep = 0 ∧ x.commit.loopEnd = false ∧ x.urgPend = false ∧ x.ovrPend = false ∧
      ∃ t, x.branch = some (t, 1))
    (fun _ x _ y => y.branch = none ∧ x.branch = some (y.pc, 1)) ∧
  EngRow .mov 0x00 (fun _ x w => noMove w ∧ x.rep = 0 ∧ x.branch = none ∧ x.commit.loopEnd = true ∧ x.urgPend = false ∧
      x.ovrPend = false ∧ x.commit.endDue = false ∧ 1 < x.commit.reg 0x20)
    (fun _ x _ y => y.pc = x.commit.reg 0x21 ∧ y.reg 0x20 = x.commit.reg 0x20 - 1) ∧
  EngRow .mov 0x00 (fun _ x w => noMove w ∧ x.rep = 0 ∧ x.branch = none ∧ x.slots = 0 ∧ x.commit.loopEnd = true ∧ x.urgPend = false ∧
      x.ovrPend = false ∧ (x.commit.endDue = true ∨ x.commit.reg 0x20 ≤ 1))
    (fun _ x _ y => y.pc = x.pc + 1 ∧ y.depth = x.commit.depth - 1 ∧ y.reg 0x20 = x.commit.reg 0x23) ∧
  EngRow .mov 0x00 (fun _ x w => noMove w ∧ 1 < x.rep ∧ x.urgPend = false ∧ x.ovrPend = false)
    (fun _ x _ y => y.rep = x.rep - 1 ∧ y.pc = x.pc)

/-- R146, R147, R153: EXIT starts the writeback; ABORT, and RTI in the overrun handler, end the job with a late command; RTI
returns from the other handler. -/
def Obligations.EngineJobEndings : Prop :=
  EngRow .exitJob 0x3C (fun _ x _ => x.plain) (fun _ x _ y => y.exited = true ∧ y.job = x.job) ∧
  (∀ (s : State) e w, EngineAt s e 0x3D w → (s.eng e).plain → (s.eng e).commit.sr 29 29 = 0 →
    Completes (.abortJob e) s (fun t => (t.eng e).job = none ∧
      ∀ j, (s.eng e).job = some j → (t.axis j.axis).cmd.late = true ∧ (t.axis j.axis).late = (s.axis j.axis).late + 1)) ∧
  (∀ (s : State) e w, EngineAt s e 0x3E w → (s.eng e).plain → (s.eng e).commit.sr 29 29 = 1 →
    Completes (.rti e) s (fun t => (t.eng e).job = none ∧
      ∀ j, (s.eng e).job = some j → (t.axis j.axis).cmd.late = true)) ∧
  EngRow .rti 0x3E (fun _ x _ => x.plain ∧ x.commit.sr 29 29 = 0 ∧ x.commit.reg 0x2A / 64 % 4 ≠ 3 ∧ x.commit.reg 0x2A / 256 % 4 ≠ 3)
    (fun _ x _ y => y.pc = x.commit.reg 0x29 ∧ y.reg 0x28 &&& 0x600003DB = x.commit.reg 0x2A &&& 0x600003DB ∧
      y.sr 31 31 = x.commit.sr 31 31)

/-! ### The control cycle (R33 to R51) -/

/-- R40, R42, R44, R147: a job that is skipped, and one stopped at its deadline, leave a late command that counts; the interrupts
wait or are taken; a halted engine returns from its reset. -/
def Obligations.LateJobsAreEnded : Prop :=
  (∀ (s : State) a half t0, s.cea.ready.any (fun j => decide (j.axis = a ∧ j.half = half)) = true → s.latestStart a half = some t0 →
    t0 < s.now →
    Completes (.jobSkipped a half) s (fun t =>
      t.cea.ready.all (fun j => !decide (j.axis = a ∧ j.half = half)) = true ∧ (t.axis a).cmd.late = true ∧
      (t.axis a).late = (s.axis a).late + 1 ∧ (t.axis a).lastEvent = 0x0602)) ∧
  (∀ (s : State) e j t0, (s.eng e).job = some j → s.deadline j.axis j.half = some t0 → (s.eng e).exited = false →
    (s.eng e).ovrDone = false → (s.eng e).ovrPend = false → t0 ≤ s.now + 64 * clkU → (s.eng e).branch = none → (s.eng e).slots = 0 → (s.eng e).rep = 0 →
    Completes (.cycleOverrun e) s (fun t =>
      (t.eng e).pc = 0x0008 ∧ (t.eng e).reg 0x29 = (s.eng e).pc ∧ (t.eng e).reg 0x2A = (s.eng e).srDone ∧
      (t.eng e).ovrDone = true ∧ (t.eng e).sr 30 29 = 3)) ∧
  (∀ (s : State) e j, (s.eng e).job = some j → (s.eng e).urgPend = true → (s.eng e).ovrPend = false → (s.eng e).exited = false →
    (s.eng e).sr 29 29 = 0 → (s.eng e).branch = none → (s.eng e).slots = 0 → (s.eng e).rep = 0 →
    Completes (.urgentStop e) s (fun t =>
      (t.eng e).pc = 0 ∧ (t.eng e).reg 0x29 = (s.eng e).pc ∧ (t.eng e).reg 0x2A = (s.eng e).srDone ∧
      (t.eng e).urgDone = true ∧ (t.eng e).sr 31 30 = 3)) ∧
  (∀ (s : State) e j t0, (s.eng e).job = some j → s.deadline j.axis j.half = some t0 → t0 ≤ s.now →
    ((s.eng e).exited = false ∨ (s.eng e).ovrDone = true) →
    Completes (.engineHalt e) s (fun t =>
      (t.eng e).job = none ∧ (t.eng e).resetting = true ∧ (t.axis j.axis).cmd.late = true ∧
      (t.axis j.axis).late = (s.axis j.axis).late + 1)) ∧
  (∀ (s : State) e, (s.eng e).resetting = true →
    Completes (.engineReset e) s (fun t => (t.eng e).resetting = false ∧ (t.eng e).pc = 0))

/-- R41, R150, R153: when writeback ends, the engine is free, the frame slot released, the finish time recorded, and a SMART or
STEPPER axis's command words of a custom kernel stand for the downlink. -/
def Obligations.WritebackReleasesTheJob : Prop :=
  (∀ (s : State) e j, (s.eng e).job = some j → (s.eng e).resetting = false → (s.eng e).ovrDone = false →
    ((s.eng e).exited = true ∨ (s.isLibrary j.kset = true ∧ (s.eng e).ovrPend = false)) →
    Completes (.jobWritebackEnd e) s (fun t =>
      (t.eng e).job = none ∧ (t.eng e).jobsNow = (s.eng e).jobsNow + 1 ∧ t.cea.frames = Tab.del s.cea.frames j.frame ∧
      t.cyc.done = some (max s.co (s.cyc.done.getD 0)))) ∧
  (∀ (s : State) e j, (s.eng e).job = some j → (s.eng e).resetting = false → (s.eng e).ovrDone = false → (s.eng e).exited = true →
    s.isLibrary j.kset = false →
    (s.desc j.axis).kind ≠ .thin →
    Completes (.jobWritebackEnd e) s (fun t =>
      (t.axis j.axis).cmd.late = false ∧ (t.axis j.axis).late = 0 ∧
      (t.axis j.axis).cmd.payload = (List.range 4).map (fun k => Tab.get (0 : Word) (s.eng e).fx (0x20 + k))))

/-- R32, R33, R37, R38, R49, R149, R152: a boundary begins cycle n + 1 when fabric time has reached it, and carries out, in this order,
what the ended cycle leaves, an epoch, the spares brought in, the increment of the cycle with what happens at S, and the work items
due; a new cycle opens with nothing run, and signals are those of the end of the cycle before; a frame that is next in the staging
order is staged into the lowest free slot; the first staged ready job goes to the lowest free engine, whose registers then stand as at job entry. -/
def Obligations.CyclesBeginAndJobsAreDispatched : Prop :=
  (∀ (s : State), s.cyc.running = true → s.cyc.c0 + s.per ≤ s.now →
    Completes .cycleBoundary s (fun t =>
      let n := s.cyc.n + 1
      t = ((((s.cycleEnd.epochBoundary n).bringIn 1 n).bringIn 2 n).stepThree n (s.cyc.c0 + s.per)).stepFour)) ∧
  (∀ (s : State) n c0, (s.cycleOpen n c0).cyc.n = n ∧ (s.cycleOpen n c0).cyc.c0 = c0 ∧ (s.cycleOpen n c0).cyc.running = true ∧
    (s.cycleOpen n c0).cyc.busy = 0 ∧ (s.cycleOpen n c0).cyc.slackLow = false ∧ s.cycleEnd.sigPrev = s.cycleEnd.sigs ∧
    s.cycleEnd.remotePrev = s.cycleEnd.remote) ∧
  (∀ (s : State) a half f, s.stageable a half = true → s.cea.ready.find? (fun j => decide (j.axis = a ∧ j.half = half)) = none →
    s.stagedBefore a half = false → s.freeSlot = some f →
    Completes (.frameStage a half) s (fun t => t = s.stageIn f a half)) ∧
  (∀ (s : State) j f e, s.cyc.running = true → s.nextJob = some (j, f) → s.freeEngine = some e →
    (∀ t, s.latestStart j.axis j.half = some t → s.now ≤ t) →
    Completes .jobDispatch s (fun t =>
      (∃ k, (t.eng e).job = some k ∧ k.axis = j.axis ∧ k.frame = f ∧ k.start = s.co ∧ k.half = j.half) ∧
      (t.eng e).pc = s.rdFld (Reg.ceaKsetInfo (s.desc j.axis).kset) 31 18 ∧
      (t.eng e).reg 0x10 = frameBase f ∧ (t.eng e).reg 0x14 = frameBase f ∧ (t.eng e).reg 0x18 = 1 ∧ (t.eng e).reg 0 = 0 ∧
      (t.eng e).cost = 8 ∧ t.cea.ready.all (fun q => !decide (q.axis = j.axis ∧ q.half = j.half)) = true))


/-! ### Axes (R52 to R62, R122, R123) -/

/-- R52, R53, R59, R62, R122, R123: creation, destruction, enabling and disabling of an axis, in the states that accept them;
COEF_WRITE writes words of the inactive bank, COEF_SWAP names the cycle of the swap. -/
def Obligations.AxisItemsTakeEffect : Prop :=
  (∀ (s : State) it d, let a := hIdx it.handle
    ItemTaken s Opc.axisCreate it → s.desc? a = some d → (s.axis a).st = .unused → s.epochTouches a = false →
    (s.axis a).moved = false →
    Completes (.axisCreate it) s (fun t =>
      (t.axis a).st = .created ∧ (t.axis a).bank0 = d.bank0 ∧ (t.axis a).loop = {} ∧ (t.axis a).pgn = {})) ∧
  (∀ (s : State) it, let a := hIdx it.handle
    ItemFresh s Opc.axisDestroy it → (s.axis a).st = .created → s.destroyBlocked a = false →
    Completes (.axisDestroy it) s (fun t => (t.axis a).st = .created ∧ (t.axis a).destroy = true)) ∧
  (∀ (s : State) it, let a := hIdx it.handle
    ItemFresh s Opc.axisEnable it → (s.axis a).st = .created → (s.axis a).enSeq = none → s.permit a = true →
    Completes (.axisEnable it) s (fun t =>
      (t.axis a).st = .created ∧ (t.axis a).enSeq = some s.wks.nextSeq ∧ (t.axis a).enCycle = s.cyc.n ∧ a ∈ t.axm.queue)) ∧
  (∀ (s : State) it, let a := hIdx it.handle
    ItemFresh s Opc.axisDisable it → (s.axis a).st = .ready → (s.axis a).moved = false → (s.axis a).planRest = true →
    Completes (.axisDisable it) s (fun t => (t.axis a).st = .created ∧ (t.axis a).moved = true)) ∧
  (∀ (s : State) a, (s.axis a).st = .admitWait → (s.axis a).enCycle + s.admitCyc (s.rdFld Reg.axmAdmitTimes 31 16) ≤ s.cyc.n + 1 →
    Completes (.admitTimeout a) s (fun t => (t.axis a).admitDue = true ∧ (t.axis a).st = .admitWait)) ∧
  (∀ (s : State) a, (s.axis a).admitDue = true → (s.axis a).st = .admitWait → (s.axis a).moved = false →
    ((s.admitExpire a).axis a).st = .created ∧ ((s.admitExpire a).axis a).enSeq = none ∧ a ∉ (s.admitExpire a).axm.queue) ∧
  (∀ (s : State) a, (s.axis a).st = .enabling → (s.axis a).conds.contains 0x0706 = false →
    (s.axis a).enStart + s.admitCyc (s.rdFld Reg.axmAdmitTimes 15 0) ≤ s.cyc.n + 1 →
    Completes (.enableTimeout a) s (fun t =>
      (t.axis a).conds = (s.axis a).conds ++ [0x0706] ∧ (t.axis a).lastEvent = 0x0706 ∧ (t.axis a).st = .enabling)) ∧
  (∀ (s : State) it, let a := hIdx it.handle
    ItemFresh s Opc.coefWrite it → (s.axis a).st ≠ .unused → (s.axis a).swapAt = none → it.u 20 2 % 4 = 0 →
    it.u 20 2 + 4 * it.u 22 1 ≤ 0x600 →
    Completes (.coefWrite it) s (fun t =>
      (t.axis a).bank = (s.axis a).bank ∧
      ∀ k, k < it.u 22 1 → Tab.get 0 (t.axis a).other (it.u 20 2 / 4 + k) = w32 (it.u (24 + 4 * k) 4))) ∧
  (∀ (s : State) it, let a := hIdx it.handle
    ItemFresh s Opc.coefSwap it → (s.axis a).st ≠ .unused → (s.axis a).swapAt = none →
    (it.u 24 8 = 0 ∨ s.cyc.n ≤ it.u 24 8) → it.u 24 8 ≤ s.cyc.n + 2 ^ 31 → bankOk (s.axis a).other = true →
    Completes (.coefSwap it) s (fun t =>
      (t.axis a).swapAt = some (if it.u 24 8 = 0 then s.cyc.n else it.u 24 8) ∧ (t.axis a).active = (s.axis a).active))

/-- R59, R190, R191, R199, R205, R206: a move that passes the checks of R190 is planned and puts a READY axis into MOTION, STOP puts a
moving one into STOPPING, HOME a READY one into HOMING; virtual masters are moved and stopped alike, without USER and on ramp set 0. -/
def Obligations.MotionItemsTakeEffect : Prop :=
  let moves := fun (c : Item → Instr) (op : Nat) =>
    ∀ (s : State) it v o, let a := hIdx it.handle; let d := (s.desc a).pgn; let g := (s.axis a).pgn; let p := moveTarget g it v
      ItemFresh s op it → hType it.handle = 1 → s.moveReady a →
      (op = Opc.moveAbs → (s.axis a).posValid = true ∧ (d.reqHomed = false ∨ (s.axis a).homed = true)) →
      itemVal d it 20 = some v → itemVal d it 28 = some o → 0 ≤ o → o ≤ d.vlim → s.latchRefuses a (p - g.sp.p) = none →
      (s.softOn a = true → softSide d p = none) → (d.blend = true → g.velRunning = false → g.segs.length < 8) →
      Completes (c it) s (fun t => (t.axis a).st = .motion ∧ (t.axis a).moved = true ∧
        (t.axis a).pgn = g.move d d.blend p o.toNat it.tag (it.u 36 1 % 4))
  let masters := fun (c : Item → Instr) (op : Nat) =>
    ∀ (s : State) it, let n := hIdx it.handle; let d := (s.la n).decl.pgn; let g := s.pgn (.vm n)
      ItemFresh s op it → hType it.handle = 2 → (s.la n).decl.src = .virtual → it.u 36 1 / 4 % 2 = 0 → 0 ≤ it.s64 28 →
      (g.velRunning = false → g.segs.length < 8) →
      Completes (c it) s (fun t =>
        t.pgn (.vm n) = g.move d true (moveTarget g it (it.s64 20)) (it.s64 28).toNat it.tag 0 ∧ t.axes = s.axes)
  moves .moveAbs Opc.moveAbs ∧ moves .moveRel Opc.moveRel ∧ masters .moveAbs Opc.moveAbs ∧ masters .moveRel Opc.moveRel ∧
  (∀ (s : State) it v, let a := hIdx it.handle; let d := (s.desc a).pgn; let g := (s.axis a).pgn
    ItemFresh s Opc.moveVel it → hType it.handle = 1 → s.moveReady a → itemVal d it 20 = some v → v.natAbs ≤ d.vlim →
    s.latchRefuses a v = none →
    Completes (.moveVel it) s (fun t => (t.axis a).st = .motion ∧ (t.axis a).moved = true ∧
      (t.axis a).pgn = g.moveVel d (if s.softOn a then some (moveLimit d g v) else none) v it.tag (it.u 36 1 % 4))) ∧
  (∀ (s : State) it, let n := hIdx it.handle
    ItemFresh s Opc.moveVel it → hType it.handle = 2 → (s.la n).decl.src = .virtual → it.u 36 1 / 4 % 2 = 0 →
    Completes (.moveVel it) s (fun t =>
      t.pgn (.vm n) = (s.pgn (.vm n)).moveVel (s.la n).decl.pgn none (it.s64 20) it.tag 0 ∧ t.axes = s.axes)) ∧
  (∀ (s : State) it, let a := hIdx it.handle
    ItemFresh s Opc.stop it → hType it.handle = 1 → ((s.axis a).st = .motion ∨ (s.axis a).st = .homing) →
    (s.axis a).moved = false →
    Completes (.stopItem it) s (fun t => (t.axis a).st = .stopping ∧ s.wks.nextSeq ∈ (t.axis a).stopSeqs)) ∧
  (∀ (s : State) it, let n := hIdx it.handle
    ItemFresh s Opc.stop it → hType it.handle = 2 → (s.la n).decl.src = .virtual →
    Completes (.stopItem it) s (fun t => s.wks.nextSeq ∈ (t.pgn (.vm n)).vmStops ∧ t.axes = s.axes)) ∧
  (∀ (s : State) it, let a := hIdx it.handle
    let m := if it.u 20 1 = 0 then (s.desc a).pgn.homeMethod else it.u 20 1
    ItemFresh s Opc.home it → (s.axis a).st = .ready → 1 ≤ m → m ≤ 7 → (m = 3 ∨ m = 4 ∨ m = 7 → (s.desc a).chan ≠ none) →
    (s.axis a).moved = false → (m ≤ 4 → (s.finsOf 3 a).all (fun k => !(s.fin k).masked) = true) →
    Completes (.homeItem it) s (fun t =>
      (t.axis a).st = .homing ∧ (t.axis a).homed = false ∧ (t.axis a).pgn.hStep = 1 ∧ (t.axis a).pgn.hMethod = m)) ∧
  (∀ (s : State) it, let a := hIdx it.handle
    let m := if it.u 20 1 = 0 then (s.desc a).pgn.homeMethod else it.u 20 1
    ItemFresh s Opc.home it → (s.axis a).st = .ready → m = 8 →
    Completes (.homeItem it) s (fun t => (t.axis a).st = .ready ∧ (t.axis a).homed = true ∧ (t.axis a).posValid = true ∧
      (t.axis a).pgn.lastRef = (s.axis a).fbPos))

/-- R44, R61, R120: the third loss of feedback, the limit of late commands and a following error become fault conditions. -/
def Obligations.FaultConditionsArise : Prop :=
  let arises := fun (c : Nat → Instr) (code : Nat) (H : State → Nat → Prop) =>
    ∀ (s : State) a, H s a → (s.axis a).conds.contains code = false →
      Completes (c a) s (fun t => (t.axis a).conds = (s.axis a).conds ++ [code] ∧ (t.axis a).lastEvent = code)
  arises .feedbackLost 0x0604 (fun s a => 3 ≤ (s.axis a).noFb ∧ (s.axis a).st.runsJobs = true) ∧
  arises .cmdLost 0x0605 (fun s a => (s.desc a).lateLim ≤ (s.axis a).late ∧ (s.axis a).st.runsJobs = true) ∧
  arises .followingError 0x0C01 (fun s a => (s.axis a).feChecked = true ∧ (s.desc a).feN ≤ (s.axis a).loop.feCount)

/-- R51, R159, R190, R205, R210: statistics restarts wait for the boundary; an ended segment is logged, a stop at a soft limit is
told, a home found waits for the boundary, where homing ends in READY with HOMED. -/
def Obligations.RestartsAndProfileEnds : Prop :=
  (∀ (s : State), s.hostOpen = true → Completes .loadRestart s (fun t => t.rdBit Reg.cycCtrl 1 = true ∧ t.cyc = s.cyc)) ∧
  (∀ (s : State), s.hostOpen = true → Completes .slackRestart s (fun t => t.rdBit Reg.cycCtrl 0 = true ∧ t.cyc = s.cyc)) ∧
  (∀ (s : State), s.hostOpen = true → Completes .obsRestart s (fun t => t.rdBit Reg.ceaCtrl 0 = true ∧ t.cea = s.cea)) ∧
  (∀ (s : State) i tag p rest, (s.pgn (Who.ofIdx i)).ended = (tag, p) :: rest →
    Completes (.segDone i) s (fun t => (t.pgn (Who.ofIdx i)).ended = rest ∧ (t.pgn (Who.ofIdx i)).lastTag = tag)) ∧
  (∀ (s : State) a side, (s.axis a).pgn.softDue = some side →
    Completes (.softLimit a) s (fun t => (t.axis a).pgn.softDue = none ∧ (t.axis a).lastEvent = 0x0B04)) ∧
  (∀ (s : State) a, (s.axis a).st = .homing → (s.axis a).pgn.hStep = 4 → (s.axis a).planRest = true →
    Completes (.homeDone a) s (fun t => (t.axis a).homeDue = true ∧ (t.axis a).st = .homing)) ∧
  (∀ (s : State) a, ((s.axmHome a).axis a).st = .ready ∧ ((s.axmHome a).axis a).homed = true ∧ ((s.axmHome a).axis a).posValid = true ∧
    ((s.axmHome a).axis a).pgn.hStep = 0)

/-- R169 to R180: the sequencer of a THIN axis moves on when its times elapse and its measurements are complete; a stepper at rest
takes its holding current. -/
def Obligations.ThinAndStepperEventsTakeEffect : Prop :=
  (∀ (s : State) a n, (s.axis a).thin.lostAt = some n → n < s.cyc.n →
    Completes (.rotorLost a) s (fun t =>
      (t.axis a).rotorLost = true ∧ (t.axis a).thin.lostAt = none ∧ (t.axis a).pgn.lost = true)) ∧
  (∀ (s : State) a, (s.axis a).thin.cs = .lost → (s.axis a).thin.left = 0 →
    (s.axis a).thin.rec_ < fld (kw (s.desc a).ky 0x40) 15 8 →
    Completes (.recatchDue a) s (fun t =>
      (t.axis a).thin.cs = .recatch ∧ (t.axis a).thin.left = 18 * halves (s.desc a).c2 ∧ (t.axis a).thin.rec_ = (s.axis a).thin.rec_ + 1)) ∧
  (∀ (s : State) a, (s.axis a).thin.recRes = some true →
    Completes (.recatchEnd a) s (fun t => (t.axis a).thin.recRes = none ∧ (t.axis a).rotorLost = false ∧ (t.axis a).thin.rec_ = 0)) ∧
  (∀ (s : State) a, (s.axis a).thin.cs = .mag → (s.axis a).thin.left = 0 → magFails (s.axis a).thin = false →
    Completes (.magTimeElapsed a) s (fun t => (t.axis a).thin.cs = .run ∧ (t.axis a).pgn.flySeed = true)) ∧
  (∀ (s : State) a, (s.axis a).thin.cs = .align → (s.axis a).thin.left = 0 → (s.axis a).thin.curOk = true →
    Completes (.alignStepEnd a) s (fun t =>
      (t.axis a).thin = Sys2Proof.Machine.alignStepEnd (s.desc a).ky (s.thinPer a) (s.axis a).pgn.motionUp (s.axis a).thin)) ∧
  (∀ (s : State) a, startFails (s.desc a).ky (s.thinPer a) (s.axis a).thin = true →
    Completes (.startTimeout a) s (fun t =>
      (t.axis a).thin = (Sys2Proof.Machine.startFailed (s.desc a).ky (s.thinPer a) (s.axis a).thin).1)) ∧
  (∀ (s : State) a, (s.axis a).thin.cs = .wait → (s.axis a).thin.left = 0 →
    Completes (.retryWaitElapsed a) s (fun t => (t.axis a).thin.cs = .probe ∧
      (t.axis a).thin.left = if thinProbes (s.desc a).ky then 2 * halves (s.desc a).c2 else 0)) ∧
  (∀ (s : State) a, thinInduction (s.desc a).ky = false → fld (kw (s.desc a).ky 0x44) 31 16 ≤ (s.axis a).thin.keN → (s.axis a).thin.keN ≠ 0 →
    Completes (.keWindowFilled a) s (fun t =>
      (t.axis a).thin.keN = 0 ∧ (t.axis a).thin.keMean = w32 (keVerdict (s.desc a).ky (s.axis a).thin).1)) ∧
  (∀ (s : State) a, 64 ≤ (s.axis a).thin.ofsN →
    Completes (.offsetFit a) s (fun t => (t.axis a).thin.ofsN = 0 ∧ (t.axis a).thin.ofsSum = [0, 0, 0])) ∧
  (∀ (s : State) a, (s.desc a).kind = .stepper → (s.axis a).stepper.hold = false →
    msCycles (s.rd Reg.cycPeriod).toNat (kw (s.desc a).ky 0x14).toNat ≤ (s.axis a).stepper.zeroV →
    Completes (.holdCurrentTimeout a) s (fun t => (t.axis a).stepper.hold = true))


/-! ### Feedback (R69 to R93) -/

/-- R72, R73, R75 to R78: an accepted change of A or B in the sequence counts one and moves the position by one count; one out of
sequence leaves the count; an index event takes the reference; a conversion moves the position by the change of the merged angle; bad
radii clear POS_VALID; a completed fit is kept for the boundary or dropped. -/
def Obligations.EncodersCountAndInterpolate : Prop :=
  (∀ (s : State) k a b z d, s.linesSettled k → s.encMode k = 1 → s.injSlots 0x13 k = [] → s.injSlots 0x15 k = [] →
    quadStep (s.enc k).a (s.enc k).b a b = some d → d ≠ 0 →
    ((s.enc k).counted = false ∨ 800 / max (s.rdFld (Reg.eiuQcfg k) 23 16) 1 ≤ s.clk - (s.enc k).edgeClk) →
    Completes (.quadEdge k a b z) s (fun t =>
      (t.enc k).count = (s.enc k).count + d ∧ (t.enc k).pos = (s.enc k).pos + d * 2 ^ 32 ∧ (t.enc k).a = a ∧ (t.enc k).b = b ∧
      (t.enc k).posValid = (s.enc k).posValid ∧ (t.enc k).gate = (a && b && z))) ∧
  (∀ (s : State) k a b z, s.linesSettled k → encCounts (s.encMode k) = true → s.injSlots 0x13 k = [] → quadStep (s.enc k).a (s.enc k).b a b = none →
    Completes (.quadEdge k a b z) s (fun t => (t.enc k).count = (s.enc k).count ∧ (t.enc k).a = a ∧ (t.enc k).b = b)) ∧
  (∀ (s : State) k, (s.enc k).gate = true → (s.rdFld (Reg.eiuLines k) 23 0 = 0 ∨ (s.enc k).idxSeen = false) →
    Completes (.indexEvent k) s (fun t =>
      (t.enc k).gate = false ∧ (t.enc k).idxSeen = true ∧ (t.enc k).idxLast = (s.enc k).count)) ∧
  (∀ (s : State) k, (s.encMode k = 1 ∨ s.encMode k = 2) → (s.enc k).everSet = false → s.cyc.running = true → s.encSettled k = true →
    Completes (.encSettle k) s (fun t => (t.enc k).posValid = true ∧ (t.enc k).pos = 0 ∧ (t.enc k).everSet = true)) ∧
  (∀ (s : State) k sv cv, encSc (s.encMode k) = true → s.cyc.running = true → s.convAt (s.enc k).convK ≤ s.now →
    (s.enc k).convK < s.per / convU → s.injSlots 0x17 k = [] →
    Completes (.sincosConversion k sv cv) s (fun t =>
      let m := s.scNow k sv cv
      (t.enc k).count = m.1 ∧ (t.enc k).pos = (s.enc k).pos + (if (s.enc k).convs = [] then 0 else m.2.1 - (s.enc k).convPos) ∧
      (t.enc k).convPos = m.2.1 ∧ (t.enc k).convK = (s.enc k).convK + 1)) ∧
  (∀ (s : State) k, 4 ≤ (s.enc k).badRun → (s.enc k).signal = false →
    Completes (.scSignal k) s (fun t => (t.enc k).signal = true ∧ (t.enc k).posValid = false)) ∧
  (∀ (s : State) k osS osC gain phi p, (s.enc k).fitFrom = some p →
    (s.encDecl k).lines * 4 * 2 ^ 32 ≤ ((s.enc k).pos - p).natAbs →
    Completes (.fitCompleted k osS osC gain phi) s (fun t =>
      let f : ScFit := { osSin := osS, osCos := osC, gain := gain, phi := phi }
      (t.enc k).fitFrom = none ∧ (t.enc k).fit = if fitOk (s.scFit k) f then some f else (s.enc k).fit))

/-- R70, R79 to R83: serial reads start and end, a valid one gives the position and POS_VALID, a failed one leaves both; re-reads and
BiSS register transactions are asked for and end. -/
def Obligations.SerialReadsComplete : Prop :=
  (∀ (s : State) k next, let at_ := s.cyc.c0 + (if next then s.per else 0)
    s.cyc.running = true → next = decide (s.cyc.c0 + s.per ≤ s.now + s.latchDelay k + clkU / 2) →
    at_ ≤ s.now + s.latchDelay k + clkU / 2 → s.now + s.latchDelay k < at_ + clkU → s.readDue k (s.cyc.n + b2n next) = true →
    (s.enc k).reading = false → (s.enc k).readFor ≠ some at_ →
    (encBiss (s.encMode k) = true ∨ (s.enc k).serEnd + s.rdFld (Reg.eiuSerTiming k) 31 22 * 100 * nsU ≤ s.now) →
    Completes (.serialReadStart k) s (fun t => (t.enc k).reading = true ∧ (t.enc k).readFor = some at_ ∧
      (t.enc k).readAt = s.now ∧ (t.enc k).abs = decide (s.encMode k = 5 ∨ s.encMode k = 6))) ∧
  (∀ (s : State) k frame ack delay warn, (s.enc k).reading = true → (s.enc k).readAt + s.frameTime k ack delay ≤ s.now →
    s.injSlots 0x16 k = [] → (s.serJudge k frame ack delay).2 = .good warn →
    Completes (.serialReadEnd k frame ack delay) s (fun t =>
      (t.enc k).reading = false ∧ (t.enc k).posValid = true ∧ (t.enc k).raw = (s.serJudge k frame ack delay).1 ∧
      (t.enc k).rawSeen = true)) ∧
  (∀ (s : State) k frame ack delay kind, (s.enc k).reading = true → (s.enc k).readAt + s.frameTime k ack delay ≤ s.now →
    s.injSlots 0x16 k = [] → (s.serJudge k frame ack delay).2 = .bad kind →
    Completes (.serialReadEnd k frame ack delay) s (fun t =>
      (t.enc k).reading = false ∧ (t.enc k).posValid = (s.enc k).posValid ∧ (t.enc k).pos = (s.enc k).pos ∧
      (t.enc k).raw = (s.enc k).raw)) ∧
  (∀ (s : State) k, s.hostOpen = true → (s.encMode k = 5 ∨ s.encMode k = 6) →
    Completes (.reread k) s (fun t => t.rdBit (Reg.eiuMode k) 31 = true ∧ (t.enc k).pos = (s.enc k).pos ∧
      (t.enc k).posValid = (s.enc k).posValid ∧ (t.enc k).again = ((s.enc k).again || (s.enc k).reading))) ∧
  (∀ (s : State) k slave addr, s.hostOpen = true → (s.enc k).biss = false →
    Completes (.bissRegisterRead k slave addr) s (fun t =>
      (t.enc k).biss = true ∧ (t.enc k).bissFrames = 0 ∧ t.rdFld (Reg.eiuBissCmd k) 30 25 = 32 + slave % 8)) ∧
  (∀ (s : State) k slave addr data, s.hostOpen = true → (s.enc k).biss = false →
    Completes (.bissRegisterWrite k slave addr data) s (fun t =>
      (t.enc k).biss = true ∧ (t.enc k).bissFrames = 0 ∧ t.rdFld (Reg.eiuBissCmd k) 7 0 = data % 256)) ∧
  (∀ (s : State) k data ok, (s.enc k).biss = true → 40 ≤ (s.enc k).bissFrames →
    Completes (.bissTransactionEnd k data ok) s (fun t =>
      (t.enc k).biss = false ∧ t.rdBit (Reg.eiuBissCmd k) 30 = false))

/-- R84, R85, R89: probes are armed and acknowledged; a channel without edges for T_SS stands still at speed 0; a posted sample becomes
the feedback of the axes that the channel feeds. -/
def Obligations.ProbesSamplesAndStandstill : Prop :=
  (∀ (s : State) k p, s.hostOpen = true → p < (s.enc k).probes.length →
    Completes (.probeArm k p) s (fun t => ((t.enc k).probe p).armed = true ∧ ((t.enc k).probe p).full = ((s.enc k).probe p).full)) ∧
  (∀ (s : State) k p, s.hostOpen = true → p < (s.enc k).probes.length → (((s.enc k).probe p).late = none ∨ ((s.enc k).probe p).full = false) →
    Completes (.probeAck k p) s (fun t =>
      ((t.enc k).probe p).full = false ∧ ((t.enc k).probe p).armed = (((s.enc k).probe p).armed || s.probeCont k p))) ∧
  (∀ (s : State) k p u, s.hostOpen = true → p < (s.enc k).probes.length → ((s.enc k).probe p).late = some u → ((s.enc k).probe p).full = true →
    Completes (.probeAck k p) s (fun t =>
      ((t.enc k).probe p).armed = false ∧ (((t.enc k).probe p).full = true ∨ ((t.enc k).probe p).pend = some u))) ∧
  (∀ (s : State) a, (s.axis a).est.standstill = false → (s.axis a).est.edges.headD 0 + (s.desc a).speed.tSs * usU ≤ s.now →
    Completes (.standstillTimeout (0x8000 + a)) s (fun t => (t.axis a).est.standstill = true ∧ (t.axis a).fbVel = 0)) ∧
  (∀ (s : State) k, k < 0x8000 → (s.enc k).est.standstill = false →
    (s.enc k).est.edges.headD 0 + (s.encCfg k).tSs * usU ≤ s.now →
    Completes (.standstillTimeout k) s (fun t =>
      (t.enc k).est.standstill = true ∧ (t.enc k).est.v = 0 ∧ (t.enc k).est.bound = false)) ∧
  (∀ (s : State) k, s.cyc.running = true → s.encMode k ≠ 0 → (s.enc k).posted.contains 0 = false → (s.enc k).sValid = true →
    s.sampleAt 0 + s.postDelay k ≤ s.now →
    Completes (.localSamplePost k 0) s (fun t =>
      (t.enc k).posted = 0 :: (s.enc k).posted ∧
      ∀ a, a ∈ s.axesOfChan k → (s.desc a).active s.cyc.n = true →
        (t.axis a).fbPos = (s.enc k).sPos ∧ (t.axis a).fbVel = (s.enc k).est.v ∧ (t.axis a).noFb = 0))


/-! ### Fast inputs and outputs (R94 to R109) -/

/-- R97, R98, R102, R103: a stuck input is masked and released, a chattering one returns to its filtered level, host levels and due
edges reach the outputs. -/
def Obligations.FastInputsAndOutputsAct : Prop :=
  (∀ (s : State) k, (s.fin k).eff = true → (s.fin k).stuck = false → s.rdFld (Reg.dioInTime k) 31 16 ≠ 0 →
    (s.fin k).actSince + s.rdFld (Reg.dioInTime k) 31 16 * msU + clkU ≤ s.now →
    Completes (.inputStuck k) s (fun t => (t.fin k).masked = true ∧ (t.fin k).stuck = true ∧ (t.fin k).filt = (s.fin k).filt)) ∧
  (∀ (s : State) k, (s.fin k).masked = true → (s.fin k).filt = false →
    max (s.fin k).maskedAt (s.fin k).acc + s.rdFld (Reg.dioInTime k) 15 0 * msU ≤ s.now →
    Completes (.inputReleased k) s (fun t => (t.fin k).masked = false ∧ (t.fin k).stuck = false)) ∧
  (∀ (s : State) k, (s.fin k).forced = true → (s.fin k).filt = false → (s.fin k).acc + s.finWin k ≤ s.now →
    Completes (.chatterRelease k) s (fun t => (t.fin k).forced = false ∧ (t.fin k).eff = false)) ∧
  (∀ (s : State) v, s.hostOpen = true → Completes (.dioOutSet v) s (fun t =>
    ∀ k, k < 16 → (t.fout k).level = if bit v k = true ∧ s.foutMode k = 1 then true else (s.fout k).level)) ∧
  (∀ (s : State) v, s.hostOpen = true → Completes (.dioOutClr v) s (fun t =>
    ∀ k, k < 16 → (t.fout k).level = if bit v k = true ∧ s.foutMode k = 1 then false else (s.fout k).level)) ∧
  (∀ (s : State) k e rest, (s.fout k).queue = e :: rest → e.t ≤ s.now →
    Completes (.outputEdgeDue k) s (fun t =>
      (t.fout k).queue = rest ∧ (t.fout k).level = e.level ∧ (t.fout k).last = some e.t))

/-! ### Line angles, links, compare units and captures (R217 to R249, R477 to R485) -/

/-- R221, R224, R225, R227, R235: line angles decelerate, end their correction, miss edges and are evaluated; a cam copy ends with a new
header in force; an accepted transition becomes the filtered level of its input. -/
def Obligations.LineAngleEventsTakeEffect : Prop :=
  (∀ (s : State) n, (s.la n).st = .coast → (s.la n).endAt ≤ s.now →
    Completes (.coastExpiry n) s (fun t =>
      (t.la n).st = .ramp ∧ (t.la n).acc = (if (s.la n).lostVel < 0 then 1 else -1) * ((s.la n).decl.lossDec : Int) ∧
      (t.la n).vel = (s.la n).vel ∧ (t.la n).ang = (s.la n).ang)) ∧
  (∀ (s : State) n, (s.la n).st = .rejoin → (s.la n).endAt ≤ s.now →
    Completes (.rejoinSlewEnd n) s (fun t => (t.la n).st = .valid ∧ (t.la n).corr = 0 ∧ (t.la n).srcAng = (s.la n).srcAng)) ∧
  (∀ (s : State) n, ((s.la n).decl.src = .periodicFin ∨ (s.la n).decl.src = .periodicPps) → (s.la n).freq ≠ 0 →
    (s.la n).missRef + (s.la n).halfPeriods 3 ≤ s.now →
    Completes (.periodicEdgeMissing n) s (fun t =>
      (t.la n).miss = (s.la n).miss + 1 ∧ (t.la n).missRef = (s.la n).missRef + (s.la n).halfPeriods 2)) ∧
  (∀ (s : State) i c, s.lau.copies.find? (fun x => decide (x.index = i)) = some c →
    Completes (.camCopyDone i) s (fun t =>
      t.camHdr i = c.hdr ∧ t.lau.copies = s.lau.copies.filter (fun d => decide (d.seq ≠ c.seq)) ∧
      t.objLive 5 i = true ∧ t.gens = s.gens)) ∧
  (∀ (s : State), s.cyc.running = true → s.lau.posted = false →
    Completes .lauPost s (fun t => t.lau.posted = true ∧
      ∀ n, (s.la n).decl.src = .virtual →
        (t.la n).st = .valid ∧ (t.la n).ang = ((s.pgn (.vm n)).eval (s.sampleAt 0)).p ∧
        (t.la n).vel = ((s.pgn (.vm n)).eval (s.sampleAt 0)).v)) ∧
  (∀ (s : State) k pin, let lvl := pin != s.rdBit (Reg.dioInCfg k) 31
    k < 16 → (s.fin k).filt = !lvl → (s.fin k).acc + s.finFilt k ≤ s.now → s.injSlots 0x18 k = [] →
    Completes (.fastInputTransition k pin) s (fun t =>
      (t.fin k).filt = lvl ∧ (t.fin k).acc = s.now ∧ (t.fin k).masked = (s.fin k).masked))

/-- R229 to R231, R235, R239, R240: links are engaged and changed, cam copies begin, compare units are armed and disarmed. -/
def Obligations.LinkAndCompareItemsTakeEffect : Prop :=
  (∀ (s : State) it, let a := hIdx it.handle
    let mh := w32 (it.u 20 4)
    let m : Master := if hType mh = 2 then .la (hIdx mh) else if it.u 52 1 % 2 = 1 then .axisSp (hIdx mh) else .axisFb (hIdx mh)
    ItemFresh s Opc.gearSet it → hType it.handle = 1 → s.handleCheck [1, 2] mh = none →
    (it.u 52 1 / 2 % 2 = 1 → s.handleCheck [5] (w32 (it.u 24 4)) = none) → (s.axis a).st = .ready → (s.axis a).moved = false →
    s.linked a = false → gearBad it false = false → s.chainBad a m = false → s.masterOut m = false → it.u 52 1 / 4 % 2 = 0 →
    Completes (.gearSet it) s (fun t =>
      (t.axis a).st = .motion ∧ (t.axis a).moved = true ∧ t.linked a = true ∧
      t.lau.links.find? (fun p => decide (p.1 = a)) = some (a, newLink (gearReq it m) (0, 1) (s.axis a).pgn.sp.p none 0))) ∧
  (∀ (s : State) it l, let a := hIdx it.handle
    ItemFresh s Opc.gearChangeAt it → hType it.handle = 1 → s.lau.links.find? (fun p => decide (p.1 = a)) = some (a, l) →
    l.next = none → (it.u 52 1 / 2 % 2 = 1 → s.handleCheck [5] (w32 (it.u 24 4)) = none) → gearBad it true = false →
    s.masterOut l.master = false →
    Completes (.gearChangeAt it) s (fun t =>
      t.lau.links.find? (fun p => decide (p.1 = a)) = some (a, { l with next := some (gearReq it l.master) }))) ∧
  (∀ (s : State) it, let i := it.u 20 2
    ItemTaken s Opc.camSet it → i < s.rdFld Reg.lauCfg 15 7 → 2 ≤ it.u 32 4 → it.u 32 4 ≤ 65536 → it.u 36 8 ≠ 0 →
    it.u 24 8 % 16 = 0 → s.hostRegion (it.u 24 8) (16 * it.u 32 4) = true → s.camUsed i = false →
    Completes (.camSet it) s (fun t => ∃ c, t.lau.copies = s.lau.copies ++ [c] ∧ c.seq = s.wks.nextSeq ∧ c.index = i ∧
      c.src = it.u 24 8 ∧ c.hdr.n = it.u 32 4 ∧ c.hdr.span = it.u 36 8 ∧ t.objLive 5 i = false ∧
      (s.objLive 5 i = true → t.gen 5 i = if s.gen 5 i = 0xFFF then 1 else s.gen 5 i + 1))) ∧
  (∀ (s : State) it, let u := it.u 20 1
    ItemTaken s Opc.compareArm it → it.u 21 1 % 4 ≠ 0 → u ≤ 127 → s.handleCheck [1, 2] (w32 (it.u 24 4)) = none →
    it.u 21 1 / 4 % 4 ≠ 3 → (it.u 21 1 / 4 % 4 = 2 → it.u 36 8 = 0) → it.u 44 4 ≤ 1000000 → s.armKindOk (armKind it) = true →
    Completes (.compareArm it) s (fun t =>
      (t.unit u).armed = true ∧ (t.unit u).kind = armKind it ∧ (t.unit u).value = it.s64 28 ∧
      (t.unit u).dir = it.u 21 1 / 4 % 4 ∧ (t.unit u).step = it.u 36 8 ∧ (t.unit u).pulse = it.u 44 4 ∧ (t.unit u).fireCnt = 0 ∧
      (t.unit u).armCycle = s.cyc.n)) ∧
  (∀ (s : State) it, let u := it.u 20 1
    ItemTaken s Opc.compareArm it → it.u 21 1 % 4 = 0 → u ≤ 127 →
    Completes (.compareDisarm it) s (fun t =>
      (t.unit u).armed = false ∧ (t.unit u).kind = .off ∧ (t.unit u).fireCnt = (s.unit u).fireCnt ∧
      (t.unit u).placed = (s.unit u).placed))

/-- R481 to R484: captures are armed, disarmed, done after POST cycles and forced after AUTO_T. -/
def Obligations.CapturesBeginAndEnd : Prop :=
  (∀ (s : State) it, let c := hIdx it.handle
    ItemFresh s Opc.captureArm it → it.u 20 1 % 4 ≠ 0 → c < 32 → armBad it c s.cycleNo = false → (s.capCh c).st = .idle →
    (s.capCh c).busy = [] →
    Completes (.captureArm it) s (fun t =>
      (t.capCh c).st = .pre ∧ (t.capCh c).mode = it.u 20 1 % 4 ∧ (t.capCh c).pre = it.u 32 4 ∧ (t.capCh c).post = it.u 36 4 ∧
      (t.capCh c).half = 0 ∧ (t.capCh c).wpos = 0)) ∧
  (∀ (s : State) it, let c := hIdx it.handle
    ItemFresh s Opc.captureArm it → it.u 20 1 % 4 = 0 → it.u 20 1 / 4 = 0 → c < 32 → (s.capCh c).st = .pre →
    Completes (.captureDisarm it) s (fun t => (t.capCh c).st = .idle ∧ (t.capCh c).seq = (s.capCh c).seq)) ∧
  (∀ (s : State) c, c < 32 → (s.capCh c).st = .post → (s.capCh c).mode = 1 → (s.capCh c).rearm = false →
    (s.capCh c).trigCycle + (s.capCh c).post ≤ s.cycleNo →
    Completes (.captureDone c) s (fun t =>
      (t.capCh c).st = .held ∧ (t.capCh c).seq = (s.capCh c).seq + 1 ∧ (t.capCh c).half ∈ (t.capCh c).busy)) ∧
  (∀ (s : State) c, c < 32 → (s.capCh c).st = .pre → (s.capCh c).mode = 3 → (s.capCh c).armCycle + (s.capCh c).autoT ≤ s.cycleNo →
    Completes (.captureForced c) s (fun t =>
      (t.capCh c).st = .post ∧ (t.capCh c).forced = true ∧ (t.capCh c).trigCycle = s.cycleNo))

/-! ### The Siran network (R250 to R286) -/

/-- R253, R257, R267, R272, R39: a bundle frame in its window is received, its records land, the uplink window closes, and a
transmission outside every window is a violation of the node at that port. -/
def Obligations.UplinkFramesAndRecordsLand : Prop :=
  (∀ (s : State) p fr fcsOk e, FrameAccepted s p 2 fr e → s.injSlots 1 3 = [] → s.injSlots 2 3 = [] → s.injSlots 0x0B p = [] →
    s.now + wireTime (1 + fr.length + 4) ≤
      s.cyc.c0 + e.start * 1024 + wireTime (frameOver + ((s.recsOf e).map (fun r => ulLen r.ext)).sum) + s.guard →
    Completes (.ulBundleFrame p fr fcsOk) s (fun t => ∃ f, t.slc.rx.find? (fun q => decide (q.1 = p)) = some (p, f) ∧
      f.slot = (readHdr fr).slot ∧ f.cycle = (readHdr fr).cycle ∧ f.count = (readHdr fr).count ∧ f.body = fr.drop 24 ∧
      f.start = s.now ∧ f.endAt = none ∧ f.bad1 = false)) ∧
  (∀ (s : State) p k f e r rb, RecordLands s p k f e r rb → (s.landed (e.first + k)).on (decide (4 ≤ p)) = none →
    s.cyc.ulEnd.contains (s.closeOf e r) = false →
    Completes (.uplinkRecordLanded p k) s (fun t =>
      (t.landed (e.first + k)).on (decide (4 ≤ p)) = some rb ∧
      (t.landed (e.first + k)).on (!decide (4 ≤ p)) = (s.landed (e.first + k)).on (!decide (4 ≤ p)) ∧
      (t.landed (e.first + k)).first = some ((s.landed (e.first + k)).first.getD rb))) ∧
  (∀ (s : State) h, s.cyc.running = true → h < 3 → s.cyc.ulEnd.contains h = false → s.closeAt h ≤ s.now →
    Completes (.ulEnd h) s (fun t => t.cyc.ulEnd = h :: s.cyc.ulEnd ∧
      ∀ a, a ∈ s.axesInUse → (s.axis a).st.runsJobs = true → (s.desc a).active s.cyc.n = true → (s.desc a).c2 = decide (h ≠ 0) →
        (s.axis a).fbNow.contains (if h = 2 then 1 else 0) = false → (t.axis a).fbExtrap = true)) ∧
  (∀ (s : State) p n, p < 8 → ¬ s.windowOpen p → s.directNode (p % 4) = some n →
    Completes (.babble p) s (fun t =>
      ((t.node n).link (decide (4 ≤ p))).violNow = true ∧ (t.node n).link (!decide (4 ≤ p)) = (s.node n).link (!decide (4 ≤ p)) ∧
      t.slc.rx = s.slc.rx))

/-- R262, R275 to R277, R279, R374: SAFE frames, join requests and coupler status frames are taken from their slots. -/
def Obligations.SafeJoinAndStatusFramesAreTaken : Prop :=
  (∀ (s : State) p fr e c d q, FrameAccepted s p 4 fr e → e.kind = 1 → s.injSlots 0x1F 0 = [] →
    s.safety.conns.zipIdx.find? (fun x => decide (x.1.down = false ∧ x.1.slot = (readHdr fr).slot ∧ x.1.node = e.pair)) = some (d, c) →
    judgePdu d s.safety.seqWin (!(s.conn c).started || (s.conn c).lost) (s.conn c).last ((fr.drop 24).take e.body) = .ok q →
    Completes (.safeFrame p fr) s (fun t =>
      (t.conn c).started = true ∧ (t.conn c).lost = false ∧ (t.conn c).last = q ∧ (t.conn c).okAt = s.now ∧
      (t.conn c).inputs = leAt ((fr.drop 24).take e.body) 8 4 % 2 ^ 24)) ∧
  (∀ (s : State) p fr e, FrameAccepted s p 5 fr e → e.kind = 2 → recOk (readHdr fr).cycle true ((fr.drop 24).take 48) = true →
    s.joinResult (leAt (fr.drop 24) 0 1) (decide (4 ≤ p)) (leAt (fr.drop 24) 4 4) (p % 4) = 0 →
    Completes (.joinReq p fr) s (fun t =>
      ((t.node (leAt (fr.drop 24) 0 1)).link (decide (4 ≤ p))).st = .joining ∧
      ((t.node (leAt (fr.drop 24) 0 1)).link (decide (4 ≤ p))).actCycle = s.cyc.n + 4 ∧
      (t.node (leAt (fr.drop 24) 0 1)).serial = leAt (fr.drop 24) 8 8 ∧
      ∃ a, t.slc.acks = s.slc.acks ++ [a] ∧ a.slot = e.pair ∧ a.port = p ∧ a.node = leAt (fr.drop 24) 0 1)) ∧
  (∀ (s : State) p fr e, FrameAccepted s p 5 fr e → e.kind = 2 → recOk (readHdr fr).cycle true ((fr.drop 24).take 48) = true →
    s.joinResult (leAt (fr.drop 24) 0 1) (decide (4 ≤ p)) (leAt (fr.drop 24) 4 4) (p % 4) ≠ 0 →
    Completes (.joinReq p fr) s (fun t => t.slc.nodes = s.slc.nodes ∧ t.slc.acks.length = s.slc.acks.length + 1)) ∧
  (∀ (s : State) p fr e, FrameAccepted s p 8 fr e → e.kind = 2 → recOk (readHdr fr).cycle true ((fr.drop 24).take 48) = true →
    Completes (.cplStat p fr) s (fun t => ∃ r rest, t.slc.reps = r :: rest ∧ r.trunk = p % 4 ∧ r.chanB = decide (4 ≤ p) ∧
      r.level = leAt (fr.drop 24) 0 1 ∧ r.result = leAt (fr.drop 24) 1 1 ∧ r.active = leAt (fr.drop 24) 4 4 ∧
      r.staged = leAt (fr.drop 24) 8 4))

/-- R270, R271, R281, R284: links go down and up, are fenced, fail to join and raise their alarms. -/
def Obligations.LinksChangeState : Prop :=
  (∀ (s : State) p, p < 8 → (s.port p).link = true →
    Completes (.linkDown p) s (fun t =>
      (t.port p).link = false ∧ (t.port p).downCnt = min 255 ((s.port p).downCnt + 1) ∧ t.slc.nodes = s.slc.nodes)) ∧
  (∀ (s : State) p, p < 8 → (s.port p).link = false →
    Completes (.linkUp p) s (fun t =>
      (t.port p).link = true ∧ (t.port p).downCnt = (s.port p).downCnt ∧ t.slc.nodes = s.slc.nodes)) ∧
  (∀ (s : State) n b, ((s.node n).link b).st = .joined → ((s.node n).link b).fenceDue = 0 →
    8 ≤ ((s.node n).link b).viol ∨ s.nLost ≤ ((s.node n).link b).silent →
    Completes (.portFenced n b) s (fun t =>
      ((t.node n).link b).fenceDue = (if 8 ≤ ((s.node n).link b).viol then 1 else 2) ∧ ((t.node n).link b).st = .joined ∧
      (t.node n).link (!b) = (s.node n).link (!b))) ∧
  (∀ (s : State) n b, ((s.node n).link b).st = .joining → 16 ≤ ((s.node n).link b).waited →
    Completes (.joinTimeout n b) s (fun t =>
      ((t.node n).link b).st = .absent ∧ (t.node n).link (!b) = (s.node n).link (!b) ∧ (t.node n).lost = (s.node n).lost)) ∧
  (∀ (s : State) n b, 16 ≤ ((s.node n).link b).trimRun → ((s.node n).link b).trimDone = false →
    Completes (.trimAlarm n b) s (fun t =>
      ((t.node n).link b).trimDone = true ∧ ((t.node n).link b).st = ((s.node n).link b).st ∧
      (t.node n).link (!b) = (s.node n).link (!b))) ∧
  (∀ (s : State) n, 16 ≤ (s.node n).asymRun → (s.node n).asymDone = false →
    Completes (.asymDisagree n) s (fun t => t.node n = { (s.node n) with asymDone := true }))

/-- R102, R250, R260: at A the outputs in SIGNAL mode take their held values; a downlink bundle slot is sent on both channels, the
same records on each, and nothing leaves while the transmitters are gated. -/
def Obligations.DownlinkAndActuation : Prop :=
  (∀ (s : State), s.cyc.running = true → s.cyc.atDone = false → s.instant Reg.cycAct ≤ s.now →
    Completes .actuationInstant s (fun t => t.cyc.atDone = true ∧
      ∀ k, k < 16 → (t.fout k).level =
        if s.foutMode k = 2 ∧ s.glb.st ≠ .safe ∧ s.glb.st ≠ .fault then (s.fout k).sigAt
        else (s.fout k).level)) ∧
  (∀ (s : State) k, s.cyc.running = true → k < s.slotCount → (s.slotEnt k).down = true → (s.slotEnt k).active s.cyc.n = true →
    s.slc.sent.contains k = false → s.cyc.c0 + (s.slotEnt k).start * 1024 ≤ s.now →
    Completes (.downlinkSlot k) s (fun t =>
      t.slc.sent = k :: s.slc.sent ∧ (s.dlOpen (s.slotEnt k).half = false → t.wire = s.wire) ∧
      ((s.slotEnt k).kind = 0 → s.dlOpen (s.slotEnt k).half = true → s.glb.role ≠ .lit →
        t.wire =
          .trunk ((s.slotEnt k).trunk + 4) (withFcs (s.dlBundle k (s.slotEnt k) (s.recsOf (s.slotEnt k)) true)) ::
          .trunk (s.slotEnt k).trunk (withFcs (s.dlBundle k (s.slotEnt k) (s.recsOf (s.slotEnt k)) false)) :: s.wire)))

/-! ### Fabric time (R287 to R310) -/

/-- R290, R293 to R298: Syncs give the offset through the delay and asymmetry in force, peer delays are asked, answered, filtered and
discarded. -/
def Obligations.SyncAndPeerDelayMessagesAct : Prop :=
  (∀ (s : State) p m, p < 3 → s.syncFits p m = true → s.injSlots 0x10 p = [] → (s.tport p).ignore = 0 → m.twoStep = false →
    Completes (.ptpSync p m) s (fun t =>
      (t.tport p).ofsSeen = true ∧
      (t.tport p).ofs = syncOffset s.now m.origin m.corr (dIn (s.rd (Reg.tbuPortMpd p)).toNat (s.rd (Reg.tbuPortAsymStatic p)).toInt
        (s.rd (Reg.tbuPortAsymLive p)).toInt) ∧
      ((s.tport p).pst ≠ .slave → t.ft = s.ft ∧ t.incr = s.incr))) ∧
  (∀ (s : State) p m, p < 3 → s.syncFits p m = true → s.injSlots 0x10 p = [] → (s.tport p).ignore = 0 → m.twoStep = true →
    Completes (.ptpSync p m) s (fun t => (t.tport p).sync = some (m.seq, s.now, m.corr) ∧ (t.tport p).ofs = (s.tport p).ofs)) ∧
  (∀ (s : State) p m rx c, p < 3 → s.syncFits p m = true → (s.tport p).sync = some (m.seq, rx, c) →
    Completes (.ptpFollowUp p m) s (fun t =>
      (t.tport p).sync = none ∧
      (t.tport p).ofs = syncOffset rx m.origin (c + m.corr) (dIn (s.rd (Reg.tbuPortMpd p)).toNat
        (s.rd (Reg.tbuPortAsymStatic p)).toInt (s.rd (Reg.tbuPortAsymLive p)).toInt))) ∧
  (∀ (s : State) p, s.pdOn p = true → ptpDue (s.tport p).sentReq (s.ptpInterval 23 20) s.now = true →
    Completes (.ptpPdelaySend p) s (fun t =>
      (t.tport p).reqAt = some s.now ∧ (t.tport p).reqSeq = ((s.tport p).reqSeq + 1) % 65536 ∧
      t.wire = .ptp p 2 [((s.tport p).reqSeq + 1) % 65536] :: s.wire)) ∧
  (∀ (s : State) p q, s.pdOn p = true →
    Completes (.ptpPdelayReq p q) s (fun t =>
      t.wire = .ptp p 3 [q, (s.rd (Reg.tbuPortTxLat p)).toNat, (s.rd (Reg.tbuPortRxLat p)).toNat, 1] :: s.wire ∧ t.tbu = s.tbu)) ∧
  (∀ (s : State) p m t1, s.pdOn p = true → (s.tport p).reqAt = some t1 → m.seq = (s.tport p).reqSeq → m.domain = s.rdFld Reg.tbuPtpCfg 7 0 →
    s.now < t1 + 10 * msU →
    ((s.tport p).hist = [] ∨ ((meanDelay t1 s.now m.turn : Int) - meanOf (s.tport p).hist).natAbs ≤ 3200) →
    Completes (.ptpPdelayResp p m) s (fun t =>
      let hist := (meanDelay t1 s.now m.turn :: (s.tport p).hist).take 16
      (t.tport p).hist = hist ∧ (t.tport p).discards = 0 ∧ (t.tport p).reqAt = none ∧
      (s.cyc.running = true → (t.tport p).mpdNew = some (meanOf hist)) ∧
      (s.cyc.running = false → (t.tport p).mpdNew = none ∧ t.rd (Reg.tbuPortMpd p) = w32 (meanOf hist)))) ∧
  (∀ (s : State) p t1, p < 3 → (s.tport p).reqAt = some t1 → t1 + 10 * msU ≤ s.now →
    Completes (.pdelayTimeout p) s (fun t =>
      (t.tport p).reqAt = none ∧ (t.tport p).discards = (s.tport p).discards + 1 ∧ (t.tport p).hist = (s.tport p).hist))

/-- R290, R291, R296, R298, R300: the servo's states change on the counts of Syncs and the loss of the master, the better clock is
followed, and MASTER ports send. -/
def Obligations.ServoStatesAndAnnounces : Prop :=
  (∀ (s : State) p a, p < 3 → s.portLink p = true → a.domain = s.rdFld Reg.tbuPtpCfg 7 0 → a.sender ≠ s.fuses.serial.toNat →
    Completes (.ptpAnnounce p a) s (fun t => (t.tport p).ann = some a ∧ (t.tport p).annAt = s.now)) ∧
  (∀ (s : State), s.tbu.st = .listen → s.pilotish = false → s.tbu.listenAt + s.annTimeout ≤ s.now → s.bmcaPick = none →
    Completes .announceTimeout s (fun t => t.tbu.st = .lantern ∧ t.tbu.slave = 3 ∧ t.tbu.lantern = s.fuses.serial.toNat)) ∧
  (∀ (s : State), (s.tbu.st = .locking ∨ s.tbu.st = .unsync) → 16 ≤ s.tbu.good →
    Completes .timeSync s (fun t => t.tbu.st = .locked ∧ t.ft = s.ft)) ∧
  (∀ (s : State), (s.tbu.st = .locking ∨ s.tbu.st = .locked) → 8 ≤ s.tbu.bad → s.cyc.running = true →
    Completes .timeUnsync s (fun t => t.tbu.st = .unsync ∧ t.incr = slewMax s.tbu.rate s.tbu.offset ∧ t.ft = s.ft)) ∧
  (∀ (s : State), s.holdCause ≠ none →
    Completes .holdoverEnter s (fun t => t.tbu.st = .holdover ∧ t.tbu.slave = 3 ∧ t.incr = s.incr ∧ t.ft = s.ft)) ∧
  (∀ (s : State), 64 ≤ s.tbu.asymRun → s.tbu.asymDone = false →
    Completes .asymCheck s (fun t => t.tbu = { s.tbu with asymDone := true } ∧ t.incr = s.incr)) ∧
  (∀ (s : State) p, p < 3 → (s.tport p).pst = .master → ptpDue (s.tport p).sentSync (s.ptpInterval 19 16) s.now = true →
    Completes (.ptpSyncSend p) s (fun t =>
      (t.tport p).sentSync = some s.now ∧
      t.wire = .ptp p 8 [((s.tport p).syncSeq + 1) % 65536, s.now] :: .ptp p 0 [((s.tport p).syncSeq + 1) % 65536] :: s.wire)) ∧
  (∀ (s : State) p, p < 3 → (s.tport p).pst = .master → ptpDue (s.tport p).sentAnn (s.ptpInterval 27 24) s.now = true →
    Completes (.ptpAnnounceSend p) s (fun t => (t.tport p).sentAnn = some s.now ∧ t.wire.length = s.wire.length + 1 ∧
      t.wire.tail = s.wire)) ∧
  (∀ (s : State) p, s.portLink p = true →
    Completes (.ptpManagement p) s (fun t => t = s.count Reg.tbuMgmtMsgCnt))

/-- R302 to R305: PPS_OUT rises and falls, PPS_IN is measured, and may step the time of a lantern that does not run yet; its loss
is told; plant time is a mean. -/
def Obligations.PpsAndPlantTimeAct : Prop :=
  (∀ (s : State) h, s.tbu.ppsHigh = some h → h + s.rdFld Reg.tbuPpsCfg 18 0 * usU ≤ s.now →
    Completes .ppsOutEdge s (fun t => t.tbu.ppsHigh = none ∧ t.wire = .pin ppsPin false :: s.wire)) ∧
  (∀ (s : State) h, s.tbu.ppsHigh = none → s.ppsInstant = some h → s.tbu.ppsLast ≠ some h →
    (s.tbu.st = .locked ∨ s.tbu.st = .unsync ∨ s.tbu.st = .holdover ∨ s.tbu.st = .lantern) →
    Completes .ppsOutEdge s (fun t => t.tbu.ppsHigh = some h ∧ t.tbu.ppsLast = some h ∧ t.wire = .pin ppsPin true :: s.wire)) ∧
  (∀ (s : State), s.rdFld Reg.tbuPpsCfg 24 23 = 1 →
    Completes (.ppsInEdge (!s.rdBit Reg.tbuPpsCfg 22)) s (fun t =>
      t.ft = s.ft ∧ t.incr = s.incr ∧
      t.rd Reg.tbuPpsErr = wInt (toQuarter (secDist ((s.now + 8192) / 16384 * 16384))))) ∧
  (∀ (s : State), s.ppsRules = true → s.cyc.running = false → s.tbu.ppsStep = false →
    Completes (.ppsInEdge (!s.rdBit Reg.tbuPpsCfg 22)) s (fun t =>
      t.ft = ((s.ft : Int) - ((s.now + 8192) / 16384 * 16384 % secTicks : Nat) * 2 ^ 32).toNat ∧ t.rd Reg.tbuPpsErr = 0 ∧
      t.tbu.ppsStep = true ∧ t.tbu.ppsLost = false)) ∧
  (∀ (s : State) h, s.ppsRules = true → s.tbu.ppsOk = some h → s.tbu.ppsLost = false → h + 2 * secTicks ≤ s.now →
    Completes .ppsLost s (fun t => t.tbu = { s.tbu with ppsLost := true } ∧ t.incr = s.incr)) ∧
  (∀ (s : State) ofs, Completes (.plantPtpExchange ofs) s (fun t =>
      t.tbu.plant = (ofs :: s.tbu.plant).take 16 ∧ t.ft = s.ft ∧
      t.rd Reg.tbuPlantOfsLo = w32 (divRound ((ofs :: s.tbu.plant).take 16).sum ((ofs :: s.tbu.plant).take 16).length % 2 ^ 63).toNat))

/-! ### The controller fabric (R311 to R333) -/

/-- R314 to R320, R322, R324, R325: HELLOs go out at their interval and show members, an ID is taken, lost members and changed links
are kept; the controller sends its records once a cycle, takes the first copy of another's, holds asynchronous frames for a gap and
marks stale imports. -/
def Obligations.FabricMembersAndData : Prop :=
  (∀ (s : State), s.glb.opened = true → s.glb.st ≠ .off →
    (s.fbr.sentAt = none ∨ ∃ u, s.fbr.sentAt = some u ∧
      u + (if s.glb.st = .discover ∨ s.glb.st = .sync then msU else 1024 * s.per) ≤ s.now) →
    Completes .helloSend s (fun t =>
      t.fbr.sentAt = some s.now ∧ t.fbr.lastBody = s.helloNow ∧ t.fbr.members = s.fbr.members)) ∧
  (∀ (s : State) p fr h body, FabArrives s p fr h body → h.ftype = 0x11 → body.length = 64 → leAt body 0 8 ≠ s.fuses.serial.toNat →
    Completes (.helloFrame p fr) s (fun t => ∃ m, t.memberOf (leAt body 0 8) = some m ∧ m.serial = leAt body 0 8 ∧
      m.id = leAt body 16 1 % 64 ∧ m.candle = (body.drop 22).take 32 ∧ m.epoch = leAt body 18 4 ∧ m.seenAt = s.now)) ∧
  (∀ (s : State) told i auto, s.glb.st = .discover → s.glb.idValid = false → s.idNow = some (some (i, auto)) →
    Completes (.idAssigned told) s (fun t => t.glb.id = i ∧ t.glb.idValid = true)) ∧
  (∀ (s : State) c, s.fbr.known.contains c = true → 16 ≤ Tab.get 0 s.fbr.noRoute c →
    Completes (.memberLost c) s (fun t =>
      t.fbr.known = s.fbr.known.filter (fun i => decide (i ≠ c)) ∧ Tab.get 0 t.fbr.noRoute c = 0)) ∧
  (∀ (s : State) p up tx rx, p < 2 → p < s.fbr.links.length → s.fabUp p = !up → (up = true → s.pem.lanes.contains (16 * 3 + p) = true) →
    Completes (.fabricLinkChange p up tx rx) s (fun t =>
      t.fabUp p = up ∧ t.fbr.changed = s.now ∧ t.fbr.members = s.fbr.members ∧
      (up = true → t.rd (Reg.tbuPortTxLat p) = w32 tx ∧ t.rd (Reg.tbuPortRxLat p) = w32 rx))) ∧
  (∀ (s : State), s.cyc.running = true → s.glb.idValid = true → s.fabOrigin = true → s.fbr.conflict = false →
    s.rdFld (Reg.fbrFslotLen s.glb.id) 31 16 ≠ 0 → (s.rdFld (Reg.fbrFslotLen s.glb.id) 15 0).testBit (s.cyc.n % 16) = true →
    s.fbr.sentData ≠ some s.cyc.n → s.cyc.c0 + (s.rd (Reg.fbrFslotStart s.glb.id)).toNat * 1024 ≤ s.now →
    Completes .fabDataSend s (fun t => t.fbr.sentData = some s.cyc.n ∧
      ∀ p, p < 2 → s.fabUp p = true → s.rdBit Reg.fbrCfg 15 = true → ∃ ttl, .fabric p (fabFrame s.fabEther
        { ftype := 0x12, origin := s.glb.id, noId := false, hops := 0, ttl := ttl, wrapped := false, dual := true, port := p
          links := s.fabLinks, len := s.fabBody.length, cycle := s.cyc.n } p s.fabBody) ∈ t.wire)) ∧
  (∀ (s : State) p fr h body, FabArrives s p fr h body → h.ftype = 0x12 → h.noId = false → (h.origin ≠ s.glb.id ∨ s.glb.idValid = false) →
    s.fbr.taken.contains (0x12, h.origin, h.cycle, 0) = false →
    Completes (.fabData p fr) s (fun t => (0x12, h.origin, h.cycle, 0) ∈ t.fbr.taken ∧
      (s.importOk h.origin (leAt body 0 4) = false → t.lau = s.lau ∧ t.fbr.blocks = s.fbr.blocks) ∧
      ∀ n idx q, s.importOk h.origin (leAt body 0 4) = true → s.fbr.conflict = false →
        fabRecs h.cycle 512 (body.drop 4) = [.angle idx q] → q.1 ≤ s.cyc.n →
        (s.la n).decl.src = .remote → (s.la n).decl.srcCtrl = h.origin → (s.la n).decl.srcIndex = idx → (s.la n).record = none →
        (t.la n).record = some { cycle := q.1, st := q.2.1, ang := q.2.2.1, vel := q.2.2.2.1, acc := q.2.2.2.2 })) ∧
  (∀ (s : State) p h, s.fbr.held.find? (fun x => decide (x.port = p)) = some h → s.fabBlocked h.bytes.length = false →
    Completes (.asyncFrameRelease p) s (fun t => t.fbr.held = s.fbr.held.erase h ∧
      t.wire = if s.fabUp p = true then .fabric p h.bytes :: s.wire else s.wire)) ∧
  (∀ (s : State) i x, s.ctrl.imports[i]? = some x → x.src < 64 → max 1 (s.rdFld Reg.fbrCfg 11 8) ≤ Tab.get 0 s.fbr.stale i →
    s.mapBit Reg.fbrStaleMapLo x.src = false →
    Completes (.signalStale i) s (fun t => t.mapBit Reg.fbrStaleMapLo x.src = true ∧ t.fbr = s.fbr ∧ t.remote = s.remote))


/-! ### Epochs (R326 to R330) -/

/-- R326, R327, R329: staging is offered and asked for, fragments are stored, a staged image that stands makes its member ready, and
the commit is asked for. -/
def Obligations.EpochsAreStaged : Prop :=
  (∀ (s : State) it, let bs := s.dramRead (it.u 24 8) (it.u 32 4)
    ItemTaken s Opc.epochStage it → (s.glb.st = .ready ∨ s.glb.st = .run ∨ s.glb.st = .degraded) → s.fbr.mismatch = false →
    s.fbr.epoch.phase = .idle → s.fbr.away = none → s.ownEpoch < it.u 20 4 → 0 < it.u 32 4 → it.u 32 4 ≤ imgMax →
    s.hostRegion (it.u 24 8) (it.u 32 4) = true → imgHeaderOk bs = true → imgCandle bs ≠ s.ownCandle →
    ((imgEntries bs).find? (fun x => decide (entType x = 2))).map (fun x => Config.linePeriod (imgSection bs x)) =
      some (s.rd Reg.cycPeriod) →
    Completes (.epochStage it) s (fun t =>
      t.fbr.epoch.phase = .staging ∧ t.fbr.epoch.e = it.u 20 4 ∧ t.fbr.epoch.initiator = true ∧ t.fbr.epoch.candle = imgCandle bs ∧
      t.fbr.epoch.members = s.glb.id :: s.fbr.known.filter (fun i => decide (i ≠ s.glb.id)) ∧ t.fbr.epoch.offerAt = s.now)) ∧
  (∀ (s : State) it, let x := s.fbr.epoch
    ItemTaken s Opc.epochCommit it → x.phase ≠ .idle → x.initiator = true → it.u 20 4 = x.e → it.u 24 8 ≤ s.cyc.n + 2 ^ 31 →
    x.members.all x.ready.contains = true →
    Completes (.epochCommit it) s (fun t => t.fbr.epoch.nReq = some (it.u 24 8) ∧
      (s.isLantern = true → x.phase = .ready → x.issued = false →
        t.fbr.epoch.phase = .committed ∧ t.fbr.epoch.at_ = max (it.u 24 8) (s.cyc.n + 64)))) ∧
  (∀ (s : State) e init auto members candle, s.fbr.epoch.phase = .idle → s.glb.idValid = true → s.fbr.conflict = false →
    members.contains s.glb.id = true → init ≠ s.glb.id →
    Completes (.epochOffer e init auto members candle) s (fun t =>
      t.fbr.epoch = { phase := .staging, e := e, candle := candle, members := members, auto := auto, offerAt := s.now,
                      inUse := s.axesInUse, lastCause := s.fbr.epoch.lastCause })) ∧
  (∀ (s : State) k total bytes, k < total → fragLen * k + bytes.length ≤ imgMax → s.fbr.epoch.phase = .staging →
    s.fbr.epoch.initiator = false → s.fbr.epoch.got.any (fun p => decide (p.1 = k)) = false →
    Completes (.cfgXfer 64 k total bytes) s (fun t =>
      t.fbr.epoch.got = (k, bytes) :: s.fbr.epoch.got ∧ t.fbr.epoch.total = total ∧
      ∀ i, i < bytes.length → t.dramByte (s.otherArea + fragLen * k + i) = bytes.getD i 0)) ∧
  (∀ (s : State) from_ ks bs, s.fbr.epoch.phase ≠ .idle → s.fbr.epoch.initiator = true → s.fbr.epoch.members.contains from_ = true →
    joinFrags s.fbr.epoch.total s.fbr.epoch.got = some bs →
    Completes (.epochNeed from_ ks) s (fun t => t.wire = ((ks.filter (fun k => decide (k < s.fbr.epoch.total))).map
      (fun k => WireOut.epoch 5 [64, k, fragCount bs] (fragOf bs k))).reverse ++ s.wire)) ∧
  (∀ (s : State) body told bs, s.fbr.epoch.phase = .staging → s.cfl.staged = none → joinFrags s.fbr.epoch.total s.fbr.epoch.got = some bs →
    s.stageChecks bs body told = none → s.couplerMissing s.fbr.epoch.candle = none → s.pilotReady = true →
    Completes (.stageDone body told false) s (fun t =>
      t.cfl.staged = some (body, bs) ∧ (t.fbr.epoch.phase = .ready ∨ t.fbr.epoch.phase = .committed) ∧ t.fbr.epoch.readyAt = s.now))

/-- R327, R328, R330: READY and FAIL reach the lantern, COMMIT is taken, and an abort or a timeout discards the staged image. -/
def Obligations.EpochsCommitOrAbort : Prop :=
  let ended := fun (t : State) (cause : Nat) =>
    t.fbr.epoch.phase = .idle ∧ t.fbr.epoch.lastCause = cause ∧ t.cfl.staged = none
  (∀ (s : State) e from_ q, (s.fbr.epoch.phase = .staging ∨ s.fbr.epoch.phase = .ready) → s.fbr.epoch.e = e →
    (s.isLantern = true ∨ s.fbr.epoch.initiator = true) → s.fbr.epoch.members.contains from_ = true →
    Completes (.epochReadyReceived e from_ q) s (fun t =>
      t.fbr.epoch.ready.contains from_ = true ∧ t.fbr.epoch.e = e ∧ t.fbr.epoch.members = s.fbr.epoch.members)) ∧
  (∀ (s : State) e from_ code, (s.fbr.epoch.phase = .staging ∨ s.fbr.epoch.phase = .ready) → s.fbr.epoch.e = e → s.isLantern = true →
    Completes (.epochFail e from_ code) s (fun t => ended t 1 ∧ t.wire = .epoch 4 [e, 1, from_, code] [] :: s.wire)) ∧
  (∀ (s : State) n, s.fbr.epoch.commitIn = some (s.fbr.epoch.e, candlePrefix s.fbr.epoch.candle, n) → s.fbr.epoch.phase = .ready →
    s.cyc.n < n →
    Completes .commitReceived s (fun t => t.fbr.epoch.phase = .committed ∧ t.fbr.epoch.at_ = n ∧ t.cfl = s.cfl)) ∧
  (∀ (s : State) e cause more, (s.fbr.epoch.phase = .staging ∨ s.fbr.epoch.phase = .ready) → s.fbr.epoch.e = e →
    Completes (.epochAbort e cause more) s (fun t => ended t cause ∧ t.wire = s.wire)) ∧
  (∀ (s : State), s.fbr.epoch.phase = .ready → s.fbr.epoch.readyAt + s.epochTimeout ≤ s.now →
    Completes .epochReadyTimeout s (fun t => ended t 5)) ∧
  (∀ (s : State), (s.fbr.epoch.phase = .staging ∨ s.fbr.epoch.phase = .ready) → s.isLantern = true →
    s.fbr.epoch.offerAt + s.epochTimeout ≤ s.now →
    Completes .epochOfferTimeout s (fun t => ended t 2 ∧ t.wire = .epoch 4 [s.fbr.epoch.e, 2] [] :: s.wire))

/-! ### Twin operation and failover (R334 to R358) -/

/-- R336 to R338, R344, R345, R347, R349, R350: the wick is watched, faults inhibit, ACT is raised by the pilot, by a controller without
a twin or whose twin it precedes, and after START_WAIT, and drops by conflict at the higher serial number, stall and handover. -/
def Obligations.WickAndTakeover : Prop :=
  (∀ (s : State) a, Completes (.partnerActChange a (!a)) s (fun t =>
    t.twu.pAct = a ∧ t.twu.badAt = none ∧ t.twu.act = s.twu.act ∧ (s.twu.pAct ≠ a → t.twu.pActAt = s.now) ∧
    (a = true → s.twu.act = true → s.twu.bothAt = none → t.twu.bothAt = some s.now))) ∧
  (∀ (s : State) a, Completes (.partnerActChange a a) s (fun t =>
    t.twu.badAt = some (s.twu.badAt.getD s.now) ∧ t.twu.pAct = s.twu.pAct)) ∧
  (∀ (s : State) cause, s.paired = true → s.twu.wickBad = false →
    (cause = 2 ∨ (cause = 3 ∧ 3 ≤ s.twu.disagree) ∨ (cause = 1 ∧ ∃ u, s.twu.badAt = some u ∧ u + 100 * nsU ≤ s.now)) →
    Completes (.wickFault cause) s (fun t =>
      t.twu.inhibit = true ∧ t.twu.wickOk = false ∧ t.twu.wickBad = true ∧ t.twu.wickCause = cause ∧ t.twu.act = s.twu.act)) ∧
  (∀ (s : State) u, s.twu.bothAt = some u → s.twu.act = true → u + 200 * nsU ≤ s.now → s.twu.partner.serial < s.fuses.serial.toNat →
    Completes .wickConflict s (fun t => t.twu.act = false ∧ t.glb.role = .unfit ∧ t.twu.inhibit = true)) ∧
  (∀ (s : State) u, s.twu.bothAt = some u → s.twu.act = true → u + 200 * nsU ≤ s.now → s.fuses.serial.toNat < s.twu.partner.serial →
    Completes .wickConflict s (fun t => t = s)) ∧
  (∀ (s : State), s.twu.act = false → s.twu.inhibit = false → s.twu.pAct = false → s.twu.badAt = none →
    s.twu.pActAt + 2000 * nsU ≤ s.now → s.glb.st ≠ .off →
    (s.glb.role = .pilot ∨ (s.glb.role = .alone ∧ s.glb.st = .ready ∧ (s.paired = false ∨ s.twu.claim = true))) →
    Completes .actRaise s (fun t => t.twu.act = true ∧ t.twu.upAt = s.now ∧
      t.glb.role = if s.glb.role = .alone ∧ s.paired = false then .alone else .lit)) ∧
  (∀ (s : State), s.cyc.running = true → s.cyc.stall = false → s.cyc.c0 + s.per + 2000 * nsU ≤ s.now → s.glb.st ≠ .off →
    Completes .cycStall s (fun t => t.cyc.stall = true ∧ t.twu.act = false ∧ t.glb.st = .fault)) ∧
  (∀ (s : State), s.paired = true → s.twu.hbOk = true →
    Completes .hbLost s (fun t => t.twu = { s.twu with hbOk := false } ∧ t.glb.role = s.glb.role)) ∧
  (∀ (s : State), s.paired = true → s.glb.role = .alone → s.glb.st = .ready → s.twu.link = false → s.twu.pAct = false → s.twu.badAt = none →
    s.twu.wickBad = false → max s.twu.downAt s.twu.pActAt + 5 * secTicks ≤ s.now →
    Completes .startWait s (fun t => t.twu.act = true ∧ t.glb.role = .lit)) ∧
  (∀ (s : State), s.hostOpen = true → s.glb.role = .lit → s.twu.partner.seen = true → s.twu.partner.role = 1 → s.twu.link = true →
    s.twu.xfer = false → s.twu.wickOk = true → s.twu.hand = false →
    Completes .handover s (fun t =>
      t.twu.hand = true ∧ t.twu.handCycle = s.cyc.n ∧ t.twu.act = s.twu.act ∧ t.glb.role = .lit)) ∧
  (∀ (s : State), s.twu.hand = true → s.twu.act = true →
    (s.cyc.n ≠ s.twu.handCycle ∨ s.instant Reg.cycDlEnd + 100 * nsU ≤ s.now) →
    Completes .handoverActDrop s (fun t =>
      t.twu.act = false ∧ t.twu.hand = false ∧ t.glb.role = if s.twu.stepDown = true then .unfit else .pilot))

/-- R335, R339 to R343, R348, R351: landing maps are sent and compared, the SEQ of safe connections is taken from copies, self-tests
begin and end, heartbeats, messages and state arrive. -/
def Obligations.ShadowAndTransfer : Prop :=
  (∀ (s : State), s.cyc.running = true → s.glb.role = .lit → s.twu.landSent ≠ some s.cyc.n → s.instant Reg.cycUlEnd + 200 * nsU ≤ s.now →
    Completes .landMapSend s (fun t => t.twu.landSent = some s.cyc.n ∧
      (s.paired = true → s.twu.link = true → ∃ fr, t.wire = .twin 0x22 fr :: s.wire) ∧
      (s.twu.link = false → t.wire = s.wire))) ∧
  (∀ (s : State) fr h body, TwPasses s → readFab s.fabEther fr = some (h, body) → h.ftype = 0x22 → s.compares = true → h.cycle = s.cyc.n →
    Completes (.landMap fr) s (fun t => t.axes = s.axes ∧
      ∀ i a, s.axesActive[i]? = some a → (body.drop (8 * i)).take 8 ≠ s.landEntry a →
        t.twu.resyncs.any (fun r => decide (r.axis = a)) = true)) ∧
  (∀ (s : State) fr h body c d, TwPasses s → readFab s.fabEther fr = some (h, body) → h.ftype = 0x21 → s.pilotish = true →
    leAt (body.drop 4) 14 1 = 4 → s.downConns (leAt body 0 4 % 1024) = [(c, d)] →
    Completes (.dlCopy fr) s (fun t => (t.conn c).started = true ∧
      (t.conn c).last = leAt (((body.drop 4).drop 24).take ((body.drop 4).length - 28)) 0 2 ∧ t.twu = s.twu)) ∧
  (∀ (s : State), s.paired = true → s.twu.test = none →
    (s.compares = true ∧ max 1 (s.rdFld Reg.twuCfg 23 16) ≤ s.twu.mm.length ∨ s.glb.role = .lit ∧ s.twu.partner.test = 1) →
    Completes .selfTestStart s (fun t => t.twu.test = some s.cyc.n ∧ t.twu.clean = 0 ∧ t.twu.mm = [] ∧ t.glb.role = s.glb.role)) ∧
  (∀ (s : State) own c, s.twu.test = some c → s.twu.testOwn = none → (s.twu.partner.test = 2 ∨ s.twu.partner.test = 3 ∨ c + 256 ≤ s.cyc.n) →
    Completes (.selfTest own) s (fun t => t.twu.test = none ∧
      (s.glb.role = .pilot → (own = false ∨ s.twu.partner.test = 2) → t.glb.role = .unfit ∧ t.twu.inhibit = true) ∧
      (s.glb.role = .lit → t.glb.role = .lit ∧ (own = false → s.twu.partner.test = 2 → t.twu.hand = true ∧ t.twu.stepDown = true)))) ∧
  (∀ (s : State) serial role cstate pf phase test act names, TwPasses s →
    Completes (.hb serial role cstate pf phase test act names) s (fun t =>
      t.twu.partner = { serial := serial, role := role, cstate := cstate, prefix_ := pf, epoch := phase, test := test, act := act,
                        seen := true, names := names } ∧ t.twu.hbOk = true ∧
      t.twu.disagree = if act ≠ s.twu.pAct then s.twu.disagree + 1 else 0)) ∧
  (∀ (s : State) x, TwPasses s → s.glb.role ≠ .lit →
    Completes (.stateChunk x) s (fun t => t.twu.chunks = s.twu.chunks ++ [x] ∧ t.axes = s.axes)) ∧
  (∀ (s : State) code bytes, TwPasses s → (s.mbChan 4).waitSend = true → (s.mbChan 4).st = .busy →
    Completes (.twMsg true code bytes) s (fun t => (t.mbChan 4).st = .acked ∧ (t.mbChan 4).ackCode = code)) ∧
  (∀ (s : State) code bytes, TwPasses s → bytes.length = 64 → leAt bytes 0 1 = 0xE0 →
    Completes (.twMsg false code bytes) s (fun t => ∀ k, k < 16 → t.rd (Reg.hlmPartner k) = (bytesWords 16 bytes).getD k 0)) ∧
  (∀ (s : State) up tx rx, s.twu.link = (!up) → (up = true → s.pem.lanes.contains (16 * 3 + 2) = true) →
    Completes (.twinLink up tx rx) s (fun t => t.twu.link = up ∧ t.twu.act = s.twu.act ∧ (up = false → t.twu.shadow = false)))

/-- R350, R352 to R354: a twin requalifies, a newcomer is accepted and recorded, and adopts the lit twin's image. -/
def Obligations.TwinRolesAndPeers : Prop :=
  (∀ (s : State), s.hostOpen = true → s.glb.role = .unfit →
    Completes .requalify s (fun t =>
      t.glb.role = .probation ∧ t.twu.clean = 0 ∧ t.twu.inhibit = true ∧ t.twu.xfer = true)) ∧
  (∀ (s : State) v, s.hostOpen = true → s.glb.role = .lit → s.twu.partner.seen = true → s.twu.partner.role = 2 →
    s.twu.partner.prefix_ = candlePrefix s.ownCandle → v.toNat = s.twu.partner.serial % 2 ^ 32 → s.twu.peerPend = none →
    Completes (.twuAccept v) s (fun t => t.twu.peerPend = some (s.twu.partner.serial, s.cyc.n, true))) ∧
  (∀ (s : State) h, s.paired = true → s.twu.partner.seen = true → s.twu.partner.prefix_ = candlePrefix s.ownCandle → s.twu.peerPend = none →
    (s.glb.role = .lit ∧ s.twu.partner.role = 2 ∨ s.glb.role = .probation ∧ s.twu.partner.role = 0 ∧
      (h = true ∨ 65536 ≤ s.twu.clean ∧ (s.rdBit Reg.twuCfg 30 = true ∨ s.peerNamed = true))) →
    Completes (.peerAccepted h) s (fun t =>
      t.twu.peerPend = some (s.twu.partner.serial, s.cyc.n, h) ∧ t.glb.role = s.glb.role)) ∧
  (∀ (s : State) ok0 ok1 serial cycle h, s.twu.peerPend = some (serial, cycle, h) → (ok0 = true ∨ ok1 = true) →
    Completes (.peerWrite ok0 ok1 true) s (fun t => t.twu.peerPend = none ∧ t.cfl.peers.length = 2 ∧
      t.rd Reg.twuPeerLo = w32 serial ∧ t.glb.role = if s.glb.role = .probation then .pilot else s.glb.role)) ∧
  (∀ (s : State) other serial cycle h, s.twu.peerPend = some (serial, cycle, h) →
    Completes (.peerWrite false false other) s (fun t =>
      t.twu.peerPend = none ∧ t.glb.role = s.glb.role ∧ t.cfl.peers = [s.cfl.peers.getD 0 [], s.cfl.peers.getD 1 []])) ∧
  (∀ (s : State) bs body told, s.twu.adopt = true → s.pilotish = true →
    Completes (.imageAdopt bs body told) s (fun t => t.twu.adopt = false ∧ t.cfl.flash = s.cfl.flash ∧
      (imageChecks s.fuses false bs body.firm = none → lineChecks s.dramSize body.line (toldChecks told) = none →
        idChecks bs body s.glb.id (toldChecks told) = none →
        t.glb.st = .load ∧ t.cfl.cand = some { slot := 5, bytes := bs }) ∧
      (∀ r, imageChecks s.fuses false bs body.firm = some r →
        t.glb.st = s.glb.st ∧ t.cfl.cand = s.cfl.cand ∧ s.logged 0x100F [.h 1] t)))

/-! ### The safety island (R359 to R389) -/

/-- R360 to R363, R366, R368, R370: the island starts, evaluates at UL_END, exchanges at E, and faults on a stopped clock and a
tripped supply; STO follows a stop that has run out, and a brake engages. -/
def Obligations.IslandEvaluatesAndFaults : Prop :=
  (∀ (s : State), s.sfi.st = .init → s.cyc.running = true →
    Completes (.islandStart s.safety.crc s.safety.crc true) s (fun t =>
      t.sfi.st = .normal ∧ t.sfi.scaOk = true ∧ t.sfi.scbOk = true ∧ t.sfi.permit = s.sfi.permit ∧
      (s.safety.present = true → s.safety.startReset = true → ∀ a, a ∈ s.safety.given → t.sfi.demanded a .sto))) ∧
  (∀ (s : State) ca cb ok, s.sfi.st = .init → s.cyc.running = true → s.safety.present = true → (ca ≠ s.safety.crc ∨ cb ≠ s.safety.crc) →
    Completes (.islandStart ca cb ok) s (s.islandFaulted 7)) ∧
  (∀ (s : State), s.sfi.st = .normal → s.cyc.running = true → s.sfi.evalCycle ≠ some s.cyc.n → s.instant Reg.cycUlEnd ≤ s.now →
    s.injSlots 1 4 = [] → s.injSlots 2 4 = [] → s.injSlots 1 5 = [] → s.injSlots 2 5 = [] →
    Completes .sfiEvaluation s (fun t => t.sfi.evalCycle = some s.cyc.n ∧ t.sfi.permit = s.sfi.permit ∧
      ∀ m k a, m ∈ s.safety.maps → m.src = .input k → SafeIn.demands (s.safeInDecl k) (s.safeIn k) = true → a ∈ m.axes →
        t.sfi.demanded a m.func)) ∧
  (∀ (s : State) k m, s.safety.mons[k]? = some m → s.sfi.st = .normal → (s.mon k).disc = false → (s.mon k).discNow m = true →
    Completes (.posDisc k) s (fun t => (t.mon k).disc = true ∧ t.sfi.demanded m.axis (s.reactFunc m.axis))) ∧
  (∀ (s : State) same, s.sfi.st = .normal → s.sfi.evalCycle = some s.cyc.n → s.sfi.xcmpCycle ≠ some s.cyc.n →
    s.injSlots 0x1D 0 = [] → s.injSlots 0x1E 0 = [] → s.injSlots 0x1E 1 = [] →
    Completes (.sfiCrossCompare true true same) s (fun t =>
      t.sfi.xcmpCycle = some s.cyc.n ∧ t.sfi.txOk = same ∧ t.sfi.st = .normal ∧
      ∀ a, a < 256 → (a ∈ t.sfi.permit ↔ s.sfi.stoOn a = false))) ∧
  (∀ (s : State) agree delivered same, s.sfi.st = .normal → s.sfi.evalCycle = some s.cyc.n → s.sfi.xcmpCycle ≠ some s.cyc.n →
    s.injSlots 0x1D 0 = [] → s.injSlots 0x1E 0 = [] → s.injSlots 0x1E 1 = [] → (agree = false ∨ delivered = false) →
    Completes (.sfiCrossCompare agree delivered same) s (s.islandFaulted 1)) ∧
  (∀ (s : State), s.sfi.st = .normal → s.sfi.scaTick + 3 * s.per ≤ s.now →
    Completes .scaClock s (fun t => s.islandFaulted 2 t ∧ t.sfi.scaOk = false)) ∧
  (∀ (s : State), s.sfi.st = .normal → s.sfi.scbTick + 3 * s.per ≤ s.now →
    Completes .scbClock s (fun t => s.islandFaulted 3 t ∧ t.sfi.scbOk = false)) ∧
  (∀ (s : State) b, s.sfi.st = .normal → Completes (.sfiSupplyTrip b) s (s.islandFaulted (if b = true then 5 else 4))) ∧
  (∀ (s : State) a r, s.sfi.st = .normal → r ∈ s.sfi.stops → r.axis = a → r.done = false → r.since + r.limit * msU ≤ s.now →
    Completes (.ss1Timeout a) s (fun t => t.sfi.stoOn a = true ∧ a ∉ t.sfi.permit ∧ t.sfi.demands = s.sfi.demands)) ∧
  (∀ (s : State) a, a ∈ s.sfi.brakeOff → a ∉ s.sfi.permit → Tab.get 0 s.sfi.permitOff a + (s.safeAxis a).tSbc * msU ≤ s.now →
    Completes (.sbcEngage a) s (fun t => t.sfi.brakeOff = s.sfi.brakeOff.filter (fun b => decide (b ≠ a)) ∧
      t.sfi.permit = s.sfi.permit))

/-- R369, R374, R375, R378, R379, R381: a connection is lost, safe inputs change and disagree, outputs are read back and pulsed,
and SAFE_RESET clears what is latched without an active source. -/
def Obligations.SafeInputsOutputsAndReset : Prop :=
  (∀ (s : State) c d, s.safety.conns[c]? = some d → d.down = false → (s.conn c).started = true → (s.conn c).lost = false →
    (s.conn c).okAt + d.wd * 10 * usU ≤ s.now →
    Completes (.connLost c) s (fun t =>
      (t.conn c).lost = true ∧ (t.conn c).inputs = 0 ∧ (t.conn c).poss = [] ∧ (∀ e, e ≠ c → t.conn e = s.conn e) ∧ t.glb = s.glb)) ∧
  (∀ (s : State) k b lvl, k < 8 →
    (if b = true then (s.safeIn k).bAt else (s.safeIn k).aAt) + (s.safeInDecl k).fIn * (msU / 10) ≤ s.now →
    Completes (.safeInputChange k b lvl) s (fun t =>
      (t.safeIn k).b = (if b = true then lvl else (s.safeIn k).b) ∧ (t.safeIn k).a = (if b = true then (s.safeIn k).a else lvl) ∧
      (∀ j, j ≠ k → t.safeIn j = s.safeIn j) ∧ t.sfi.demands = s.sfi.demands)) ∧
  (∀ (s : State) k u, (s.safeIn k).diffAt = some u → (s.safeInDecl k).used = true → (s.safeIn k).disc = false → s.sfi.st = .normal →
    u + (s.safeInDecl k).tDisc * msU < s.now →
    Completes (.inputDisc k) s (fun t => (t.safeIn k).disc = true ∧ SafeIn.demands (s.safeInDecl k) (t.safeIn k) = true)) ∧
  (∀ (s : State) k b, k < 4 → s.sfi.st = .normal → (s.safety.outs.getD k {}).used = true → (Tab.get {} s.sfi.outs k).on = true →
    Completes (.outReadback k b) s (fun t =>
      (Tab.get {} t.sfi.outs k).on = false ∧ (Tab.get {} t.sfi.outs k).cutOff = true ∧
      ∀ a, a ∈ (s.safety.outs.getD k {}).axes → t.sfi.demanded a (s.reactFunc a))) ∧
  (∀ (s : State) k b, k < 4 → s.sfi.st = .normal → (s.safety.outs.getD k {}).used = true → (Tab.get {} s.sfi.outs k).on = false →
    Completes (.outReadback k b) s (s.islandFaulted 9)) ∧
  (∀ (s : State) k, (Tab.get {} s.sfi.outs k).on = true →
    (Tab.get {} s.sfi.outs k).testAt + (s.safety.outs.getD k {}).testT * secTicks ≤ s.now →
    Completes (.outputTestPulse k true) s (fun t =>
      (Tab.get {} t.sfi.outs k).on = true ∧ (Tab.get {} t.sfi.outs k).testAt = s.now ∧
      t.wire = [.pin (outPin k true) true, .pin (outPin k false) true, .pin (outPin k true) false, .pin (outPin k false) false]
        ++ s.wire) ∧
    (s.sfi.st = .normal → Completes (.outputTestPulse k false) s (s.islandFaulted 9))) ∧
  (∀ (s : State), s.sfi.rstA.level = false → s.sfi.rstA.since + msU ≤ s.now → s.sfi.rstB.level = true → s.sfi.rstB.idleOk = true → s.now ≤ s.sfi.rstB.since + 10 * msU →
    s.sfi.stuck = false → s.sfi.st = .normal → s.sfi.demands.any (fun d => !s.srcActive d) = true →
    Completes (.safeReset false true) s (fun t => t.sfi.rstA.level = true ∧ t.sfi.resetAt = some s.now ∧
      t.sfi.demands = s.sfi.demands.filter (fun d => s.srcActive d && decide (d.src ≠ .breach)) ∧
      ∀ a, a < 256 → (a ∈ t.sfi.permit ↔ t.sfi.stoOn a = false))) ∧
  (∀ (s : State), s.sfi.rstA.level = false → s.sfi.rstA.since + msU ≤ s.now → s.sfi.rstB.level = true → s.sfi.rstB.since + 10 * msU < s.now → s.sfi.stuck = false →
    Completes (.safeReset false true) s (fun t =>
      t.sfi.demands = s.sfi.demands ∧ t.sfi.permit = s.sfi.permit ∧
      t.sfi.cnts.getD 6 0 = if s.sfi.cnts.length ≤ 6 then 0 else min 0xFFFFFFFF (s.sfi.cnts.getD 6 0 + 1))) ∧
  (∀ (s : State) u, s.sfi.resetAt = some u → u + 2000 * msU ≤ s.now → s.sfi.rstA.level = true →
    Completes .resetStuck s (fun t => t.sfi.stuck = true ∧ t.sfi.resetAt = none ∧ t.sfi.demands = s.sfi.demands))

/-! ### Power, resets and the life cycle (R390 to R412) -/

/-- R391 to R394: power-on begins BOOT; each cause of a reset drops ACT, torque permits and every state but flash, and is recorded. -/
def Obligations.ResetsLeaveTheBlockClean : Prop :=
  (∀ (s : State) mv por sel, s.glb.st = .off → s.pem.tHeld = false → 4350 ≤ mv → mv ≤ 19000 →
    Completes (.powerOn mv por sel) s (fun t => t.glb.st = .boot ∧ t.lcu.bootSel = sel % 4 ∧ t.pem.dramPwr = true ∧
      (por = true → t.rd Reg.pemResetCause = 1) ∧ (por = false → t.rd Reg.pemResetCause = s.rd Reg.pemResetCause))) ∧
  (∀ (s : State) mv, s.glb.st ≠ .off → mv < 4200 → Completes (.brownout mv) s (s.switchedOff 2 0)) ∧
  (∀ (s : State) mv, s.glb.st ≠ .off → 20000 < mv → Completes (.overvolt mv) s (s.switchedOff 3 0)) ∧
  (∀ (s : State) r, s.glb.st ≠ .off → 1 ≤ r → r ≤ 3 → Completes (.railReset r) s (s.switchedOff 4 r)) ∧
  (∀ (s : State), s.glb.st ≠ .off → Completes .thermalReset s (fun t => s.switchedOff 5 0 t ∧ t.pem.tHeld = true)) ∧
  (∀ (s : State) sel, s.pem.tHeld = true → Completes (.thermalResetRelease sel) s (fun t =>
    t.glb.st = .boot ∧ t.pem.tHeld = false ∧ t.lcu.bootSel = sel % 4)) ∧
  (∀ (s : State) sel, s.glb.st ≠ .off → Completes (.clockReset sel) s (s.rebooted 6 sel)) ∧
  (∀ (s : State) ns sel, s.glb.st ≠ .off → 1000 ≤ ns → Completes (.pinReset ns sel) s (s.rebooted 7 sel)) ∧
  (∀ (s : State) ns sel, ns < 200 → Completes (.pinReset ns sel) s (fun t => t = s)) ∧
  (∀ (s : State) v sel, s.hostUp = true → fld v 31 16 = 0xA5C3 → bit v 0 = true → Completes (.pemReset v sel) s (s.rebooted 8 sel)) ∧
  (∀ (s : State) u sel, s.lcu.resetAt = some u → u ≤ s.now → Completes (.lifecycleReset sel) s (s.rebooted 9 sel))

/-- R391, R392, R395 to R397, R401: BOOT and WIPE end, VIN is watched, and the ledger admits the head of its queue where it fits. -/
def Obligations.BootSuppliesAndLedger : Prop :=
  (∀ (s : State), s.glb.st = .boot → s.fuses.state ≠ 0 → s.fuses.state ≠ 6 → s.fuses.ok = true →
    Completes (.dramTrainingDone true true) s (fun t => t.glb.st = .wipe ∧ t.rdBit Reg.lcuWipe 31 = true ∧ t.cfl.flash = s.cfl.flash) ∧
    (2 ≤ s.lcu.tries → Completes (.dramTrainingDone true false) s (fun t => t.glb.st = .fault)) ∧
    (s.lcu.tries < 2 → Completes (.dramTrainingDone true false) s (fun t => t.glb.st = .boot ∧ t.lcu.tries = s.lcu.tries + 1)) ∧
    (∀ ok, Completes (.dramTrainingDone false ok) s (fun t => t.glb.st = .fault))) ∧
  (∀ (s : State) sram ok, s.glb.st = .boot → s.fuses.state ≠ 0 → s.fuses.state ≠ 6 → s.fuses.ok = false →
    Completes (.dramTrainingDone sram ok) s (fun t => t.glb.st = .fault)) ∧
  (∀ (s : State) ms, s.glb.st = .wipe →
    Completes (.dramWipeDone true ms) s (fun t => t.dram = [] ∧ t.rdBit Reg.lcuWipe 30 = true ∧
      (s.lcu.bootSel = 3 → t.glb.st = .load ∧ t.cfl.cand = none ∧ t.rdBit Reg.cflStatus 31 = true) ∧
      (s.lcu.bootSel ≠ 3 → ∀ k, s.nextSlot = some k →
        t.glb.st = .load ∧ t.cfl.cand = some { slot := k, bytes := s.cfl.flash.getD k [] }) ∧
      (s.lcu.bootSel ≠ 3 → s.nextSlot = none → t.glb.st = .fault ∧ t.rdFld Reg.lcuBoot 31 28 = 0xF)) ∧
    Completes (.dramWipeDone false ms) s (fun t => t.glb.st = .fault)) ∧
  (∀ (s : State) mv, s.glb.st ≠ .off → mv < 4400 → s.pem.vinLow = false →
    Completes (.vinLow mv) s (fun t => t.pem.vinLow = true ∧ t.rdBit Reg.pemStatus 30 = true ∧ t.rdFld Reg.pemStatus 15 0 = mv ∧
      s.logged 0x0201 [.h mv] t ∧ t.glb.st = if s.glb.st = .run then .degraded else s.glb.st)) ∧
  (∀ (s : State) mv, s.pem.vinLow = true → 4450 ≤ mv → s.pem.vinBadTill ≤ s.now →
    Completes (.vinLowClear mv) s (fun t => t.pem.vinLow = false ∧ t.rdBit Reg.pemStatus 30 = false ∧
      (s.glb.st = .degraded → s.glb.degr = [0x0201] → t.glb.st = .run))) ∧
  (∀ (s : State) mv, s.glb.st ≠ .off → 18500 < mv →
    Completes (.vinHigh mv) s (fun t => t.rdBit Reg.pemStatus 29 = true ∧ t.glb = s.glb ∧ s.logged 0x0202 [.h mv] t)) ∧
  (∀ (s : State) mv ma l rest, s.glb.st ≠ .off → s.pem.evalAt + 10 * usU ≤ s.now → s.pem.ledgerOn = true → (∀ u, s.injSlots 0x1A u = []) →
    (∀ u, s.injSlots 0x19 u = []) → (∀ u, s.injSlots 0x1B u = []) → s.pem.queue = l :: rest →
    Completes (.ledgerEvaluation mv ma) s (fun t => t.pem.evalAt = s.now ∧
      (l.charge + s.qUsed ≤ s.qBudget → (l.row = 2 ∨ l.row = 3) → (16 * l.row + l.index) ∈ t.pem.lanes) ∧
      (s.qBudget < l.charge + s.qUsed → t.pem.queue.length = s.pem.queue.length ∧ t.pem.lanes = s.pem.lanes)))

/-- R398, R399, R402 to R406: encoder outputs ramp, are cut off, latch and retry; a token in LCU_TOKEN is checked and carried out. -/
def Obligations.EncoderOutputsAndTokens : Prop :=
  (∀ (s : State) k u, (s.encOut k).ramp = some u → u + msU ≤ s.now →
    Completes (.encRampEnd k) s (fun t => (t.encOut k).on = true ∧ (t.encOut k).ramp = none ∧ (t.encOut k).onAt = s.now)) ∧
  (∀ (s : State) k, k < 8 → ((s.encOut k).on = true ∨ (s.encOut k).ramp.isSome = true) →
    Completes (.encCut k) s (fun t => (t.encOut k).on = false ∧ (t.encOut k).ramp = none ∧
      ((s.encCuts k).length < s.pem.nRetry → (t.encOut k).retryAt = some (s.now + 100 * msU)) ∧
      (s.pem.nRetry ≤ (s.encCuts k).length → t.encLatched k = true ∧ (t.encOut k).retryAt = none))) ∧
  (∀ (s : State) k u, (s.encOut k).retryAt = some u → u ≤ s.now →
    Completes (.encRetryDue k) s (fun t => (t.encOut k).retryAt = none ∧ t.asked 1 k)) ∧
  (∀ (s : State) mv, s.glb.st ≠ .off → 5900 < mv →
    Completes (.encOvervolt mv) s (fun t =>
      ∀ k, k < 8 → (s.encOut k).enabled = true → (t.encOut k).on = false ∧ t.encLatched k = true)) ∧
  (∀ (s : State) ma, s.glb.st ≠ .off → 1200 < ma →
    Completes (.encTotal ma) s (fun t => s.logged 0x0208 [.h ma] t ∧ t.pem = s.pem ∧ t.glb = s.glb)) ∧
  (∀ (s : State) v k, s.hostUp = true → k < 8 → bit v k = true → s.encLatched k = true → (s.encOut k).enabled = true →
    Completes (.encRetry v) s (fun t => t.encLatched k = false ∧ t.asked 1 k)) ∧
  (∀ (s : State), s.hostUp = true → leAt s.token 4 1 = 1 →
    Completes .tokenTransition s (fun t =>
      t.rd Reg.lcuTokenResult = w32 (s.tokenCheck s.token) ∧ (∀ n, n < 52 → t.rd (Reg.lcuToken n) = 0) ∧
      t.fuses = (if s.tokenCheck s.token = 0 then s.fuses.transition (leAt s.token 5 1) (beAt s.token 48 32) else s.fuses) ∧
      (s.tokenCheck s.token = 0 → t.lcu.resetAt = some (s.now + msU)))) ∧
  (∀ (s : State) op, s.hostUp = true → (op = 2 ∨ op = 3) → leAt s.token 4 1 = op →
    Completes (if op = 2 then .tokenKeyAdd else .tokenKeyRevoke) s (fun t =>
      t.rd Reg.lcuTokenResult = w32 (s.tokenCheck s.token) ∧ (∀ n, n < 52 → t.rd (Reg.lcuToken n) = 0) ∧ t.fuses = s.fuses ∧
      t.lcu.keyPend = if s.tokenCheck s.token = 0 then s.lcu.keyPend ++ [(op, leAt s.token 5 1, beAt s.token 48 32)]
        else s.lcu.keyPend))

/-! ### Configuration images (R413 to R433) -/

/-- R407, R420, R421, R424: a candidate is read and verified; it takes effect and the controller discovers, or it is refused with
its code and the next one follows. -/
def Obligations.CandidatesAreReadAndVerified : Prop :=
  (∀ (s : State) c, s.cfl.cand = some c → s.glb.st = .load → c.read = false →
    Completes .imageReadDone s (fun t => t.glb.st = .verify ∧ t.cfl.cand = some { c with read := true } ∧
      (4 ≤ c.slot → t.dram = s.dram) ∧
      (c.slot < 4 → ∀ a, a < c.bytes.length → a < s.dramSize → t.dramByte a = c.bytes.getD a 0))) ∧
  (∀ (s : State) c body told, s.cfl.cand = some c → c.slot ≤ 5 → s.glb.st = .verify → s.fuses.noConfig = false →
    Completes (.imageVerifyDone body told) s (fun t =>
      (imageChecks s.fuses false c.bytes body.firm = none → lineChecks s.dramSize body.line (toldChecks told) = none →
        t.glb.st = .discover ∧ t.glb.opened = true ∧ t.cfl.cand = none ∧ t.cfl.body = body ∧ t.cfl.image = c.bytes ∧
        t.cfl.loaded = true ∧ t.pem.ledgerOn = true ∧ t.elg.running = true) ∧
      (∀ r, imageChecks s.fuses false c.bytes body.firm = some r ∨
          (imageChecks s.fuses false c.bytes body.firm = none ∧ lineChecks s.dramSize body.line (toldChecks told) = some r) →
        (t.glb.st = .load ∨ t.glb.st = .fault) ∧ t.rdFld Reg.cflRefuse 31 24 = r.code % 256 ∧ t.cfl.body = s.cfl.body ∧
        (s.lcu.bootSel ≠ 3 → ∀ k, s.nextSlot = some k →
          t.glb.st = .load ∧ t.cfl.cand = some { slot := k, bytes := s.cfl.flash.getD k [] }))))

/-- R427, R428: an image is adopted or refused, an adoption runs out, the lantern sends its image; flash is programmed only in
service mode, and an operation ends with its RESULT. -/
def Obligations.AdoptionAndFlash : Prop :=
  (∀ (s : State) body told bs, s.cfl.adopting = true → s.glb.st = .sync → joinFrags s.cfl.adoptTotal s.cfl.adoptGot = some bs →
    Completes (.imageAdopted body told) s (fun t => t.cfl.adopting = false ∧ t.cfl.flash = s.cfl.flash ∧
      (imageChecks s.fuses false bs body.firm = none → lineChecks s.dramSize body.line (toldChecks told) = none →
        idChecks bs body s.glb.id (toldChecks told) = none →
        t.glb.st = .load ∧ t.cfl.cand = some { slot := 5, bytes := bs } ∧
          t.rdBit Reg.cflStatus 28 = !s.rdBit Reg.cflStatus 28) ∧
      (∀ r, imageChecks s.fuses false bs body.firm = some r →
        t.glb.st ≠ .load ∧ t.cfl.cand = s.cfl.cand ∧ t.cfl.barred = s.lanternMember.map (·.candle)))) ∧
  (∀ (s : State), s.cfl.adopting = true → s.cfl.adoptAt + 10 * secTicks ≤ s.now →
    Completes .adoptTimeout s (fun t => t.cfl.adopting = false ∧ t.rdFld Reg.cflRefuse 31 24 = 0x24 ∧
      t.cfl.barred = s.lanternMember.map (·.candle))) ∧
  (∀ (s : State) id, s.isLantern = true → s.cfl.loaded = true →
    Completes (.adoptionRequest id) s (fun t => t.cfl = s.cfl ∧ t.wire.length = s.wire.length + fragCount s.cfl.image ∧
      ∀ k, k < fragCount s.cfl.image →
        WireOut.epoch 5 [id, k, fragCount s.cfl.image] (fragOf s.cfl.image k) ∈ t.wire)) ∧
  (∀ (s : State) xb slotB firm, s.hostUp = true → s.cfl.flashOp = none →
    Completes (.flashProgramSlot xb slotB firm) s (fun t =>
      t.cfl.flashOp = some (s.flashCheck true firm).1 ∧ t.cfl.flashTo = b2n xb * 4 + b2n slotB ∧ t.rdBit Reg.cflFlashCtrl 30 = true ∧
      t.cfl.flash = s.cfl.flash ∧ (s.rdBit Reg.cflStatus 31 = false → t.cfl.flashOp = some 1))) ∧
  (∀ (s : State) xb, s.hostUp = true → s.cfl.flashOp = none →
    Completes (.flashErasePeer xb) s (fun t => t.cfl.flashTo = b2n xb * 4 + 2 ∧ t.rdBit Reg.cflFlashCtrl 30 = true ∧
      t.cfl.flashOp = some (if s.rdBit Reg.cflStatus 31 = true then 0 else 1) ∧ t.cfl.peers = s.cfl.peers)) ∧
  (∀ (s : State) left xb slotB, s.cfl.flashOp = some 0 → s.cfl.flashTo = b2n xb * 4 + b2n slotB →
    s.cfl.flash.length = 4 →
    Completes (.flashDone 0 left) s (fun t => t.cfl.flashOp = none ∧ t.rdBit Reg.cflFlashCtrl 30 = false ∧
      t.rdFld Reg.cflFlashCtrl 7 0 = 0 ∧ ∀ k, k < 4 → t.cfl.flash.getD k [] =
        if k = 2 * b2n xb + b2n slotB then s.flashImage else s.cfl.flash.getD k [])) ∧
  (∀ (s : State) fail left r, s.cfl.flashOp = some r → r ≠ 0 → r ≤ 6 →
    Completes (.flashDone fail left) s (fun t => t.cfl.flashOp = none ∧ t.rdFld Reg.cflFlashCtrl 7 0 = r ∧
      t.cfl.flash = s.cfl.flash ∧ t.cfl.peers = s.cfl.peers))

/-! ### The host interface, mailboxes and the event router (R434 to R456) -/

/-- R4 to R7, R26, R28, R437 to R440: the host writes and reads registers, read-clear and held words, and DRAM through BAR2;
accesses of another size, or outside the window's range, are refused and recorded. -/
def Obligations.BarsAreReadAndWritten : Prop :=
  (∀ (s : State) a v b, a % 4 = 0 → a < 0x400000 → s.reach a = true → s.plainlyWritten a v → bankOf a = some b → b.wo = 0 →
    Completes (.registerWrite a v) s (fun t => t.rd a = b.put (s.rd a) v ∧ ∀ e, e ≠ a → t.rd e = s.rd e)) ∧
  (∀ (s : State) a v, a % 4 = 0 → a < 0x400000 → s.reach a = false → Completes (.registerWrite a v) s (fun t => t = s)) ∧
  (∀ (s : State) a, a % 4 = 0 → a < 0x400000 → s.reach a = true → s.plainRead a →
    Completes (.holdingRegisterRead a) s (fun t => t = s.send (.bar0 a (s.peek a)))) ∧
  (∀ (s : State) a, a % 4 = 0 → a < 0x400000 → s.reach a = true → holdLo a = true → s.claimRead a = none → s.rcRead a 0 = none →
    Completes (.holdingRegisterRead a) s (fun t =>
      t.wire = .bar0 a (s.peek a) :: s.wire ∧ Tab.get 0 t.glb.hold (holdKey a) = s.peek (a + 4) ∧ t.regs = s.regs)) ∧
  (∀ (s : State), s.hostUp = true →
    Completes (.holdingRegisterRead Reg.glbCycleHi) s (fun t =>
      t = s.send (.bar0 Reg.glbCycleHi (Tab.get 0 s.glb.hold (holdKey Reg.glbCycleLo))))) ∧
  (∀ (s : State) a b inc, a % 4 = 0 → a < 0x400000 → s.reach a = true → s.claimRead a = none → regIdx a (Reg.evrSrcCnt 0) 8 512 = none →
    bankOf a = some b → b.rc ≠ 0 →
    Completes (.rcCounterRead a inc) s (fun t => t.wire = .bar0 a (s.rd a) :: s.wire ∧
      t.rd a = ((s.rd a &&& ~~~BitVec.ofNat 32 b.rc) ||| rcAfter a inc) ∧ ∀ e, e ≠ a → t.rd e = s.rd e)) ∧
  (∀ (s : State) w off size, bar0Good off size = false → off < 0x400000 → s.hostUp = true →
    Completes (.bar0BadAccess w off size) s (fun t => t.rd Reg.mbxBar0ErrCnt = satAdd (s.rd Reg.mbxBar0ErrCnt) 1 ∧
      t.rd Reg.mbxLastBarErr = w32 (b2n w * 2 ^ 30 + off) ∧ s.logged 0x1201 [.h 0, .h (b2n w), .w off] t ∧
      t.wire = if w = true then s.wire else .bar0 off 0 :: s.wire)) ∧
  (∀ (s : State) off len, s.hostUp = true → off + len ≤ 2 ^ 28 → s.bar2Closed = false → s.bar2Bad off len = false →
    s.injSlots 3 0 = [] → s.injSlots 4 0 = [] → s.hlm.badWords = [] →
    Completes (.bar2Access off len none none) s (fun t =>
      t = s.send (.bar2 (s.dramRead (s.bar2Addr off) len) false))) ∧
  (∀ (s : State) off len bs, s.hostUp = true → off + bs.length ≤ 2 ^ 28 → s.bar2Closed = false → s.bar2Bad off bs.length = false →
    Completes (.bar2Access off len (some bs) none) s (fun t =>
      (∀ k, k < bs.length → t.dramByte (s.bar2Addr off + k) = bs.getD k 0) ∧
      (∀ e, (e < s.bar2Addr off ∨ s.bar2Addr off + bs.length ≤ e) → t.dramByte e = s.dramByte e) ∧ t.regs = s.regs)) ∧
  (∀ (s : State) off len, s.hostUp = true → off + len ≤ 2 ^ 28 → s.bar2Closed = false → s.bar2Bad off len = true →
    Completes (.bar2Access off len none none) s (fun t => t.rd Reg.mbxBar2ErrCnt = satAdd (s.rd Reg.mbxBar2ErrCnt) 1 ∧
      t.wire = .bar2 (List.replicate len 0) false :: s.wire ∧ t.dram = s.dram))

/-- R434 to R436, R441, R442, R449 to R453: sources arrive, are masked, claimed lowest first and completed; messages are sent or
held; PERST_N resets the endpoint alone. -/
def Obligations.SourcesAreClaimedAndCompleted : Prop :=
  (∀ (s : State) n, srcDriven n = true → (s.src n).input = false → (s.src n).sense ≠ .falling → (s.src n).arrivals < 254 →
    Completes (.sourceArrival n true) s (fun t =>
      (t.src n).pending = true ∧ (t.src n).arrivals = (s.src n).arrivals + 1 ∧ (t.src n).input = true)) ∧
  (∀ (s : State) w v, s.hostOpen = true → w < 16 →
    Completes (.maskSet w v) s (fun t => ∀ n, (srcNamed w v n → (t.src n).masked = true) ∧ (¬ srcNamed w v n → t.src n = s.src n)) ∧
    Completes (.maskClr w v) s (fun t => ∀ n, (srcNamed w v n → (t.src n).masked = false) ∧ (¬ srcNamed w v n → t.src n = s.src n)) ∧
    Completes (.pendClr w v) s (fun t => ∀ n, (srcNamed w v n → (s.src n).sense ≠ .level → (t.src n).pending = false) ∧
      (¬ srcNamed w v n → t.src n = s.src n)) ∧
    ((∀ n, (s.src n).arrivals ≠ 254) → Completes (.pendSet w v) s (fun t => ∀ n,
      (srcNamed w v n → (t.src n).pending = true ∧ (t.src n).arrivals = min 255 ((s.src n).arrivals + 1)) ∧
      (¬ srcNamed w v n → t.src n = s.src n)))) ∧
  (∀ (s : State) k n x, s.hostOpen = true → k < 4 → (n, x) ∈ s.evr.srcs → x.eligible k = true →
    (∀ p, p ∈ s.evr.srcs → p.2.eligible k = true → n ≤ p.1) →
    Completes (.claimSrc k) s (fun t => t.wire = .bar0 (Reg.evrClaim k) (w32 n) :: s.wire ∧
      (t.src n).active = true ∧ (t.src n).owner = k ∧ ∀ m, m ≠ n → t.src m = s.src m)) ∧
  (∀ (s : State) k, s.hostOpen = true → k < 4 → (∀ p, p ∈ s.evr.srcs → p.2.eligible k = false) →
    Completes (.claimSrc k) s (fun t => t.wire = .bar0 (Reg.evrClaim k) 0x3FF :: s.wire ∧
      t.rd (Reg.evrSpuriousCnt k) = satAdd (s.rd (Reg.evrSpuriousCnt k)) 1 ∧ t.evr = s.evr)) ∧
  (∀ (s : State) k v n x, s.hostOpen = true → k < 4 → v < 8 → (n, x) ∈ s.evr.srcs → x.eligible k = true → x.vec = v →
    (∀ p, p ∈ s.evr.srcs → p.2.eligible k = true → p.2.vec = v → n ≤ p.1) →
    Completes (.claimByVector k v) s (fun t => t.wire = .bar0 (Reg.evrClaimV k v) (w32 n) :: s.wire ∧
      (t.src n).active = true ∧ (t.src n).owner = k ∧ ∀ m, m ≠ n → t.src m = s.src m)) ∧
  (∀ (s : State) k v, s.hostOpen = true → k < 4 →
    (fld v 9 0 ≤ 0x1FF → (s.src (fld v 9 0)).active = true → (s.src (fld v 9 0)).owner = k →
      Completes (.completeSrc k v) s (fun t => (t.src (fld v 9 0)).active = false ∧
        (t.src (fld v 9 0)).pending = (if (s.src (fld v 9 0)).sense = .level then (s.src (fld v 9 0)).input
          else (s.src (fld v 9 0)).pending))) ∧
    (fld v 9 0 ≠ 0x3FF → s.completeBad k (fld v 9 0) ≠ none →
      Completes (.completeSrc k v) s (fun t => t.rd Reg.evrBadCompleteCnt = satAdd (s.rd Reg.evrBadCompleteCnt) 1 ∧
        (t.src (fld v 9 0)).active = (s.src (fld v 9 0)).active)) ∧
    (fld v 9 0 = 0x3FF → Completes (.completeSrc k v) s (fun t => t = s))) ∧
  (∀ (s : State) v, s.evr.due.contains v = true →
    (s.msixHeld v = false → Completes (.msixMessage v) s (fun t => t.wire = .msix v :: s.wire ∧ t.evr.due = s.evr.due.erase v)) ∧
    (s.msixHeld v = true → Completes (.msixMessage v) s (fun t =>
      t.wire = s.wire ∧ t.evr.due = s.evr.due.erase v ∧ t.evr.pba.contains v = true))) ∧
  (∀ (s : State) v, s.evr.due.contains v = false → s.evr.pba.contains v = true → s.msixHeld v = false →
    Completes (.msixMessage v) s (fun t => t.wire = .msix v :: s.wire ∧ t.evr.pba.contains v = false)) ∧
  (∀ (s : State), Completes .perstN s (fun t => t.pcie = {} ∧ t.evr.due = [] ∧ (∀ v, v < 32 → t.rd (Reg.msixCtl v) = 1) ∧
    t.evr.srcs = s.evr.srcs ∧ t.mbx = s.mbx ∧ t.glb = s.glb ∧ t.rd Reg.mbxDbOut = s.rd Reg.mbxDbOut)) ∧
  (∀ (s : State) up sp wd, s.glb.st ≠ .off → s.pcie.linkUp = (!up) →
    Completes (.pcieLink up sp wd) s (fun t => t.pcie.linkUp = up ∧ t.glb = s.glb ∧
      (1 ≤ sp → sp ≤ 3 → 1 ≤ wd → wd ≤ 2 → up = true → t.pcie.speed = sp ∧ t.pcie.width = wd ∧
        s.logged 0x1203 [.h 1, .h sp, .h wd] t))) ∧
  (∀ (s : State) w, s.glb.st ≠ .off → Completes (.pcieConfigWrite w) s (fun t => t.pcie = s.pcie.put w ∧ t.glb = s.glb ∧ t.regs = s.regs))

/-- R443 to R447: a message is posted, taken, served and released; every operation of channels 0 to 5 and 7 ends with its code. -/
def Obligations.MailboxesServeTheirOperations : Prop :=
  (∀ (s : State) c, s.hostOpen = true → c < 8 → s.mbHost c = true → (s.mbChan c).st = .idle →
    Completes (.postMsg c) s (fun t => (t.mbChan c).st = .posted ∧ (t.mbChan c).op = leAt (s.mbBuf c) 0 1 ∧
      t.rdBit Reg.mbxDbIn c = true)) ∧
  (∀ (s : State) c, s.hostOpen = true → c < 8 → (s.mbHost c = false ∨ (s.mbChan c).st ≠ .idle) →
    Completes (.postMsg c) s (fun t => t.mbx = s.mbx ∧ t.rd Reg.mbxProtoErrCnt = satAdd (s.rd Reg.mbxProtoErrCnt) 1 ∧
      s.logged 0x1202 [.h c, .h (if s.mbHost c = true then 2 else 1)] t)) ∧
  (∀ (s : State) c, s.hostOpen = true → c < 8 → s.mbHost c = true → (s.mbChan c).st = .acked →
    Completes (.releaseMsg c) s (fun t => (t.mbChan c).st = .idle ∧ (t.mbChan c).ackValid = false ∧
      t.rdBit Reg.mbxDbOut c = false ∧ t.mbBuf c = s.mbBuf c)) ∧
  (∀ (s : State) c, c < 8 → (s.mbChan c).st = .posted →
    Completes (.mailboxTake c) s (fun t => t.rdBit Reg.mbxDbIn c = false ∧
      (s.mbFits c = true → (t.mbChan c).st = .busy) ∧ (s.mbFits c = false → t.acked c Stat.badParam))) ∧
  (∀ (s : State) c, c < 4 → s.mbServes c 1 = true → Completes (.echoOp c) s (fun t => t.acked c Stat.ok ∧ t.mbBuf c = s.mbBuf c)) ∧
  (∀ (s : State) c, c < 4 → s.mbServes c 2 = true → (s.glb.role = .lit ∨ s.glb.role = .alone) → s.wks.taken.length < 1024 →
    Completes (.workOp c) s (fun t => (t.mbChan c).st = .busy ∧ (t.mbChan c).waitItem = true ∧
      t.wks.nextSeq = s.wks.nextSeq + 1)) ∧
  (∀ (s : State) c, c < 4 → s.mbServes c 2 = true → s.glb.role ≠ .lit → s.glb.role ≠ .alone →
    Completes (.workOp c) s (fun t => t.acked c Stat.wrongState ∧ t.wks = s.wks)) ∧
  (∀ (s : State) c n, c < 4 → s.mbServes c 3 = true → n = leAt (s.mbBuf c) 4 1 → 1 ≤ n → n ≤ 60 →
    (∀ k, k < n → s.sigRead (leAt (s.mbBuf c) (8 + 4 * k) 4) ≠ none) →
    Completes (.signalRead c) s (fun t => t.acked c Stat.ok ∧
      ∀ k x, k < n → s.sigRead (leAt (s.mbBuf c) (8 + 4 * k) 4) = some x → leAt (t.mbBuf c) (12 + 4 * k) 4 = x.toNat)) ∧
  (∀ (s : State) c k, c < 4 → s.mbServes c 3 = true → k < leAt (s.mbBuf c) 4 1 → s.sigRead (leAt (s.mbBuf c) (8 + 4 * k) 4) = none →
    Completes (.signalRead c) s (fun t => t.acked c Stat.badParam)) ∧
  (∀ (s : State) c, c < 4 → s.mbServes c 4 = true → Completes (.infoOp c) s (fun t => t.acked c Stat.ok ∧
    leAt (t.mbBuf c) 9 1 = s.glb.id % 256 ∧ leAt (t.mbBuf c) 10 1 = s.glb.role.code % 256)) ∧
  (∀ (s : State), s.mbServes 4 0x10 = true → s.paired = true → s.twu.link = true →
    Completes .twinSend s (fun t => (t.mbChan 4).waitSend = true ∧
      t.wire = .epoch 0x25 [0, 0] (((s.mbBuf 4).drop 4).take (s.mbLen 4)) :: s.wire)) ∧
  (∀ (s : State) d, s.mbServes 5 0x11 = true → d = leAt (s.mbBuf 5) 4 1 → d < 64 → leAt (s.mbBuf 5) 5 3 = 0 → d ≠ s.glb.id →
    s.fbr.known.contains d = true → s.rdBit (Reg.fbrRoute d) 31 = true →
    Completes .fabricSend s (fun t => (t.mbChan 5).waitSend = true ∧
      t.wire = .epoch 0x14 [d, 0, 0] (((s.mbBuf 5).drop 8).take (s.mbLen 5 - 4)) :: s.wire)) ∧
  (∀ (s : State) c, (c = 4 ∨ c = 5) → (s.mbChan c).st = .busy → (s.mbChan c).waitSend = true → (s.mbChan c).sentAt + 100 * msU ≤ s.now →
    Completes (if c = 4 then .twinSend else .fabricSend) s (fun t => t.acked c Stat.timeout)) ∧
  (∀ (s : State) f code bytes, s.fbr.links.any id = true → s.glb.idValid = true → f < 64 → f ≠ s.glb.id →
    ((s.mbChan 5).waitSend = true → (s.mbChan 5).st = .busy →
      Completes (.fabricMsg f true code bytes) s (fun t => t.acked 5 code)) ∧
    (leAt bytes 0 1 ≠ 0xE0 → s.fabOrigin = true →
      Completes (.fabricMsg f false code bytes) s (fun t => t.wire.head? =
        some (.epoch 0x14 [f, 1, if (s.ringMsg 2 f bytes).1 = true then Stat.ok else Stat.queueFull] [])))) ∧
  (∀ (s : State) a n, s.svcFree → Completes (.diagRead a n) s (fun t => t.acked 7 Stat.ok ∧
    ∃ bs, t.wire.head? = some (.service bs) ∧ bs.length = 4 * min n 63)) ∧
  (∀ (s : State) n, s.svcFree → s.mbx.logCur + n ≤ (s.rd Reg.elgWrIdx).toNat → n ≤ 7 →
    Completes (.logRead n) s (fun t => t.acked 7 Stat.ok ∧ t.mbx.logCur = s.mbx.logCur + n)) ∧
  (∀ (s : State) token, s.svcFree → s.svcFull = true →
    Completes (.tokenCmd token) s (fun t => t.acked 7 Stat.ok ∧ ∀ n, n < 52 → t.rd (Reg.lcuToken n) = 0)) ∧
  (∀ (s : State) fl tg firm, s.svcFree → s.svcFull = true → tg ≤ 2 → s.cfl.flashOp = none →
    Completes (.flashCmd fl tg firm) s (fun t => t.acked 7 Stat.ok ∧ t.cfl.flashOp.isSome = true ∧ t.cfl.flashTo = fl % 2 * 4 + tg)) ∧
  (∀ (s : State) fl tg firm token, s.svcFree → s.svcFull = false →
    Completes (.flashCmd fl tg firm) s (fun t => t.acked 7 Stat.notPermitted ∧ t.cfl = s.cfl) ∧
    Completes (.tokenCmd token) s (fun t => t.acked 7 Stat.notPermitted ∧ t.fuses = s.fuses ∧ t.lcu = s.lcu))

/-- R385, R448, R511: requests for safety functions, doorbells and the health report. -/
def Obligations.SafetyRequestsDoorbellsAndReports : Prop :=
  (∀ (s : State) f axes, s.mbServes 6 1 = true → s.safeMsg (s.mbBuf 6) = some (f, axes) →
    Completes (.demandReq none) s (fun t => t.acked 6 Stat.ok ∧ t.sfi.permit = s.sfi.permit ∧ ∀ a, a ∈ axes → t.sfi.demanded a f)) ∧
  (∀ (s : State), s.mbServes 6 1 = true → s.safeMsg (s.mbBuf 6) = none →
    Completes (.demandReq none) s (fun t => t.acked 6 Stat.badParam ∧ t.sfi = s.sfi)) ∧
  (∀ (s : State) m f axes, s.safeSrc = 4 → (s.mbChan 6).st = .idle → (s.mbChan 6).waitItem = false → (s.mbChan 6).waitSend = false →
    m.length = 36 → leAt m 0 1 = 1 → s.safeMsg m = some (f, axes) →
    Completes (.demandReq (some m)) s (fun t => t.acked 6 Stat.ok ∧ ∀ a, a ∈ axes → t.sfi.demanded a f)) ∧
  (∀ (s : State) f axes, s.mbServes 6 2 = true → s.safeMsg (s.mbBuf 6) = some (f, axes) →
    Completes (.withdrawReq none) s (fun t => t.acked 6 Stat.ok ∧ t.sfi.demands = s.sfi.demands ∧
      t.sfi.hostReq = s.sfi.hostReq.filter (fun d => !(decide (d.func = f) && axes.contains d.axis)))) ∧
  (∀ (s : State) r, s.hostOpen = true → r < 16 →
    Completes (.kickRing r) s (fun t => t.rdBit Reg.mbxDbIn (8 + r) = true ∧ ∀ a, a ≠ Reg.mbxDbIn → t.rd a = s.rd a)) ∧
  (∀ (s : State) v, s.hostOpen = true →
    Completes (.dbOutSet v) s (fun t => t.rd Reg.mbxDbOut = (s.rd Reg.mbxDbOut ||| (v &&& 0xFFFFFF00#32))) ∧
    Completes (.dbOutClr v) s (fun t => t.rd Reg.mbxDbOut = (s.rd Reg.mbxDbOut &&& ~~~(v &&& 0xFFFFFF00#32)))) ∧
  (∀ (s : State), s.cyc.running = true → s.cyc.n % 1024 = 0 → s.hlm.reportAt ≠ some s.cyc.n →
    Completes .healthReport s (fun t => t.hlm.reportAt = some s.cyc.n ∧
      ∀ k, k < 16 → t.rd (Reg.hlmReport k) = (bytesWords 16 s.healthBytes).getD k 0))

/-! ### Rings and work (R457 to R476, R507) -/

/-- R458, R460, R464, R467, R469: the host moves ring indices; WKS takes an item, prepares it on a free core, stages it, and writes
its completion. -/
def Obligations.RingsCarryWorkItems : Prop :=
  (∀ (s : State) r v, s.hostOpen = true → r < 16 → s.ringRole r = 1 →
    ((v - s.rd (Reg.wksRingCons r)).toNat ≤ s.ringSize r →
      Completes (.prodWrite r v) s (fun t => t.rd (Reg.wksRingProd r) = v ∧ t.rd (Reg.wksRingCons r) = s.rd (Reg.wksRingCons r))) ∧
    (s.ringSize r < (v - s.rd (Reg.wksRingCons r)).toNat →
      Completes (.prodWrite r v) s (fun t => t.rd (Reg.wksRingProd r) = s.rd (Reg.wksRingProd r) ∧
        t.rd Reg.wksRingErrCnt = satAdd (s.rd Reg.wksRingErrCnt) 1 ∧ s.logged 0x1401 [.h r, .h 1] t))) ∧
  (∀ (s : State) r v, s.hostOpen = true → r < 16 → 2 ≤ s.ringRole r →
    ((s.rd (Reg.wksRingProd r) - v).toNat ≤ (s.rd (Reg.wksRingProd r) - s.rd (Reg.wksRingCons r)).toNat →
      Completes (.consWrite r v) s (fun t => t.rd (Reg.wksRingCons r) = v ∧
        (s.ringRole r ≠ 3 → t.rd (Reg.wksRingProd r) = s.rd (Reg.wksRingProd r)))) ∧
    ((s.rd (Reg.wksRingProd r) - s.rd (Reg.wksRingCons r)).toNat < (s.rd (Reg.wksRingProd r) - v).toNat →
      Completes (.consWrite r v) s (fun t => t.rd (Reg.wksRingCons r) = s.rd (Reg.wksRingCons r) ∧
        t.rd Reg.wksRingErrCnt = satAdd (s.rd Reg.wksRingErrCnt) 1))) ∧
  (∀ (s : State) r, r < 16 → (∀ q, q < 16 → (s.ringRole q = 1 ↔ q = r)) → (∀ q, q < 16 → s.ringRole q ≠ 2) → s.wks.stalled = [] →
    (s.glb.role = .lit ∨ s.glb.role = .alone) → s.rdBit Reg.mbxDbIn (8 + r) = true → s.ringFill r = 1 → s.wks.taken.length < 1024 →
    (∀ c, s.preparing c = none) → s.injSlots 3 0 = [] → s.injSlots 4 0 = [] → s.hlm.badWords = [] →
    Completes .itemTake s (fun t => t.rd (Reg.wksRingCons r) = s.rd (Reg.wksRingCons r) + 1 ∧ t.rdBit Reg.mbxDbIn (8 + r) = false ∧
      t.wks.nextSeq = s.wks.nextSeq + 1 ∧ t.wks.takeAll = false ∧
      t.wks.taken.any (fun u => decide (u.seq = s.wks.nextSeq ∧ u.item = itemOf r (s.rd (Reg.wksRingCons r)).toNat
        (s.dramRead (s.ringAddr r (s.rd (Reg.wksRingCons r)).toNat) 64))) = true)) ∧
  (∀ (s : State) c u, s.coresReady.contains c = true → s.preparing c = none → s.nextReady = some u → s.injSlots 1 2 = [] → s.injSlots 2 2 = [] →
    Completes (.itemPrepare c) s (fun t => (t.preparing c).isSome = true ∧ t.wks.taken.length = s.wks.taken.length ∧
      ∀ x, x ∈ t.wks.taken → x.seq = u.seq → x.stage = .preparing c s.clk)) ∧
  (∀ (s : State) c u, s.preparing c = some u → u.item.prepare = none → (u.item.opcode ≠ Opc.axisCreate ∨ s.desc? (hIdx u.item.handle) ≠ none) →
    (u.item.dueKind = 0 → Completes (.itemStage c) s (fun t =>
      ∀ x, x ∈ t.wks.taken → x.seq = u.seq → x.stage = .staged s.firstBoundary)) ∧
    (u.item.dueKind = 1 → u.item.due ≤ u.takeCycle + 2 ^ 31 → s.delayed.length < 4096 → Completes (.itemStage c) s (fun t =>
      ∀ x, x ∈ t.wks.taken → x.seq = u.seq → x.stage = .delayed (max u.item.due s.firstBoundary) ∧
        x.dueLate = decide (u.item.due < s.firstBoundary))) ∧
    (u.item.dueKind = 2 → s.handleCheck [2] u.item.dueLa = none → s.heldItems.length < 64 → Completes (.itemStage c) s (fun t =>
      ∀ x, x ∈ t.wks.taken → x.seq = u.seq → x.stage = .heldLau))) ∧
  (∀ (s : State) c u status, s.preparing c = some u → u.item.prepare = some status →
    Completes (.itemStage c) s (fun t => (∀ x, x ∈ t.wks.taken → x.seq ≠ u.seq) ∧
      (u.item.origin < 0x100 → t.wks.waiting.any (fun e => decide (e.seq = u.seq ∧ e.status = status)) = true))) ∧
  (∀ (s : State) e, s.wks.waiting.find? s.entryReady = some e → e.ring < 16 →
    Completes .completionWrite s (fun t => t.rd (Reg.wksRingProd e.ring) = s.rd (Reg.wksRingProd e.ring) + 1 ∧
      t.wks.waiting = s.wks.waiting.erase e ∧
      (s.ringAddr e.ring (s.rd (Reg.wksRingProd e.ring)).toNat + 64 ≤ s.dramSize → ∀ k, k < 64 →
        t.dramByte (s.ringAddr e.ring (s.rd (Reg.wksRingProd e.ring)).toNat + k) = (padTo 64 e.bytes).getD k 0))) ∧
  (∀ (s : State) e c, s.wks.waiting.find? s.entryReady = some e → e.ring = 0x80 + c → c < 4 → (s.mbChan c).st = .busy →
    Completes .completionWrite s (fun t => t.wks.waiting = s.wks.waiting.erase e ∧ t.acked c e.status))

/-- R339, R468, R473, R507: SIGNAL_WRITE writes all its pairs or none, LOG_MARK logs, SPARE_TEST tests, rotates and returns a unit,
and the pilot serves what the lit twin forwards without a completion. -/
def Obligations.SignalsMarksSparesAndForwardedItems : Prop :=
  (∀ (s : State) it, ItemTaken s Opc.signalWrite it → (∀ k, k < it.u 20 1 → s.signalBad (itemPair it k).1 = none) →
    Completes (.signalWrite it) s (fun t => s.answered it Stat.ok t ∧
      ∀ k, k < it.u 20 1 → (∀ j, k < j → j < it.u 20 1 → (itemPair it j).1 % 16384 ≠ (itemPair it k).1 % 16384) →
        Tab.get 0 t.sigs ((itemPair it k).1 % 16384) = (itemPair it k).2 ∧
          Tab.get 0 t.sigPrev ((itemPair it k).1 % 16384) = (itemPair it k).2)) ∧
  (∀ (s : State) it k, ItemTaken s Opc.signalWrite it → k < it.u 20 1 → s.signalBad (itemPair it k).1 ≠ none →
    Completes (.signalWrite it) s (fun t => t.sigs = s.sigs ∧ t.sigPrev = s.sigPrev)) ∧
  (∀ (s : State) it, ItemTaken s Opc.logMark it →
    Completes (.logMark it) s (fun t => s.answered it Stat.ok t ∧ s.logged 0x1404 [.w (it.u 20 4), .h it.origin] t)) ∧
  (∀ (s : State) it kind i, ItemTaken s Opc.spareTest it → it.u 21 1 = kind → it.u 22 1 = i → (kind = 1 ∧ i < 18 ∨ kind = 2 ∧ i < 5) →
    s.spareBusy kind = false → (∀ b, b ∈ it.args.drop 3 → b = 0) →
    (it.u 20 1 = 1 → s.unitSt kind i = .spare → Completes (.spareTestTest it) s (fun t =>
      t.unitSt kind i = .test ∧ s.answered it Stat.deferred t)) ∧
    (it.u 20 1 = 2 → s.unitSt kind i = .inService → s.unitsIn kind .spare ≠ [] → Completes (.spareTestRotate it) s (fun t =>
      t.hlm.bringIns = s.hlm.bringIns ++ [{ kind := kind, replaces := i, rotate := true }] ∧ t.unitSt kind i = .inService ∧
      s.answered it Stat.deferred t)) ∧
    (it.u 20 1 = 3 → s.unitSt kind i = .out → Completes (.spareTestReturn it) s (fun t =>
      t.unitSt kind i = .test ∧ s.answered it Stat.deferred t))) ∧
  (∀ (s : State) it, TwPasses s → s.cyc.running = true → (s.glb.role = .pilot ∨ s.glb.role = .probation) →
    let fw : Item := { it with origin := 0x100, ctl := it.ctl % 8, due := 0, dueLa := 0 }
    Completes (.forwardedWorkItem it) s (fun t => t = s.serveNow fw ∧
      (it.opcode = Opc.signalWrite → s.atBoundary = true → s.roomFor fw = true → fw.prepare = none → (∀ k, k < it.u 20 1 → s.signalBad (itemPair it k).1 = none) →
        t.wks.waiting = s.wks.waiting ∧ ∀ k, k + 1 = it.u 20 1 → Tab.get 0 t.sigs ((itemPair it k).1 % 16384) = (itemPair it k).2)))

/-! ### The event recorder and health (R486 to R516) -/

/-- R486 to R494, R500 to R510, R513, R514: events are recorded, limiters regain tokens and the log restarts; units are tested and
rotated, stores scrubbed, wear and temperature read and injection slots armed. -/
def Obligations.RecorderAndHealthAct : Prop :=
  (∀ (s : State) e rest, s.elg.queue = e :: rest → s.elg.running = true → (∀ l, l ∈ s.elg.lims → l.code ≠ e.code) → s.elg.full = false →
    s.drainOpen (s.recordsFor e.cycle) = true → s.elg.lastHi = some (e.cycle / 2 ^ 32) → s.injSlots 0x21 0 = [] → (s.rd Reg.elgWrIdx).toNat + 2 < s.logRecs →
    s.logAddr (s.rd Reg.elgWrIdx).toNat + 32 ≤ s.dramSize → e.args.length = 3 →
    Completes .eventRecordWrite s (fun t => t.rd Reg.elgWrIdx = s.rd Reg.elgWrIdx + 1 ∧ t.rd Reg.elgSeq = s.rd Reg.elgSeq + 1 ∧
      ∀ k, k < 32 → t.dramByte (s.logAddr (s.rd Reg.elgWrIdx).toNat + k) =
        (recBytes e 0 s.elg.qlost (s.rd Reg.elgSeq).toNat).getD k 0)) ∧
  (∀ (s : State) e rest, s.elg.queue = e :: rest → s.elg.running = true → (∀ l, l ∈ s.elg.lims → l.code ≠ e.code) → s.elg.full = true →
    Completes .eventRecordWrite s (fun t => t.elg.queue = rest ∧ t.rd Reg.elgDropCnt = satAdd (s.rd Reg.elgDropCnt) 1 ∧
      t.dram = s.dram)) ∧
  (∀ (s : State) l x, s.elg.lims[l]? = some x → x.period ≤ x.age →
    Completes (.limiterToken l) s (fun t =>
      t.elg.lims[l]? = some { x with tokens := min x.burst (x.tokens + 1), age := x.age - x.period })) ∧
  (∀ (s : State), s.hostOpen = true → Completes .elgRestart s (fun t => t.elg.restart = true ∧ t.rdBit Reg.elgCtrl 0 = true)) ∧
  (∀ (s : State) v, s.hostOpen = true → Completes (.cursorWrite v) s (fun t =>
    t.rd Reg.elgCursor = if v.toNat < s.logRecs then v else s.rd Reg.elgCursor)) ∧
  (∀ (s : State), s.hostOpen = true → Completes .windowRead s (fun t =>
    t.wire = .bar0 (Reg.elgWin 7) (s.logWord (s.rd Reg.elgCursor).toNat 7) :: s.wire ∧
    t.rd Reg.elgCursor = if (s.rd Reg.elgCursor).toNat < (s.rd Reg.elgWrIdx).toNat then s.rd Reg.elgCursor + 1
      else s.rd Reg.elgCursor)) ∧
  (∀ (s : State) kind i pass, (kind = 1 ∨ kind = 2) → s.unitSt kind i = .test →
    Completes (.spareTestDone kind i pass) s (fun t => t.unitSt kind i = (if pass = true then .spare else .out) ∧
      s.logged 0x170B [.h kind, .h i, .h (b2n !pass)] t)) ∧
  (∀ (s : State) i, s.rdFld Reg.hlmCfg2 13 0 ≠ 0 → s.cyc.running = true →
    s.hlm.lastRotate + s.rdFld Reg.hlmCfg2 13 0 * 3600 * secTicks ≤ s.now → s.rotateFree 1 = true → s.longest 1 = some i →
    Completes .spareRotation s (fun t => ({ kind := 1, replaces := i, rotate := true } : BringIn) ∈ t.hlm.bringIns ∧
      t.hlm.lastRotate = s.hlm.lastRotate + s.rdFld Reg.hlmCfg2 13 0 * 3600 * secTicks)) ∧
  (∀ (s : State) c, c < 5 → (s.core c).st = .inService → s.injSlots 9 c = [] →
    Completes (.coreWatchdog c true) s (fun t => (t.core c).st = .test ∧ t.preparing c = none) ∧
    Completes (.coreWatchdog c false) s (fun t => t = s)) ∧
  (∀ (s : State) c, c < 5 → (s.core c).st = .inService → (s.core c).loading = true →
    Completes (.coreFirmwareLoaded c) s (fun t => (t.core c).loading = false ∧ (t.core c).st = .inService)) ∧
  (∀ (s : State) u row addr who, (∀ k, s.injSlots 1 k = []) → (∀ k, s.injSlots 2 k = []) →
    (Tab.get 0 s.hlm.rowErrs (u * 65536 + row) + 1 < s.rdFld Reg.hlmCfg 3 0 →
      Completes (.scrubPass [(u, row, addr, who, false)]) s (fun t => t.rd Reg.hlmCeCnt = satAdd (s.rd Reg.hlmCeCnt) 1 ∧
        Tab.get 0 t.hlm.rowErrs (u * 65536 + row) = Tab.get 0 s.hlm.rowErrs (u * 65536 + row) + 1)) ∧
    Completes (.scrubPass [(7, row, addr, who, true)]) s (fun t => t.rd Reg.hlmUeCnt = satAdd (s.rd Reg.hlmUeCnt) 1 ∧
      s.logged 0x1707 [.h 7, .w addr] t) ∧
    (s.glb.st ≠ .off → Completes (.scrubPass [(1, row, addr, who, true)]) s (fun t => t.glb.st = .fault))) ∧
  (∀ (s : State) losses k v, s.cyc.running = true → s.cyc.n % 2 ^ 20 = 0 → k < 24 → losses[k]? = some v →
    Completes (.wearMeasurement losses) s (fun t => t.rd (Reg.hlmWear (k + 1)) = w32 (v % 65536) ∧
      (s.rdFld Reg.hlmCfg 31 16 ≤ v % 65536 → t.hlm.wearWarn.contains (k + 1) = true))) ∧
  (∀ (s : State) temps k x, k < 8 → temps[k]? = some x → (∀ u, s.injSlots 0x1C u = []) →
    Completes (.thermalRead temps) s (fun t => t.hlm.thermSeen = true ∧
      t.rdFld (Reg.hlmTherm k) 15 0 = (satS 16 x % 65536).toNat ∧
      (sgn 16 (s.rdFld Reg.hlmThermCfg 15 0) ≤ satS 16 x → t.hlm.thermHot.contains k = true))) ∧
  (∀ (s : State) i v, s.hostOpen = true → i < 8 →
    (bit v 31 = true → s.fuses.state ≠ 3 → s.fuses.state ≠ 6 → (detUnits (fld v 7 0)).contains (fld v 23 16) = true →
      (fld v 29 28 < 2 ∨ fld v 29 28 = 2 ∧ 2 ≤ s.rdFld (Reg.hlmInjN i) 15 0) → detAllowed s.glb.st (fld v 7 0) (fld v 23 16) = true →
      Completes (.injectionArm i v) s (fun t => (Tab.get {} t.hlm.injs i).armed = true ∧ t.rdFld (Reg.hlmInjCtrl i) 27 24 = 0)) ∧
    (bit v 31 = true → (s.fuses.state = 3 ∨ s.fuses.state = 6) →
      Completes (.injectionArm i v) s (fun t => (Tab.get {} t.hlm.injs i).armed = false ∧ t.rdFld (Reg.hlmInjCtrl i) 27 24 = 1)) ∧
    (bit v 31 = false → Completes (.injectionArm i v) s (fun t => (Tab.get {} t.hlm.injs i).armed = false)))
/-! ### Frames -/

/-- R33 to R123, R169 to R249, R477 to R485: what the commands of jobs, axes, encoders, fast inputs and outputs, profiles,
      line angles
and captures leave unchanged. -/
def Obligations.AxisAndInputFrames : Prop :=
  (∀ a, ∀ cmd, cmd ∈ ([.feedbackLost a, .cmdLost a, .followingError a, .keWindowFilled a] : List Instr) →
    Logs cmd [.axes] []) ∧
  (∀ a half, Logs (.frameStage a half) [.freeCtr, .axes, .cea] [Reg.ceaStageMissCnt]) ∧
  (Logs .jobDispatch [.freeCtr, .cea, .hlm] injRegs) ∧
  (∀ a half, Logs (.jobSkipped a half) [.axes, .cea] [Reg.cycLateInfo, Reg.cycSkipCnt]) ∧
  (∀ e, ∀ cmd, cmd ∈ ([.cycleOverrun e, .engineReset e] : List Instr) →
    Frame cmd [.cea] []) ∧
  (∀ e, Logs (.urgentStop e) [.axes, .cea] [Reg.ceaUrgentCnt]) ∧
  (∀ e, Logs (.engineHalt e) [.cyc, .axes, .cea] [Reg.ceaHaltCnt, Reg.cycLateInfo, Reg.cycOverrunCnt]) ∧
  (∀ e, Logs (.jobWritebackEnd e) [.freeCtr, .regs, .cyc, .axes, .cea] []) ∧
  (Frame .actuationInstant [.cyc, .dio] []) ∧
  (∀ cmd, cmd ∈ ([.loadRestart, .slackRestart] : List Instr) →
    Frame cmd [] [Reg.cycCtrl]) ∧
  (Frame .obsRestart [] [Reg.ceaCtrl]) ∧
  (Logs .cycleBoundary [.freeCtr, .wire, .regs, .dram, .gens, .sigs, .sigPrev, .remote, .remotePrev, .glb, .pem, .cfl, .tbu,
    .cyc, .axes, .axm, .eiu, .dio, .lau, .vms, .cea, .slc, .fbr, .twu, .sfi, .wks, .hlm] []) ∧
  (∀ a, ∀ cmd, cmd ∈ ([.admitTimeout a, .homeDone a] : List Instr) →
    Frame cmd [.axes] []) ∧
  (∀ a, Logs (.enableTimeout a) [.axes] []) ∧
  (∀ k a b z, Logs (.quadEdge k a b z) [.regs, .axes, .eiu, .hlm] []) ∧
  (∀ k, Logs (.indexEvent k) [.regs, .axes, .eiu, .vms, .hlm] []) ∧
  (∀ k, ∀ cmd, cmd ∈ ([.encSettle k, .serialReadStart k] : List Instr) →
    Frame cmd [.eiu] [Reg.eiuStatus k]) ∧
  (∀ k sv cv, Logs (.sincosConversion k sv cv) [.regs, .axes, .eiu, .hlm] []) ∧
  (∀ k, Logs (.scSignal k) [.regs, .axes, .eiu] []) ∧
  (∀ k osSin osCos gain phi, Logs (.fitCompleted k osSin osCos gain phi) [.regs, .eiu] []) ∧
  (∀ k frame ack delay, Logs (.serialReadEnd k frame ack delay) [.regs, .eiu, .hlm] []) ∧
  (∀ k, Frame (.reread k) [.eiu] [Reg.eiuMode k, Reg.eiuStatus k]) ∧
  (∀ k slave addr, Frame (.bissRegisterRead k slave addr) [.eiu] ([Reg.eiuBissCmd k] ++ [Reg.eiuStatus k])) ∧
  (∀ k slave addr data, Frame (.bissRegisterWrite k slave addr data) [.eiu] ([Reg.eiuBissCmd k] ++ [Reg.eiuStatus k])) ∧
  (∀ k data ok, Frame (.bissTransactionEnd k data ok) [.eiu] ([Reg.eiuBissCmd k] ++ [Reg.eiuStatus k])) ∧
  (∀ k p, ∀ cmd, cmd ∈ ([.probeArm k p, .probeAck k p] : List Instr) →
    Frame cmd [.regs, .eiu] []) ∧
  (∀ i, Frame (.standstillTimeout i) [.regs, .axes, .eiu] []) ∧
  (∀ k lvl, Logs (.fastInputTransition k lvl) [.freeCtr, .regs, .dram, .axes, .eiu, .dio, .lau, .hlm] []) ∧
  (∀ k, Logs (.inputStuck k) [.dio] [Reg.dioInLevel, Reg.dioInMask, Reg.dioInStuck, Reg.dioLimLatch, Reg.dioStuckCnt]) ∧
  (∀ k, Logs (.inputReleased k) [.dio] [Reg.dioInLevel, Reg.dioInMask, Reg.dioLimLatch]) ∧
  (∀ k, Frame (.chatterRelease k) [.dio] [Reg.dioInLevel, Reg.dioInMask, Reg.dioLimLatch]) ∧
  (∀ v, ∀ cmd, cmd ∈ ([.dioOutSet v, .dioOutClr v] : List Instr) →
    Frame cmd [.dio] []) ∧
  (∀ k, Frame (.outputEdgeDue k) [.dio] []) ∧
  (∀ a, Logs (.rotorLost a) [.regs, .axes, .vms] []) ∧
  (∀ a, ∀ cmd, cmd ∈ ([.recatchDue a, .retryWaitElapsed a, .holdCurrentTimeout a] : List Instr) →
    Frame cmd [.axes] []) ∧
  (∀ a, Logs (.recatchEnd a) [.regs, .axes] []) ∧
  (∀ a, ∀ cmd, cmd ∈ ([.magTimeElapsed a, .startTimeout a] : List Instr) →
    Logs cmd [.axes, .vms] [Reg.cmuStartFailCnt, Reg.cmuStartRetryCnt]) ∧
  (∀ a, Frame (.alignStepEnd a) [.axes, .vms] []) ∧
  (∀ a, Logs (.offsetFit a) [.axes] [Reg.cmuOfsCnt]) ∧
  (∀ i, Logs (.segDone i) [.axes, .vms] [Reg.pgnSegCnt]) ∧
  (∀ a, Logs (.softLimit a) [.axes, .vms] []) ∧
  (Logs .lauPost [.regs, .dram, .glb, .axes, .eiu, .dio, .lau, .vms, .cea, .wks, .hlm] []) ∧
  (∀ n, ∀ cmd, cmd ∈ ([.coastExpiry n, .rejoinSlewEnd n] : List Instr) →
    Frame cmd [.lau] (laRegs n)) ∧
  (∀ n, Frame (.periodicEdgeMissing n) [.lau] []) ∧
  (∀ i, Frame (.camCopyDone i) [.regs, .dram, .lau, .wks] []) ∧
  (∀ k half, Logs (.localSamplePost k half) [.regs, .axes, .eiu, .dio, .cea] []) ∧
  (∀ h, Logs (.ulEnd h) [.regs, .cyc, .axes, .cea, .slc] []) ∧
  (∀ c, Logs (.captureDone c) [.regs, .dram] []) ∧
  (∀ c, Logs (.captureForced c) [] [Reg.capForcedCnt])

/-- R462 to R466, R507, R339: what a work item leaves unchanged. -/
def Obligations.WorkItemFrames : Prop :=
  (∀ it, Logs (.axisCreate it) [.wire, .regs, .axes, .wks] []) ∧
  (∀ it, Logs (.axisDestroy it) [.wire, .axes, .wks] itemRegs) ∧
  (∀ it, Logs (.axisEnable it) [.wire, .axes, .axm, .wks] itemRegs) ∧
  (∀ it, Logs (.axisDisable it) [.wire, .regs, .axes, .axm, .vms, .wks] []) ∧
  (∀ it, ∀ cmd, cmd ∈ ([.moveAbs it, .moveRel it, .moveVel it] : List Instr) →
    Logs cmd [.wire, .regs, .axes, .vms, .wks] []) ∧
  (∀ it, Logs (.stopItem it) [.wire, .regs, .axes, .lau, .vms, .wks] []) ∧
  (∀ it, Logs (.homeItem it) [.wire, .regs, .axes, .eiu, .dio, .lau, .vms, .wks] []) ∧
  (∀ it, ∀ cmd, cmd ∈ ([.coefWrite it, .coefSwap it] : List Instr) →
    Logs cmd [.wire, .axes, .wks] itemRegs) ∧
  (∀ it, Logs (.gearSet it) [.wire, .regs, .axes, .lau, .wks] []) ∧
  (∀ it, Logs (.gearChangeAt it) [.wire, .regs, .lau, .wks] []) ∧
  (∀ it, Logs (.camSet it) [.wire, .regs, .gens, .lau, .wks] []) ∧
  (∀ it, ∀ cmd, cmd ∈ ([.compareArm it, .compareDisarm it] : List Instr) →
    Logs cmd [.wire, .regs, .axes, .eiu, .lau, .wks] []) ∧
  (∀ it, ∀ cmd, cmd ∈ ([.captureArm it, .captureDisarm it] : List Instr) →
    Logs cmd [.wire, .regs, .dram, .wks] []) ∧
  (∀ it, Logs (.signalWrite it) [.wire, .sigs, .sigPrev, .wks] itemRegs) ∧
  (∀ it, Logs (.logMark it) [.wire, .wks] itemRegs) ∧
  (∀ it, Logs (.epochStage it) [.wire, .dram, .fbr, .wks] (itemRegs ++ [Reg.fbrEpochActHi, Reg.fbrEpochActLo,
      Reg.fbrEpochStat])) ∧
  (∀ it, Logs (.epochCommit it) [.wire, .fbr, .wks] (itemRegs ++ [Reg.fbrEpochActHi, Reg.fbrEpochActLo, Reg.fbrEpochStat])) ∧
  (∀ it, ∀ cmd, cmd ∈ ([.spareTestTest it, .spareTestRotate it, .spareTestReturn it] : List Instr) →
    Logs cmd [.wire, .glb, .pem, .cea, .twu, .wks, .hlm] (itemRegs ++ [Reg.hlmCores] ++ injRegs)) ∧
  (∀ it, Logs (.forwardedWorkItem it) [.wire, .regs, .dram, .gens, .sigs, .sigPrev, .glb, .pem, .axes, .axm, .eiu, .dio, .lau,
    .vms, .cea, .fbr, .twu, .wks, .hlm] [])

/-- R250 to R358: what the commands of Siran, fabric time, the controller fabric, epochs and twins leave unchanged. -/
def Obligations.NetworkFrames : Prop :=
  (∀ p fr fcsOk, Logs (.ulBundleFrame p fr fcsOk) [.freeCtr, .wire, .regs, .glb, .pem, .cyc, .axes, .dio, .cea, .slc, .twu,
    .sfi, .wks, .hlm] []) ∧
  (∀ p, ∀ cmd, cmd ∈ ([.babble p, .linkDown p, .linkUp p] : List Instr) →
    Logs cmd [.regs, .slc] []) ∧
  (∀ p k, Logs (.uplinkRecordLanded p k) [.regs, .dram, .sigs, .cyc, .axes, .dio, .cea, .slc] []) ∧
  (∀ k, Frame (.downlinkSlot k) [.freeCtr, .wire, .regs, .slc, .sfi] []) ∧
  (∀ p fr, ∀ cmd, cmd ∈ ([.joinReq p fr, .safeFrame p fr, .cplStat p fr] : List Instr) →
    Logs cmd [.regs, .slc, .sfi, .hlm] []) ∧
  (∀ n b, Logs (.joinTimeout n b) [.slc] ([Reg.slcJoinRefCnt] ++ nodeRegs n ++ (List.range 4).map Reg.slcSpareFree)) ∧
  (∀ n b, Logs (.portFenced n b) [.slc] ([Reg.slcFenceCnt] ++ nodeRegs n)) ∧
  (∀ n b, Logs (.trimAlarm n b) [.slc] (nodeRegs n)) ∧
  (∀ n, Logs (.asymDisagree n) [.slc] (nodeRegs n)) ∧
  (∀ p m, Logs (.ptpSync p m) [.freeCtr, .ft, .regs, .pem, .cfl, .tbu, .fbr, .hlm] []) ∧
  (∀ p m, Frame (.ptpFollowUp p m) [.freeCtr, .ft, .regs, .pem, .cfl, .tbu, .fbr] []) ∧
  (∀ p seq, Frame (.ptpPdelayReq p seq) [.wire] []) ∧
  (∀ p m, Logs (.ptpPdelayResp p m) [.regs, .tbu] []) ∧
  (∀ p a, Logs (.ptpAnnounce p a) [.wire, .ft, .regs, .glb, .pem, .cfl, .tbu, .dio, .cea, .fbr, .hlm] []) ∧
  (∀ p, Frame (.ptpManagement p) [] [Reg.tbuMgmtMsgCnt]) ∧
  (∀ p, ∀ cmd, cmd ∈ ([.ptpSyncSend p, .ptpAnnounceSend p, .ptpPdelaySend p] : List Instr) →
    Frame cmd [.wire, .tbu] [Reg.tbuPortStat p]) ∧
  (∀ p, Logs (.pdelayTimeout p) [.regs, .tbu] []) ∧
  (Logs .timeSync [.glb, .cfl, .tbu, .twu, .hlm] ([Reg.tbuLanternHi, Reg.tbuLanternLo, Reg.tbuState] ++ injRegs)) ∧
  (Logs .timeUnsync [.glb, .tbu, .hlm]
     ([Reg.tbuIncrHi, Reg.tbuIncrLo, Reg.tbuLanternHi, Reg.tbuLanternLo, Reg.tbuState, Reg.tbuUnsyncCnt] ++ injRegs)) ∧
  (Logs .holdoverEnter [.regs, .tbu] []) ∧
  (Logs .announceTimeout [.wire, .ft, .regs, .glb, .pem, .cfl, .tbu, .dio, .cea, .fbr, .twu, .hlm] []) ∧
  (∀ cmd, cmd ∈ ([.asymCheck, .ppsLost] : List Instr) →
    Logs cmd [.tbu] []) ∧
  (Frame .ppsOutEdge [.wire, .tbu] []) ∧
  (∀ rising, Logs (.ppsInEdge rising) [.freeCtr, .ft, .pem, .cfl, .tbu, .lau, .fbr]
     [Reg.lauEdgeRejCnt, Reg.tbuIncrHi, Reg.tbuIncrLo, Reg.tbuPpsErr, Reg.tbuPpsRejCnt, Reg.tbuPpsTs0, Reg.tbuPpsTs1,
      Reg.tbuPpsTs2]) ∧
  (∀ ofs, Frame (.plantPtpExchange ofs) [.tbu] [Reg.tbuPlantOfsHi, Reg.tbuPlantOfsLo]) ∧
  (∀ cmd, cmd ∈ ([.helloSend, .fabDataSend] : List Instr) →
    Frame cmd [.wire, .fbr] [Reg.fbrHeldCnt]) ∧
  (∀ p fr, Logs (.helloFrame p fr) [.wire, .glb, .cfl, .dio, .cea, .fbr, .twu, .hlm]
     ([Reg.cflStatus, Reg.fbrCheckErrCnt, Reg.fbrEpochActHi, Reg.fbrEpochActLo, Reg.fbrEpochStat, Reg.fbrHeldCnt,
      Reg.fbrMismatchMapLo, Reg.fbrMismatchMapHi, Reg.fbrWrapCnt] ++ injRegs)) ∧
  (∀ told, Logs (.idAssigned told) [.freeCtr, .wire, .regs, .dram, .sigs, .sigPrev, .glb, .pem, .cfl, .dio, .lau, .vms,
    .cea, .fbr, .twu, .hlm] []) ∧
  (∀ p fr, Logs (.fabData p fr) [.wire, .lau, .fbr, .hlm]
     ([Reg.fbrCheckErrCnt, Reg.fbrCycleSkewCnt, Reg.fbrEpochActHi, Reg.fbrEpochActLo, Reg.fbrEpochStat, Reg.fbrHeldCnt,
      Reg.fbrMismatchMapLo, Reg.fbrMismatchMapHi, Reg.fbrWrapCnt] ++ injRegs)) ∧
  (∀ p, Frame (.asyncFrameRelease p) [.wire, .fbr] []) ∧
  (∀ c, Logs (.memberLost c) [.wire, .cfl, .fbr]
     [Reg.cflStatus, Reg.fbrEpochActHi, Reg.fbrEpochActLo, Reg.fbrEpochStat, Reg.fbrMemberMapLo, Reg.fbrMemberMapHi]) ∧
  (∀ i, Logs (.signalStale i) [] [Reg.fbrStaleMapLo, Reg.fbrStaleMapHi]) ∧
  (∀ e init auto members candle, Frame (.epochOffer e init auto members candle) [.fbr]
     [Reg.fbrEpochActHi, Reg.fbrEpochActLo, Reg.fbrEpochStat]) ∧
  (∀ dest k total bytes, Frame (.cfgXfer dest k total bytes) [.wire, .dram, .cfl, .fbr]
     [Reg.fbrEpochActHi, Reg.fbrEpochActLo, Reg.fbrEpochStat]) ∧
  (∀ from_ ks, Frame (.epochNeed from_ ks) [.wire] []) ∧
  (∀ body told giveUp, Logs (.stageDone body told giveUp) [.freeCtr, .wire, .regs, .cfl, .slc, .fbr] []) ∧
  (∀ e from_ nReq, Logs (.epochReadyReceived e from_ nReq) [.fbr] [Reg.fbrEpochActHi, Reg.fbrEpochActLo, Reg.fbrEpochStat]) ∧
  (∀ e from_ code, Logs (.epochFail e from_ code) [.wire, .cfl, .fbr]
     [Reg.cflStatus, Reg.fbrEpochActHi, Reg.fbrEpochActLo, Reg.fbrEpochStat]) ∧
  (Frame .commitReceived [.fbr] [Reg.fbrEpochActHi, Reg.fbrEpochActLo, Reg.fbrEpochStat]) ∧
  (∀ e cause more, Logs (.epochAbort e cause more) [.cfl, .fbr]
     [Reg.cflStatus, Reg.fbrEpochActHi, Reg.fbrEpochActLo, Reg.fbrEpochStat]) ∧
  (Logs .epochReadyTimeout [.cfl, .fbr] [Reg.cflStatus, Reg.fbrEpochActHi, Reg.fbrEpochActLo, Reg.fbrEpochStat]) ∧
  (Logs .epochOfferTimeout [.wire, .cfl, .fbr] [Reg.cflStatus, Reg.fbrEpochActHi, Reg.fbrEpochActLo, Reg.fbrEpochStat]) ∧
  (Frame .landMapSend [.wire, .twu] []) ∧
  (∀ fr, Logs (.landMap fr) [.twu, .hlm] ([Reg.fbrCheckErrCnt, Reg.twuInputDiffCnt, Reg.twuLateDiffCnt] ++ injRegs)) ∧
  (∀ fr, Logs (.dlCopy fr) [.freeCtr, .regs, .twu, .sfi, .hlm] []) ∧
  (Frame .selfTestStart [.twu] [Reg.twuProbation]) ∧
  (∀ own, Logs (.selfTest own) [.glb, .twu, .hlm] injRegs) ∧
  (∀ serial role cstate prefix_ phase test act names, Logs (.hb serial role cstate prefix_ phase test act names) [.glb,
    .twu, .hlm] ([Reg.fbrCheckErrCnt, Reg.twuPartnerHi, Reg.twuPartnerLo] ++ injRegs)) ∧
  (∀ x, Logs (.stateChunk x) [.twu, .hlm] ([Reg.fbrCheckErrCnt] ++ injRegs)) ∧
  (∀ answer code bytes, Logs (.twMsg answer code bytes) [.wire, .regs, .dram, .mbx, .hlm] []) ∧
  (∀ a b, Frame (.partnerActChange a b) [.twu] []) ∧
  (Logs .actRaise [.wire, .glb, .tbu, .slc, .twu] [Reg.twuLastTakeover, Reg.twuTakeoverCnt]) ∧
  (∀ cmd, cmd ∈ ([.wickConflict, .startWait] : List Instr) →
    Logs cmd [.wire, .glb, .twu] []) ∧
  (∀ cause, Logs (.wickFault cause) [.glb, .twu, .hlm] ([Reg.twuWickFaultCnt] ++ injRegs)) ∧
  (Logs .cycStall [.wire, .glb, .cyc, .dio, .cea, .twu, .hlm] injRegs) ∧
  (Logs .hbLost [.twu] []) ∧
  (∀ up txLat rxLat, Logs (.twinLink up txLat rxLat) [.regs, .glb, .tbu, .twu] []) ∧
  (Frame .handover [.twu] [Reg.twuCtrl]) ∧
  (Logs .handoverActDrop [.wire, .glb, .twu] [Reg.twuCtrl]) ∧
  (Logs .requalify [.glb, .twu] [Reg.twuProbation]) ∧
  (∀ v, Frame (.twuAccept v) [.twu] []) ∧
  (∀ byHost, Frame (.peerAccepted byHost) [.twu] []) ∧
  (∀ bs body told, Logs (.imageAdopt bs body told) [.freeCtr, .dram, .glb, .cfl, .twu, .hlm]
     ([Reg.cflRefuse, Reg.cflRefuseCnt, Reg.cflRefuseDetail, Reg.cflStatus] ++ injRegs)) ∧
  (∀ ok0 ok1 other, Logs (.peerWrite ok0 ok1 other) [.glb, .cfl, .twu] [Reg.cflPeerFailCnt, Reg.twuPeerHi, Reg.twuPeerLo])

/-- R434 to R456, R457 to R469, R486 to R494: what the commands of the host, the mailboxes, the event router,
      the rings and the recorder
leave unchanged. -/
def Obligations.HostFrames : Prop :=
  (∀ write off size, Logs (.bar0BadAccess write off size) [.wire] [Reg.mbxBar0ErrCnt, Reg.mbxLastBarErr]) ∧
  (∀ a inc, Frame (.rcCounterRead a inc) [.wire, .regs, .glb, .evr, .elg] []) ∧
  (∀ a, Frame (.holdingRegisterRead a) [.wire, .regs, .glb, .evr, .elg] []) ∧
  (Frame .perstN [.evr, .pcie]
     ((List.range 32).flatMap (fun v => [Reg.msixAddrLo v, Reg.msixAddrHi v, Reg.msixData v, Reg.msixCtl v]))) ∧
  (∀ up speed width, Logs (.pcieLink up speed width) [.pcie] []) ∧
  (∀ off len data aer, Logs (.bar2Access off len data aer) [.wire, .regs, .dram, .glb, .hlm] []) ∧
  (∀ v, Frame (.msixMessage v) [.wire, .evr] []) ∧
  (∀ c, Logs (.postMsg c) [.mbx] [Reg.mbxDbIn, Reg.mbxProtoErrCnt]) ∧
  (∀ c, Logs (.releaseMsg c) [.mbx] [Reg.mbxDbOut, Reg.mbxProtoErrCnt]) ∧
  (∀ c, Logs (.mailboxTake c) [.mbx] ([Reg.mbxDbIn] ++ mbRegs c)) ∧
  (∀ c, ∀ cmd, cmd ∈ ([.echoOp c, .signalRead c, .infoOp c] : List Instr) →
    Logs cmd [.mbx] (mbRegs c)) ∧
  (∀ c, Logs (.workOp c) [.mbx, .wks] ([Reg.wksPreemptCnt] ++ mbRegs c)) ∧
  (Logs .twinSend [.wire, .mbx] (mbRegs 4)) ∧
  (Logs .fabricSend [.wire, .mbx] (mbRegs 5)) ∧
  (∀ from_ answer code bytes, Logs (.fabricMsg from_ answer code bytes) [.wire, .regs, .dram, .mbx] []) ∧
  (∀ fw, ∀ cmd, cmd ∈ ([.demandReq fw, .withdrawReq fw] : List Instr) →
    Logs cmd [.sfi, .mbx] ([Reg.mbxDbIn, Reg.mbxProtoErrCnt] ++ mbRegs 6)) ∧
  (∀ a n, Logs (.diagRead a n) [.wire, .regs, .glb, .mbx] []) ∧
  (∀ n, Logs (.logRead n) [.wire, .mbx] ([Reg.mbxProtoErrCnt] ++ mbRegs 7)) ∧
  (∀ token, Logs (.tokenCmd token) [.freeCtr, .wire, .fuses, .lcu, .mbx] ([Reg.mbxProtoErrCnt] ++ mbRegs 7 ++ tokenRegs)) ∧
  (∀ fl tg firm, Logs (.flashCmd fl tg firm) [.freeCtr, .wire, .cfl, .mbx]
     ([Reg.cflFlashCtrl, Reg.cflRefuse, Reg.cflRefuseCnt, Reg.cflRefuseDetail, Reg.cflStatus, Reg.mbxProtoErrCnt] ++ mbRegs 7)) ∧
  (∀ r, Frame (.kickRing r) [] [Reg.mbxDbIn]) ∧
  (∀ v, ∀ cmd, cmd ∈ ([.dbOutSet v, .dbOutClr v] : List Instr) →
    Logs cmd [] [Reg.mbxDbOut]) ∧
  (∀ n lvl, Logs (.sourceArrival n lvl) [] []) ∧
  (∀ k, Frame (.claimSrc k) [.wire, .evr] [Reg.evrSpuriousCnt k]) ∧
  (∀ k v, Frame (.claimByVector k v) [.wire, .evr] [Reg.evrSpuriousCnt k]) ∧
  (∀ k v, Logs (.completeSrc k v) [] [Reg.evrBadCompleteCnt, Reg.evrLastBadComplete]) ∧
  (∀ w v, ∀ cmd, cmd ∈ ([.maskSet w v, .maskClr w v, .pendClr w v] : List Instr) →
    Frame cmd [.evr] []) ∧
  (∀ w v, Logs (.pendSet w v) [] []) ∧
  (∀ r v, Logs (.prodWrite r v) [.wks] (ringRegs r)) ∧
  (∀ r v, Logs (.consWrite r v) [.regs, .dram] []) ∧
  (Logs .itemTake [.regs, .glb, .wks, .hlm] []) ∧
  (∀ c, Logs (.itemPrepare c) [.freeCtr, .wire, .regs, .glb, .pem, .cyc, .axes, .dio, .cea, .twu, .sfi, .wks, .hlm] []) ∧
  (∀ c, Logs (.itemStage c) [.wks] [Reg.axmHandleErrCnt, Reg.wksItemCnt, Reg.wksPreemptCnt]) ∧
  (Logs .completionWrite [.regs, .dram, .mbx, .wks] []) ∧
  (Logs .eventRecordWrite [.regs, .dram, .hlm] []) ∧
  (∀ l, Frame (.limiterToken l) [.elg] ([Reg.elgLimCfg l] ++ [Reg.elgLimStat l] ++ [Reg.elgLimSupprCnt l])) ∧
  (Frame .elgRestart [.elg] [Reg.elgCtrl]) ∧
  (∀ v, Frame (.cursorWrite v) [] [Reg.elgCursor]) ∧
  (Frame .windowRead [.wire] [Reg.elgCursor]) ∧
  (∀ w, Frame (.pcieConfigWrite w) [.evr, .pcie] [])

/-- R359 to R433, R500 to R516: what the commands of the safety island, of power, of images and of health leave unchanged. -/
def Obligations.SafetyPowerAndHealthFrames : Prop :=
  (∀ crcA crcB testOk, Logs (.islandStart crcA crcB testOk) [.wire, .glb, .dio, .cea, .sfi, .hlm] injRegs) ∧
  (Logs .sfiEvaluation [.freeCtr, .wire, .regs, .glb, .pem, .cyc, .axes, .dio, .cea, .twu, .sfi, .wks, .hlm] []) ∧
  (∀ k, ∀ cmd, cmd ∈ ([.posDisc k, .inputDisc k] : List Instr) →
    Frame cmd [.sfi] []) ∧
  (∀ agree delivered same, Logs (.sfiCrossCompare agree delivered same) [.wire, .glb, .dio, .cea, .sfi, .hlm] injRegs) ∧
  (∀ cmd, cmd ∈ ([.scaClock, .scbClock] : List Instr) →
    Logs cmd [.wire, .glb, .dio, .cea, .sfi, .hlm] injRegs) ∧
  (∀ c, Frame (.connLost c) [.sfi] []) ∧
  (∀ a, Frame (.ss1Timeout a) [.wire, .sfi] []) ∧
  (∀ a, Frame (.sbcEngage a) [.wire, .sfi] []) ∧
  (∀ k chanB lvl, Frame (.safeInputChange k chanB lvl) [.sfi] []) ∧
  (∀ k chanB, Logs (.outReadback k chanB) [.wire, .glb, .dio, .cea, .sfi, .hlm] injRegs) ∧
  (∀ k seen, Logs (.outputTestPulse k seen) [.wire, .glb, .dio, .cea, .sfi, .hlm] injRegs) ∧
  (∀ chanB lvl, Frame (.safeReset chanB lvl) [.wire, .sfi] []) ∧
  (Frame .resetStuck [.sfi] []) ∧
  (∀ mv por sel, Frame (.powerOn mv por sel) [.freeCtr, .glb, .pem, .lcu]
     ([Reg.lcuBoot, Reg.pemResetCause, Reg.pemStatus] ++ (List.range 8).map Reg.lcuNonce)) ∧
  (∀ sramOk ok, Logs (.dramTrainingDone sramOk ok) [.freeCtr, .wire, .regs, .glb, .lcu, .dio, .cea, .twu, .hlm] []) ∧
  (∀ ok ms, Logs (.dramWipeDone ok ms) [.wire, .dram, .glb, .cfl, .dio, .cea, .twu, .hlm]
     ([Reg.cflStatus, Reg.lcuBoot, Reg.lcuWipe] ++ injRegs)) ∧
  (Logs .imageReadDone [.dram, .glb, .cfl, .hlm] ([Reg.cflStatus] ++ injRegs)) ∧
  (∀ body told, Logs (.imageVerifyDone body told) [.freeCtr, .wire, .regs, .fuses, .glb, .pem, .lcu, .cfl, .tbu, .dio, .cea,
    .fbr, .twu, .hlm] []) ∧
  (∀ mv, Logs (.vinLow mv) [.glb, .pem, .hlm] ([Reg.pemStatus, Reg.pemVinLowCnt] ++ injRegs)) ∧
  (∀ mv, Logs (.vinLowClear mv) [.glb, .pem, .hlm] ([Reg.pemStatus] ++ injRegs)) ∧
  (∀ mv, Logs (.vinHigh mv) [] [Reg.pemStatus]) ∧
  (∀ k, ∀ cmd, cmd ∈ ([.encRampEnd k, .encCut k] : List Instr) →
    Logs cmd [.regs, .pem, .axes, .eiu] []) ∧
  (∀ k, Frame (.encRetryDue k) [.pem] [Reg.pemEncStatus]) ∧
  (∀ mv, Logs (.encOvervolt mv) [.regs, .pem, .axes, .eiu] []) ∧
  (∀ ma, Logs (.encTotal ma) [] []) ∧
  (∀ v, Frame (.encRetry v) [.pem] [Reg.pemEncStatus]) ∧
  (∀ cmd, cmd ∈ ([.tokenTransition, .tokenKeyAdd, .tokenKeyRevoke] : List Instr) →
    Logs cmd [.freeCtr, .fuses, .lcu] tokenRegs) ∧
  (∀ body told, Logs (.imageAdopted body told) [.freeCtr, .dram, .glb, .cfl, .twu, .hlm]
     ([Reg.cflAdoptCnt, Reg.cflRefuse, Reg.cflRefuseCnt, Reg.cflRefuseDetail, Reg.cflStatus] ++ injRegs)) ∧
  (Logs .adoptTimeout [.freeCtr, .glb, .cfl, .twu, .hlm]
     ([Reg.cflRefuse, Reg.cflRefuseCnt, Reg.cflRefuseDetail, Reg.cflStatus] ++ injRegs)) ∧
  (∀ xb slotB firm, Frame (.flashProgramSlot xb slotB firm) [.freeCtr, .cfl]
     [Reg.cflFlashCtrl, Reg.cflRefuse, Reg.cflRefuseCnt, Reg.cflRefuseDetail, Reg.cflStatus]) ∧
  (∀ xb, Frame (.flashErasePeer xb) [.freeCtr, .cfl]
     [Reg.cflFlashCtrl, Reg.cflRefuse, Reg.cflRefuseCnt, Reg.cflRefuseDetail, Reg.cflStatus]) ∧
  (∀ fail left, Logs (.flashDone fail left) [.cfl] [Reg.cflFlashCtrl]) ∧
  (∀ kind unit pass, Logs (.spareTestDone kind unit pass) [.wire, .glb, .pem, .cea, .twu, .hlm] ([Reg.hlmCores] ++ injRegs)) ∧
  (Logs .spareRotation [.wire, .glb, .pem, .twu, .hlm] injRegs) ∧
  (∀ c missed, Logs (.coreWatchdog c missed) [.wire, .glb, .pem, .dio, .cea, .twu, .wks, .hlm] ([Reg.hlmCores] ++ injRegs)) ∧
  (∀ c, Frame (.coreFirmwareLoaded c) [.hlm] [Reg.hlmCores]) ∧
  (∀ errs, Logs (.scrubPass errs) [.freeCtr, .wire, .regs, .glb, .pem, .cyc, .axes, .dio, .cea, .twu, .sfi, .wks, .hlm] []) ∧
  (∀ losses, Logs (.wearMeasurement losses) [.hlm] ((List.range 25).map Reg.hlmWear)) ∧
  (∀ temps, Logs (.thermalRead temps) [.regs, .hlm] []) ∧
  (Logs .healthReport [.wire, .regs, .dram, .hlm] []) ∧
  (∀ i v, Frame (.injectionArm i v) [.hlm] injRegs) ∧
  (∀ p up txLat rxLat, Frame (.fabricLinkChange p up txLat rxLat) [.regs, .tbu, .fbr] []) ∧
  (∀ sel, Frame (.thermalResetRelease sel) [.freeCtr, .glb, .pem, .lcu] ([Reg.lcuBoot] ++ (List.range 8).map Reg.lcuNonce)) ∧
  (∀ chanB, Logs (.sfiSupplyTrip chanB) [.wire, .glb, .dio, .cea, .sfi, .hlm] injRegs) ∧
  (∀ from_, Frame (.adoptionRequest from_) [.wire] [])

/-- R131, R133, R138, R143: an instruction of an engine without memory operands or parallel moves changes its engine and nothing else
of the block, and of the engine no address, modifier or return register and no memory; a D register and an accumulator that it does
not name keep their values. A command of one axis, channel, input, output, line angle, node, engine or mailbox leaves the others alone. -/
def Obligations.CommandsLeaveOtherObjectsAlone : Prop :=
  (∀ c op, (c, op) ∈ ([(.mov, 0x00), (.mpy, 0x01), (.mac, 0x02), (.macr, 0x03), (.mpyu, 0x04), (.macs, 0x05), (.addOp, 0x08), (.subOp, 0x09),
      (.adda, 0x0A), (.suba, 0x0B), (.absOp, 0x0C), (.negOp, 0x0D), (.minOp, 0x0E), (.maxOp, 0x0F), (.andOp, 0x10), (.orOp, 0x11),
      (.xor, 0x12), (.asl, 0x13), (.asr, 0x14), (.lsr, 0x15), (.cmp, 0x16), (.clr, 0x17), (.asha, 0x18), (.sta, 0x19), (.stah, 0x1A),
      (.stal, 0x1B), (.rnd, 0x1C), (.mva, 0x1D), (.lda, 0x1E)] : List ((Nat → Instr) × Nat)) →
    ∀ (s : State) e w t, EngineAt s e op w → noMove w → (s.eng e).urgPend = false → (s.eng e).ovrPend = false → exec (c e) s = .next t →
      let x := (s.eng e).commit
      let y := t.eng e
      let toD := decide (0x08 ≤ op ∧ op ≤ 0x15 ∧ op ≠ 0x0A ∧ op ≠ 0x0B ∨ 0x19 ≤ op ∧ op ≤ 0x1B)
      t = ({ s with freeCtr := s.freeCtr + 1 } : State).setEng e y ∧ (∀ k, k ≠ e → t.eng k = s.eng k) ∧
      (∀ r, 0x10 ≤ r → r < 0x20 ∨ 0x29 ≤ r ∧ r < 0x40 → y.landed r = x.landed r) ∧
      (∀ r, r < 8 → (toD = true → r ≠ wf w 25 23) → y.landed r = x.landed r) ∧
      (toD = true ∨ op = 0x00 ∨ op = 0x16 → y.reg 0x42 = x.reg 0x42 ∧ y.reg 0x43 = x.reg 0x43) ∧
      (op ≤ 0x05 → y.reg (0x42 + (1 - accM w)) = x.reg (0x42 + (1 - accM w))) ∧
      (0x0A ≤ op → toD = false → op ≠ 0x16 → y.reg (0x42 + (1 - accR w)) = x.reg (0x42 + (1 - accR w))) ∧
      y.drain.x = x.drain.x ∧ y.drain.fx = x.drain.fx ∧ y.fy = (s.eng e).fy ∧ y.job = (s.eng e).job) ∧
  (∀ a, ∀ c, c ∈ ([.feedbackLost a, .cmdLost a, .followingError a, .softLimit a, .rotorLost a, .recatchDue a, .recatchEnd a,
      .magTimeElapsed a, .alignStepEnd a, .startTimeout a, .retryWaitElapsed a, .keWindowFilled a, .offsetFit a,
      .holdCurrentTimeout a] : List Instr) →
    ∀ (s : State) t, exec c s = .next t → ∀ b, b ≠ a → t.axis b = s.axis b) ∧
  (∀ k slave addr data ok p osS osC gain phi, ∀ c, c ∈ ([.encSettle k, .scSignal k, .fitCompleted k osS osC gain phi, .serialReadStart k,
      .bissRegisterRead k slave addr, .bissRegisterWrite k slave addr data, .bissTransactionEnd k data ok, .probeArm k p,
      .probeAck k p] : List Instr) →
    ∀ (s : State) t, exec c s = .next t → ∀ j, j ≠ k → t.enc j = s.enc j) ∧
  (∀ k, ∀ c, c ∈ ([.inputStuck k, .inputReleased k, .chatterRelease k, .outputEdgeDue k] : List Instr) →
    ∀ (s : State) t, exec c s = .next t → ∀ j, j ≠ k → t.fin j = s.fin j ∧ t.fout j = s.fout j) ∧
  (∀ n, ∀ c, c ∈ ([.coastExpiry n, .rejoinSlewEnd n, .periodicEdgeMissing n] : List Instr) →
    ∀ (s : State) t, exec c s = .next t → ∀ j, j ≠ n → t.la j = s.la j) ∧
  (∀ n b, ∀ c, c ∈ ([.joinTimeout n b, .portFenced n b, .trimAlarm n b, .asymDisagree n] : List Instr) →
    ∀ (s : State) t, exec c s = .next t → ∀ m, m ≠ n → t.node m = s.node m) ∧
  (∀ e, ∀ c, c ∈ ([.cycleOverrun e, .urgentStop e, .engineReset e] : List Instr) →
    ∀ (s : State) t, exec c s = .next t → ∀ k, k ≠ e → t.eng k = s.eng k) ∧
  (∀ k, ∀ c, c ∈ ([.postMsg k, .releaseMsg k, .mailboxTake k, .echoOp k, .signalRead k, .infoOp k] : List Instr) →
    ∀ (s : State) t, exec c s = .next t → ∀ d, d ≠ k → t.mbChan d = s.mbChan d)

/-! ### Stated rules -/

/-- R452: a completion ends the claim of an ACTIVE source of the writing target; any other is ignored, counted, shown and logged, but
for 0x3FF. -/
def Obligations.CompletionsEndClaims : Prop :=
  ∀ (s : State) k v, s.hostOpen = true → k < 4 →
    let n := fld v 9 0
    (n ≤ 0x1FF → (s.src n).active = true → (s.src n).owner = k →
      Completes (.completeSrc k v) s (fun t =>
        t.src n = { s.src n with active := false
                                 pending := if (s.src n).sense = .level then (s.src n).input else (s.src n).pending } ∧
        (∀ m, m ≠ n → t.src m = s.src m) ∧ t.regs = s.regs ∧ t.elg = s.elg)) ∧
    (n ≠ 0x3FF → ¬ (n ≤ 0x1FF ∧ (s.src n).active = true ∧ (s.src n).owner = k) →
      let cause := if 0x1FF < n then 3 else if (s.src n).active = true then 2 else 1
      Completes (.completeSrc k v) s (fun t =>
        (∀ m, (t.src m).active = (s.src m).active ∧ (t.src m).owner = (s.src m).owner ∧ (t.src m).masked = (s.src m).masked) ∧
        t.rd Reg.evrBadCompleteCnt = satAdd (s.rd Reg.evrBadCompleteCnt) 1 ∧
        t.rd Reg.evrLastBadComplete = w32 (cause * 2 ^ 30 + k * 2 ^ 28 + n) ∧
        s.logged 0x1301 [.h k, .h n, .h cause] t)) ∧
    (n = 0x3FF → Completes (.completeSrc k v) s (fun t => t = s))

/-- R389: writes to the SFI range are ignored; from DISCOVER on a read returns the register, and a read does not clear it; before, it
reads 0; the island's counters saturate. -/
def Obligations.SafetyRangeIsReadOnly : Prop :=
  (∀ (s : State) a v, 0x160000 ≤ a → a < 0x170000 → a % 4 = 0 →
    Completes (.registerWrite a v) s (fun t => (∀ r, t.rd r = s.rd r) ∧ t.sfi = s.sfi)) ∧
  (∀ (s : State) a, 0x160000 ≤ a → a < 0x170000 → a % 4 = 0 → s.hostUp = true →
    Completes (.holdingRegisterRead a) s (fun t => t.regs = s.regs ∧ t.sfi = s.sfi ∧
      t.wire = .bar0 a (if s.glb.opened = true ∧ bankOf a ≠ none then s.rd a else 0) :: s.wire)) ∧
  (∀ (s : State) k, k < s.sfi.cnts.length →
    (s.sfiCount k).sfi.cnts.getD k 0 = min 0xFFFFFFFF (s.sfi.cnts.getD k 0 + 1))

/-! ### The whole machine -/

/-- A step takes the command at the front of the queue and runs it with the queue's rest; where none waits a clock passes (the model's
choice, log entry 2). -/
def Obligations.StepTakesTheFrontCommand : Prop :=
  (∀ (s : State) c rest, s.pending = c :: rest → step s = exec c { s with pending := rest }) ∧
  (∀ (s : State), s.pending = [] → step s = .next s.clock)

/-- After reset (R5, R14, R395, R449, R443): every register of BAR0 at its reset value, the controller in BOOT with nothing open, no
torque permit, no brake released, every axis UNUSED, every handle generation 1, every source masked and idle, every mailbox IDLE, DRAM
zero, and no command waiting. That ACT is low, that the role is ALONE and what DRAM reads are the model's reading (log entry 5). -/
def Obligations.ResetLeavesEverythingIdle : Prop :=
  let s := State.reset
  s.wf ∧ s.pending = [] ∧ (∀ a, s.rd a = regReset a) ∧ s.glb.st = .boot ∧ s.glb.opened = false ∧ s.glb.cycValid = false ∧
    s.cyc.running = false ∧ s.sfi.st = .init ∧ s.sfi.permit = [] ∧ s.sfi.brakeOff = [] ∧ s.twu.act = false ∧ s.glb.role = .alone ∧
    (∀ a, (s.axis a).st = .unused) ∧ (∀ t i, s.gen t i = 1) ∧
    (∀ n, (s.src n).masked = true ∧ (s.src n).pending = false ∧ (s.src n).active = false) ∧ (∀ c, (s.mbChan c).st = .idle) ∧
    (∀ k, (s.fout k).level = false) ∧ (∀ a, s.dramByte a = 0) ∧ s.elg.queue = [] ∧ s.wks.taken = []

/-- Every step keeps DRAM and the register file in canonical form: addresses rising, nothing listed that reads as an unlisted address
does. -/
def Obligations.StepsKeepCanonicalForm : Prop :=
  ∀ (s : State) t, s.wf → step s = .next t → t.wf

/-- R402, R403, R406, R407: whatever a step does, fuses only advance: identity and Quetric keys stay, the lowest security version and
the toggles never fall, revoked keys stay revoked, RETURN leads to DEAD alone and DEAD is final; and the life-cycle state changes only
by a transition that R403 allows. -/
def Obligations.FusesOnlyAdvance : Prop :=
  ∀ (s : State) t, step s = .next t → s.fuses.advanced t.fuses ∧
    (t.fuses.state = s.fuses.state ∨
      ∃ dst hash quetric, lcAllowed s.fuses.state dst quetric = true ∧ t.fuses = s.fuses.transition dst hash)
end

