-- ==== Sys2Proof/Laws/Tab.lean ====
section
/-! SUPPORT. Laws/Tab.lean: the laws of sparse tables: a read after a write, and the canonical form that every write keeps. -/

namespace Sys2Proof.Machine

variable {α : Type}

@[simp] theorem Tab.get_nil (d : α) (k : Nat) : Tab.get d [] k = d := rfl

theorem Tab.get_put (d : α) (t : Tab α) (k j : Nat) (v : α) :
    Tab.get d (Tab.put t k v) j = if j = k then v else Tab.get d t j := by
  induction t with
  | nil => rfl
  | cons e t ih =>
    obtain ⟨k', v'⟩ := e
    simp only [Tab.put]
    split
    · rfl
    · split
      · subst_vars; simp only [Tab.get]; split <;> rfl
      · simp only [Tab.get, ih]; split_ifs <;> simp_all

@[simp] theorem Tab.get_put_self (d : α) (t : Tab α) (k : Nat) (v : α) : Tab.get d (Tab.put t k v) k = v := by
  simp [Tab.get_put]

theorem Tab.get_put_ne (d : α) (t : Tab α) {k j : Nat} (v : α) (h : j ≠ k) :
    Tab.get d (Tab.put t k v) j = Tab.get d t j := by simp [Tab.get_put, h]

theorem Tab.get_del (d : α) (t : Tab α) (k j : Nat) :
    Tab.get d (Tab.del t k) j = if j = k then d else Tab.get d t j := by
  induction t with
  | nil => simp [Tab.del]
  | cons e t ih =>
    obtain ⟨k', v'⟩ := e
    simp only [Tab.del]
    split
    · subst_vars; simp only [ih, Tab.get]; split_ifs <;> rfl
    · simp only [Tab.get, ih]; split_ifs <;> simp_all

theorem Tab.get_upd (d : α) (t : Tab α) (k j : Nat) (f : α → α) :
    Tab.get d (Tab.upd d t k f) j = if j = k then f (Tab.get d t k) else Tab.get d t j :=
  Tab.get_put d t k j _

theorem Tab.above_put {k k' : Nat} {v : α} {t : Tab α} (h : Tab.above k t = true) (hk : k < k') :
    Tab.above k (Tab.put t k' v) = true := by
  induction t with
  | nil => simp [Tab.put, Tab.above, hk]
  | cons e t ih =>
    obtain ⟨j, w⟩ := e
    simp only [Tab.above, Bool.and_eq_true, decide_eq_true_eq] at h
    simp only [Tab.put]
    split
    · simp [Tab.above, hk, h.1, h.2]
    · split <;> simp [Tab.above, hk, h.1, h.2, ih h.2]

theorem Tab.above_trans {k j : Nat} {t : Tab α} (h : Tab.above j t = true) (hk : k ≤ j) : Tab.above k t = true := by
  induction t with
  | nil => rfl
  | cons e t ih =>
    simp only [Tab.above, Bool.and_eq_true, decide_eq_true_eq] at h ⊢
    exact ⟨by omega, ih h.2⟩

theorem Tab.sorted_put {t : Tab α} (k : Nat) (v : α) (h : Tab.sorted t = true) : Tab.sorted (Tab.put t k v) = true := by
  induction t with
  | nil => rfl
  | cons e t ih =>
    obtain ⟨j, w⟩ := e
    simp only [Tab.sorted, Bool.and_eq_true] at h
    simp only [Tab.put]
    split
    · rename_i hk
      simp [Tab.sorted, Tab.above, hk, h.1, h.2, Tab.above_trans h.1 (Nat.le_of_lt hk)]
    · split
      · subst_vars; simp [Tab.sorted, h.1, h.2]
      · simp [Tab.sorted, ih h.2, Tab.above_put h.1 (show j < k by omega)]

theorem Tab.mem_put {t : Tab α} {k : Nat} {v : α} {e : Nat × α} (h : e ∈ Tab.put t k v) : e = (k, v) ∨ e ∈ t := by
  induction t with
  | nil => simpa [Tab.put] using h
  | cons e' t ih =>
    obtain ⟨j, w⟩ := e'
    simp only [Tab.put] at h
    split at h
    · simpa using h
    · split at h
      · rcases List.mem_cons.1 h with h | h <;> simp [h]
      · rcases List.mem_cons.1 h with h | h
        · simp [h]
        · rcases ih h with h | h <;> simp [h]

theorem Tab.mem_del {t : Tab α} {k : Nat} {e : Nat × α} (h : e ∈ Tab.del t k) : e ∈ t := by
  induction t with
  | nil => simp [Tab.del] at h
  | cons e' t ih =>
    simp only [Tab.del] at h
    split at h
    · exact List.mem_cons_of_mem _ (ih h)
    · rcases List.mem_cons.1 h with h | h
      · simp [h]
      · exact List.mem_cons_of_mem _ (ih h)

theorem Tab.above_del {k j : Nat} {t : Tab α} (h : Tab.above k t = true) : Tab.above k (Tab.del t j) = true := by
  induction t with
  | nil => rfl
  | cons e t ih =>
    simp only [Tab.above, Bool.and_eq_true, decide_eq_true_eq] at h
    simp only [Tab.del]
    split
    · exact ih h.2
    · simp [Tab.above, h.1, ih h.2]

theorem Tab.sorted_del {t : Tab α} (k : Nat) (h : Tab.sorted t = true) : Tab.sorted (Tab.del t k) = true := by
  induction t with
  | nil => rfl
  | cons e t ih =>
    simp only [Tab.sorted, Bool.and_eq_true] at h
    simp only [Tab.del]
    split
    · exact ih h.2
    · simp [Tab.sorted, Tab.above_del h.1, ih h.2]

variable [DecidableEq α]

theorem Tab.get_set (d : α) (t : Tab α) (k j : Nat) (v : α) :
    Tab.get d (Tab.set d t k v) j = if j = k then v else Tab.get d t j := by
  unfold Tab.set
  split
  · subst_vars; exact Tab.get_del _ t k j
  · exact Tab.get_put d t k j v

@[simp] theorem Tab.get_set_self (d : α) (t : Tab α) (k : Nat) (v : α) : Tab.get d (Tab.set d t k v) k = v := by
  simp [Tab.get_set]

theorem Tab.get_set_ne (d : α) (t : Tab α) {k j : Nat} (v : α) (h : j ≠ k) :
    Tab.get d (Tab.set d t k v) j = Tab.get d t j := by simp [Tab.get_set, h]

/-- A write at `k` leaves every other index alone, whatever default it is read with. -/
theorem Tab.get_set_other (d d' : α) (t : Tab α) {k j : Nat} (v : α) (h : j ≠ k) :
    Tab.get d' (Tab.set d t k v) j = Tab.get d' t j := by
  unfold Tab.set
  split <;> simp [Tab.get_del, Tab.get_put, h]

theorem Tab.sorted_set (d : α) {t : Tab α} (k : Nat) (v : α) (h : Tab.sorted t = true) :
    Tab.sorted (Tab.set d t k v) = true := by
  unfold Tab.set
  split
  · exact Tab.sorted_del k h
  · exact Tab.sorted_put k v h

/-- A write keeps the canonical form. -/
theorem Tab.wf_set (d : α) {t : Tab α} (k : Nat) (v : α) (h : Tab.wf d t = true) : Tab.wf d (Tab.set d t k v) = true := by
  simp only [Tab.wf, Bool.and_eq_true, List.all_eq_true, decide_eq_true_eq] at h ⊢
  refine ⟨Tab.sorted_set d k v h.1, fun e he => ?_⟩
  unfold Tab.set at he
  split at he
  · exact h.2 e (Tab.mem_del he)
  · rcases Tab.mem_put he with rfl | he
    · assumption
    · exact h.2 e he

end Sys2Proof.Machine
end

