-- ==== Sys2Proof/Laws/Memory.lean ====
section
/-! SUPPORT. Laws/Memory.lean: DRAM: a write keeps the canonical form, puts its bytes, and leaves every other byte alone. -/

namespace Sys2Proof.Machine

theorem Memory.wf_nil : Memory.wf [] = true := rfl

/-- Every operation on DRAM goes through `memPut`, which keeps the canonical form. -/
theorem Memory.wf_put {m : List Host.Cell} (bs : List Byte) (a : Nat) (h : Memory.wf m = true) :
    Memory.wf (memPut m a bs) = true := by
  induction bs generalizing m a with
  | nil => exact h
  | cons b t ih => exact ih (a + 1) (Tab.wf_set _ a b h)

theorem memPut_below (m : List Host.Cell) (bs : List Byte) {a j : Nat} (h : j < a) :
    Tab.get 0 (memPut m a bs) j = Tab.get 0 m j := by
  induction bs generalizing m a with
  | nil => rfl
  | cons b t ih => rw [memPut, ih _ (by omega), Tab.get_set_ne _ _ _ (by omega)]

/-- What a byte reads as after bytes were put: the byte put there, or what it read as before. -/
theorem memPut_get (m : List Host.Cell) (bs : List Byte) (a j : Nat) :
    Tab.get 0 (memPut m a bs) j = if a ≤ j ∧ j < a + bs.length then bs.getD (j - a) 0 else Tab.get 0 m j := by
  induction bs generalizing m a with
  | nil => simp only [memPut, List.length_nil]; rw [if_neg (by omega)]
  | cons b t ih =>
    rw [memPut, ih]
    by_cases h1 : a + 1 ≤ j ∧ j < a + 1 + t.length
    · rw [if_pos h1, if_pos (by simp only [List.length_cons]; omega)]
      obtain ⟨d, hd⟩ : ∃ d, j - a = d + 1 := ⟨j - a - 1, by omega⟩
      rw [hd, List.getD_cons_succ]; congr 1; omega
    · rw [if_neg h1]
      by_cases h2 : j = a
      · subst h2; simp
      · rw [Tab.get_set_ne _ _ _ h2, if_neg (by simp only [List.length_cons]; omega)]

theorem State.dramWrite_wf (s : State) (a : Nat) (bs : List Byte) (h : Memory.wf s.dram = true) :
    Memory.wf (s.dramWrite a bs).dram = true := Memory.wf_put _ a h

/-- A byte of DRAM after a write: the byte written there where it exists, or what it was. -/
theorem State.dramWrite_byte (s : State) (a j : Nat) (bs : List Byte) :
    (s.dramWrite a bs).dramByte j =
      if a ≤ j ∧ j < a + bs.length ∧ j < s.dramSize then bs.getD (j - a) 0 else s.dramByte j := by
  simp only [State.dramWrite, State.dramByte, memPut_get, List.length_take]
  by_cases h : a ≤ j ∧ j < a + min (s.dramSize - a) bs.length
  · rw [if_pos h, if_pos (by omega)]
    simp only [List.getD_eq_getElem?_getD, List.getElem?_take]
    rw [if_pos (by omega)]
  · rw [if_neg h, if_neg (by omega)]

theorem State.dramRead_length (s : State) (a n : Nat) : (s.dramRead a n).length = n := by
  induction n generalizing a with
  | zero => rfl
  | succ n ih => simp [State.dramRead, ih]

end Sys2Proof.Machine
end

