-- ==== Sys2Proof/Laws/Registers.lean ====
section
/-! SUPPORT. Laws/Registers.lean: the register file: a read after a write, and its canonical form. -/

namespace Sys2Proof.Machine

theorem State.rd_wr (s : State) (a b : Nat) (v : Word) : (s.wr a v).rd b = if b = a then v else s.rd b := by
  by_cases h : b = a
  · subst h; simp [State.rd, State.wr]
  · simp [State.rd, State.wr, h, Tab.get_set_other _ _ _ _ h]

@[simp] theorem State.rd_wr_self (s : State) (a : Nat) (v : Word) : (s.wr a v).rd a = v := by simp [State.rd_wr]

theorem State.rd_wr_ne (s : State) {a b : Nat} (v : Word) (h : b ≠ a) : (s.wr a v).rd b = s.rd b := by
  simp [State.rd_wr, h]

theorem State.rd_wrFld_ne (s : State) {a b : Nat} (hi lo v : Nat) (h : b ≠ a) : (s.wrFld a hi lo v).rd b = s.rd b :=
  s.rd_wr_ne _ h

theorem State.rd_wrBit_ne (s : State) {a b : Nat} (i : Nat) (v : Bool) (h : b ≠ a) : (s.wrBit a i v).rd b = s.rd b :=
  s.rd_wr_ne _ h

theorem State.rd_countBy_ne (s : State) {a b : Nat} (n : Nat) (h : b ≠ a) : (s.countBy a n).rd b = s.rd b := s.rd_wr_ne _ h

theorem State.rd_count_ne (s : State) {a b : Nat} (h : b ≠ a) : (s.count a).rd b = s.rd b := s.rd_wr_ne _ h

theorem State.rd_setMap_ne (s : State) {base i b : Nat} (v : Bool) (h : b ≠ base + 4 * (i / 32)) :
    (s.setMap base i v).rd b = s.rd b := s.rd_wr_ne _ h

theorem State.rd_wr64_ne (s : State) {lo hi b : Nat} (v : DWord) (h1 : b ≠ lo) (h2 : b ≠ hi) :
    (s.wr64 lo hi v).rd b = s.rd b := by rw [State.wr64, State.rd_wr_ne _ _ h2, State.rd_wr_ne _ _ h1]

/-- A write keeps the canonical form of the register file. -/
theorem State.wr_wf (s : State) (a : Nat) (v : Word) (h : regsWf s.regs = true) : regsWf (s.wr a v).regs = true := by
  simp only [regsWf, Bool.and_eq_true, List.all_eq_true, decide_eq_true_eq] at h ⊢
  refine ⟨Tab.sorted_set _ a v h.1, fun e he => ?_⟩
  unfold State.wr Tab.set at he
  dsimp only at he
  split at he
  · exact h.2 e (Tab.mem_del he)
  · rcases Tab.mem_put he with rfl | he
    · assumption
    · exact h.2 e he

theorem State.wr64_wf (s : State) (lo hi : Nat) (v : DWord) (h : regsWf s.regs = true) :
    regsWf (s.wr64 lo hi v).regs = true := State.wr_wf _ _ _ (State.wr_wf _ _ _ h)

end Sys2Proof.Machine
end

