-- ==== Sys2Proof/Laws/State.lean ====
section
/-! SUPPORT. Laws/State.lean: what each update of the state does to each field, by computation. -/

namespace Sys2Proof.Machine

variable (s : State)

/-! `State.wr` -/

@[simp] theorem State.wr_pending (a : Nat) (v : Word) : (s.wr a v).pending = s.pending := by unfold State.wr; rfl
@[simp] theorem State.wr_freeCtr (a : Nat) (v : Word) : (s.wr a v).freeCtr = s.freeCtr := by unfold State.wr; rfl
@[simp] theorem State.wr_wire (a : Nat) (v : Word) : (s.wr a v).wire = s.wire := by unfold State.wr; rfl
@[simp] theorem State.wr_clk (a : Nat) (v : Word) : (s.wr a v).clk = s.clk := by unfold State.wr; rfl
@[simp] theorem State.wr_ft (a : Nat) (v : Word) : (s.wr a v).ft = s.ft := by unfold State.wr; rfl
@[simp] theorem State.wr_regs (a : Nat) (v : Word) : (s.wr a v).regs = Tab.set (regReset a) s.regs a v := rfl
@[simp] theorem State.wr_dram (a : Nat) (v : Word) : (s.wr a v).dram = s.dram := by unfold State.wr; rfl
@[simp] theorem State.wr_gens (a : Nat) (v : Word) : (s.wr a v).gens = s.gens := by unfold State.wr; rfl
@[simp] theorem State.wr_sigs (a : Nat) (v : Word) : (s.wr a v).sigs = s.sigs := by unfold State.wr; rfl
@[simp] theorem State.wr_sigPrev (a : Nat) (v : Word) : (s.wr a v).sigPrev = s.sigPrev := by unfold State.wr; rfl
@[simp] theorem State.wr_remote (a : Nat) (v : Word) : (s.wr a v).remote = s.remote := by unfold State.wr; rfl
@[simp] theorem State.wr_remotePrev (a : Nat) (v : Word) : (s.wr a v).remotePrev = s.remotePrev := by unfold State.wr; rfl
@[simp] theorem State.wr_fuses (a : Nat) (v : Word) : (s.wr a v).fuses = s.fuses := by unfold State.wr; rfl
@[simp] theorem State.wr_glb (a : Nat) (v : Word) : (s.wr a v).glb = s.glb := by unfold State.wr; rfl
@[simp] theorem State.wr_pem (a : Nat) (v : Word) : (s.wr a v).pem = s.pem := by unfold State.wr; rfl
@[simp] theorem State.wr_lcu (a : Nat) (v : Word) : (s.wr a v).lcu = s.lcu := by unfold State.wr; rfl
@[simp] theorem State.wr_cfl (a : Nat) (v : Word) : (s.wr a v).cfl = s.cfl := by unfold State.wr; rfl
@[simp] theorem State.wr_tbu (a : Nat) (v : Word) : (s.wr a v).tbu = s.tbu := by unfold State.wr; rfl
@[simp] theorem State.wr_cyc (a : Nat) (v : Word) : (s.wr a v).cyc = s.cyc := by unfold State.wr; rfl
@[simp] theorem State.wr_axes (a : Nat) (v : Word) : (s.wr a v).axes = s.axes := by unfold State.wr; rfl
@[simp] theorem State.wr_axm (a : Nat) (v : Word) : (s.wr a v).axm = s.axm := by unfold State.wr; rfl
@[simp] theorem State.wr_eiu (a : Nat) (v : Word) : (s.wr a v).eiu = s.eiu := by unfold State.wr; rfl
@[simp] theorem State.wr_dio (a : Nat) (v : Word) : (s.wr a v).dio = s.dio := by unfold State.wr; rfl
@[simp] theorem State.wr_lau (a : Nat) (v : Word) : (s.wr a v).lau = s.lau := by unfold State.wr; rfl
@[simp] theorem State.wr_vms (a : Nat) (v : Word) : (s.wr a v).vms = s.vms := by unfold State.wr; rfl
@[simp] theorem State.wr_cea (a : Nat) (v : Word) : (s.wr a v).cea = s.cea := by unfold State.wr; rfl
@[simp] theorem State.wr_slc (a : Nat) (v : Word) : (s.wr a v).slc = s.slc := by unfold State.wr; rfl
@[simp] theorem State.wr_fbr (a : Nat) (v : Word) : (s.wr a v).fbr = s.fbr := by unfold State.wr; rfl
@[simp] theorem State.wr_twu (a : Nat) (v : Word) : (s.wr a v).twu = s.twu := by unfold State.wr; rfl
@[simp] theorem State.wr_sfi (a : Nat) (v : Word) : (s.wr a v).sfi = s.sfi := by unfold State.wr; rfl
@[simp] theorem State.wr_mbx (a : Nat) (v : Word) : (s.wr a v).mbx = s.mbx := by unfold State.wr; rfl
@[simp] theorem State.wr_evr (a : Nat) (v : Word) : (s.wr a v).evr = s.evr := by unfold State.wr; rfl
@[simp] theorem State.wr_pcie (a : Nat) (v : Word) : (s.wr a v).pcie = s.pcie := by unfold State.wr; rfl
@[simp] theorem State.wr_wks (a : Nat) (v : Word) : (s.wr a v).wks = s.wks := by unfold State.wr; rfl
@[simp] theorem State.wr_cap (a : Nat) (v : Word) : (s.wr a v).cap = s.cap := by unfold State.wr; rfl
@[simp] theorem State.wr_elg (a : Nat) (v : Word) : (s.wr a v).elg = s.elg := by unfold State.wr; rfl
@[simp] theorem State.wr_hlm (a : Nat) (v : Word) : (s.wr a v).hlm = s.hlm := by unfold State.wr; rfl

/-! `State.wrFld` -/

@[simp] theorem State.wrFld_pending (a hi lo v : Nat) : (s.wrFld a hi lo v).pending = s.pending := State.wr_pending ..
@[simp] theorem State.wrFld_freeCtr (a hi lo v : Nat) : (s.wrFld a hi lo v).freeCtr = s.freeCtr := State.wr_freeCtr ..
@[simp] theorem State.wrFld_wire (a hi lo v : Nat) : (s.wrFld a hi lo v).wire = s.wire := State.wr_wire ..
@[simp] theorem State.wrFld_clk (a hi lo v : Nat) : (s.wrFld a hi lo v).clk = s.clk := State.wr_clk ..
@[simp] theorem State.wrFld_ft (a hi lo v : Nat) : (s.wrFld a hi lo v).ft = s.ft := State.wr_ft ..
@[simp] theorem State.wrFld_regs (a hi lo v : Nat) : (s.wrFld a hi lo v).regs = (s.wr a (setFld (s.rd a) hi lo v)).regs := rfl
@[simp] theorem State.wrFld_dram (a hi lo v : Nat) : (s.wrFld a hi lo v).dram = s.dram := State.wr_dram ..
@[simp] theorem State.wrFld_gens (a hi lo v : Nat) : (s.wrFld a hi lo v).gens = s.gens := State.wr_gens ..
@[simp] theorem State.wrFld_sigs (a hi lo v : Nat) : (s.wrFld a hi lo v).sigs = s.sigs := State.wr_sigs ..
@[simp] theorem State.wrFld_sigPrev (a hi lo v : Nat) : (s.wrFld a hi lo v).sigPrev = s.sigPrev := State.wr_sigPrev ..
@[simp] theorem State.wrFld_remote (a hi lo v : Nat) : (s.wrFld a hi lo v).remote = s.remote := State.wr_remote ..
@[simp] theorem State.wrFld_remotePrev (a hi lo v : Nat) : (s.wrFld a hi lo v).remotePrev = s.remotePrev := State.wr_remotePrev ..
@[simp] theorem State.wrFld_fuses (a hi lo v : Nat) : (s.wrFld a hi lo v).fuses = s.fuses := State.wr_fuses ..
@[simp] theorem State.wrFld_glb (a hi lo v : Nat) : (s.wrFld a hi lo v).glb = s.glb := State.wr_glb ..
@[simp] theorem State.wrFld_pem (a hi lo v : Nat) : (s.wrFld a hi lo v).pem = s.pem := State.wr_pem ..
@[simp] theorem State.wrFld_lcu (a hi lo v : Nat) : (s.wrFld a hi lo v).lcu = s.lcu := State.wr_lcu ..
@[simp] theorem State.wrFld_cfl (a hi lo v : Nat) : (s.wrFld a hi lo v).cfl = s.cfl := State.wr_cfl ..
@[simp] theorem State.wrFld_tbu (a hi lo v : Nat) : (s.wrFld a hi lo v).tbu = s.tbu := State.wr_tbu ..
@[simp] theorem State.wrFld_cyc (a hi lo v : Nat) : (s.wrFld a hi lo v).cyc = s.cyc := State.wr_cyc ..
@[simp] theorem State.wrFld_axes (a hi lo v : Nat) : (s.wrFld a hi lo v).axes = s.axes := State.wr_axes ..
@[simp] theorem State.wrFld_axm (a hi lo v : Nat) : (s.wrFld a hi lo v).axm = s.axm := State.wr_axm ..
@[simp] theorem State.wrFld_eiu (a hi lo v : Nat) : (s.wrFld a hi lo v).eiu = s.eiu := State.wr_eiu ..
@[simp] theorem State.wrFld_dio (a hi lo v : Nat) : (s.wrFld a hi lo v).dio = s.dio := State.wr_dio ..
@[simp] theorem State.wrFld_lau (a hi lo v : Nat) : (s.wrFld a hi lo v).lau = s.lau := State.wr_lau ..
@[simp] theorem State.wrFld_vms (a hi lo v : Nat) : (s.wrFld a hi lo v).vms = s.vms := State.wr_vms ..
@[simp] theorem State.wrFld_cea (a hi lo v : Nat) : (s.wrFld a hi lo v).cea = s.cea := State.wr_cea ..
@[simp] theorem State.wrFld_slc (a hi lo v : Nat) : (s.wrFld a hi lo v).slc = s.slc := State.wr_slc ..
@[simp] theorem State.wrFld_fbr (a hi lo v : Nat) : (s.wrFld a hi lo v).fbr = s.fbr := State.wr_fbr ..
@[simp] theorem State.wrFld_twu (a hi lo v : Nat) : (s.wrFld a hi lo v).twu = s.twu := State.wr_twu ..
@[simp] theorem State.wrFld_sfi (a hi lo v : Nat) : (s.wrFld a hi lo v).sfi = s.sfi := State.wr_sfi ..
@[simp] theorem State.wrFld_mbx (a hi lo v : Nat) : (s.wrFld a hi lo v).mbx = s.mbx := State.wr_mbx ..
@[simp] theorem State.wrFld_evr (a hi lo v : Nat) : (s.wrFld a hi lo v).evr = s.evr := State.wr_evr ..
@[simp] theorem State.wrFld_pcie (a hi lo v : Nat) : (s.wrFld a hi lo v).pcie = s.pcie := State.wr_pcie ..
@[simp] theorem State.wrFld_wks (a hi lo v : Nat) : (s.wrFld a hi lo v).wks = s.wks := State.wr_wks ..
@[simp] theorem State.wrFld_cap (a hi lo v : Nat) : (s.wrFld a hi lo v).cap = s.cap := State.wr_cap ..
@[simp] theorem State.wrFld_elg (a hi lo v : Nat) : (s.wrFld a hi lo v).elg = s.elg := State.wr_elg ..
@[simp] theorem State.wrFld_hlm (a hi lo v : Nat) : (s.wrFld a hi lo v).hlm = s.hlm := State.wr_hlm ..

/-! `State.wrBit` -/

@[simp] theorem State.wrBit_pending (a i : Nat) (b : Bool) : (s.wrBit a i b).pending = s.pending := State.wr_pending ..
@[simp] theorem State.wrBit_freeCtr (a i : Nat) (b : Bool) : (s.wrBit a i b).freeCtr = s.freeCtr := State.wr_freeCtr ..
@[simp] theorem State.wrBit_wire (a i : Nat) (b : Bool) : (s.wrBit a i b).wire = s.wire := State.wr_wire ..
@[simp] theorem State.wrBit_clk (a i : Nat) (b : Bool) : (s.wrBit a i b).clk = s.clk := State.wr_clk ..
@[simp] theorem State.wrBit_ft (a i : Nat) (b : Bool) : (s.wrBit a i b).ft = s.ft := State.wr_ft ..
@[simp] theorem State.wrBit_regs (a i : Nat) (b : Bool) : (s.wrBit a i b).regs = (s.wr a (setBit (s.rd a) i b)).regs := rfl
@[simp] theorem State.wrBit_dram (a i : Nat) (b : Bool) : (s.wrBit a i b).dram = s.dram := State.wr_dram ..
@[simp] theorem State.wrBit_gens (a i : Nat) (b : Bool) : (s.wrBit a i b).gens = s.gens := State.wr_gens ..
@[simp] theorem State.wrBit_sigs (a i : Nat) (b : Bool) : (s.wrBit a i b).sigs = s.sigs := State.wr_sigs ..
@[simp] theorem State.wrBit_sigPrev (a i : Nat) (b : Bool) : (s.wrBit a i b).sigPrev = s.sigPrev := State.wr_sigPrev ..
@[simp] theorem State.wrBit_remote (a i : Nat) (b : Bool) : (s.wrBit a i b).remote = s.remote := State.wr_remote ..
@[simp] theorem State.wrBit_remotePrev (a i : Nat) (b : Bool) : (s.wrBit a i b).remotePrev = s.remotePrev := State.wr_remotePrev ..
@[simp] theorem State.wrBit_fuses (a i : Nat) (b : Bool) : (s.wrBit a i b).fuses = s.fuses := State.wr_fuses ..
@[simp] theorem State.wrBit_glb (a i : Nat) (b : Bool) : (s.wrBit a i b).glb = s.glb := State.wr_glb ..
@[simp] theorem State.wrBit_pem (a i : Nat) (b : Bool) : (s.wrBit a i b).pem = s.pem := State.wr_pem ..
@[simp] theorem State.wrBit_lcu (a i : Nat) (b : Bool) : (s.wrBit a i b).lcu = s.lcu := State.wr_lcu ..
@[simp] theorem State.wrBit_cfl (a i : Nat) (b : Bool) : (s.wrBit a i b).cfl = s.cfl := State.wr_cfl ..
@[simp] theorem State.wrBit_tbu (a i : Nat) (b : Bool) : (s.wrBit a i b).tbu = s.tbu := State.wr_tbu ..
@[simp] theorem State.wrBit_cyc (a i : Nat) (b : Bool) : (s.wrBit a i b).cyc = s.cyc := State.wr_cyc ..
@[simp] theorem State.wrBit_axes (a i : Nat) (b : Bool) : (s.wrBit a i b).axes = s.axes := State.wr_axes ..
@[simp] theorem State.wrBit_axm (a i : Nat) (b : Bool) : (s.wrBit a i b).axm = s.axm := State.wr_axm ..
@[simp] theorem State.wrBit_eiu (a i : Nat) (b : Bool) : (s.wrBit a i b).eiu = s.eiu := State.wr_eiu ..
@[simp] theorem State.wrBit_dio (a i : Nat) (b : Bool) : (s.wrBit a i b).dio = s.dio := State.wr_dio ..
@[simp] theorem State.wrBit_lau (a i : Nat) (b : Bool) : (s.wrBit a i b).lau = s.lau := State.wr_lau ..
@[simp] theorem State.wrBit_vms (a i : Nat) (b : Bool) : (s.wrBit a i b).vms = s.vms := State.wr_vms ..
@[simp] theorem State.wrBit_cea (a i : Nat) (b : Bool) : (s.wrBit a i b).cea = s.cea := State.wr_cea ..
@[simp] theorem State.wrBit_slc (a i : Nat) (b : Bool) : (s.wrBit a i b).slc = s.slc := State.wr_slc ..
@[simp] theorem State.wrBit_fbr (a i : Nat) (b : Bool) : (s.wrBit a i b).fbr = s.fbr := State.wr_fbr ..
@[simp] theorem State.wrBit_twu (a i : Nat) (b : Bool) : (s.wrBit a i b).twu = s.twu := State.wr_twu ..
@[simp] theorem State.wrBit_sfi (a i : Nat) (b : Bool) : (s.wrBit a i b).sfi = s.sfi := State.wr_sfi ..
@[simp] theorem State.wrBit_mbx (a i : Nat) (b : Bool) : (s.wrBit a i b).mbx = s.mbx := State.wr_mbx ..
@[simp] theorem State.wrBit_evr (a i : Nat) (b : Bool) : (s.wrBit a i b).evr = s.evr := State.wr_evr ..
@[simp] theorem State.wrBit_pcie (a i : Nat) (b : Bool) : (s.wrBit a i b).pcie = s.pcie := State.wr_pcie ..
@[simp] theorem State.wrBit_wks (a i : Nat) (b : Bool) : (s.wrBit a i b).wks = s.wks := State.wr_wks ..
@[simp] theorem State.wrBit_cap (a i : Nat) (b : Bool) : (s.wrBit a i b).cap = s.cap := State.wr_cap ..
@[simp] theorem State.wrBit_elg (a i : Nat) (b : Bool) : (s.wrBit a i b).elg = s.elg := State.wr_elg ..
@[simp] theorem State.wrBit_hlm (a i : Nat) (b : Bool) : (s.wrBit a i b).hlm = s.hlm := State.wr_hlm ..

/-! `State.countBy` -/

@[simp] theorem State.countBy_pending (a n : Nat) : (s.countBy a n).pending = s.pending := State.wr_pending ..
@[simp] theorem State.countBy_freeCtr (a n : Nat) : (s.countBy a n).freeCtr = s.freeCtr := State.wr_freeCtr ..
@[simp] theorem State.countBy_wire (a n : Nat) : (s.countBy a n).wire = s.wire := State.wr_wire ..
@[simp] theorem State.countBy_clk (a n : Nat) : (s.countBy a n).clk = s.clk := State.wr_clk ..
@[simp] theorem State.countBy_ft (a n : Nat) : (s.countBy a n).ft = s.ft := State.wr_ft ..
@[simp] theorem State.countBy_regs (a n : Nat) : (s.countBy a n).regs = (s.wr a (satAdd (s.rd a) n)).regs := rfl
@[simp] theorem State.countBy_dram (a n : Nat) : (s.countBy a n).dram = s.dram := State.wr_dram ..
@[simp] theorem State.countBy_gens (a n : Nat) : (s.countBy a n).gens = s.gens := State.wr_gens ..
@[simp] theorem State.countBy_sigs (a n : Nat) : (s.countBy a n).sigs = s.sigs := State.wr_sigs ..
@[simp] theorem State.countBy_sigPrev (a n : Nat) : (s.countBy a n).sigPrev = s.sigPrev := State.wr_sigPrev ..
@[simp] theorem State.countBy_remote (a n : Nat) : (s.countBy a n).remote = s.remote := State.wr_remote ..
@[simp] theorem State.countBy_remotePrev (a n : Nat) : (s.countBy a n).remotePrev = s.remotePrev := State.wr_remotePrev ..
@[simp] theorem State.countBy_fuses (a n : Nat) : (s.countBy a n).fuses = s.fuses := State.wr_fuses ..
@[simp] theorem State.countBy_glb (a n : Nat) : (s.countBy a n).glb = s.glb := State.wr_glb ..
@[simp] theorem State.countBy_pem (a n : Nat) : (s.countBy a n).pem = s.pem := State.wr_pem ..
@[simp] theorem State.countBy_lcu (a n : Nat) : (s.countBy a n).lcu = s.lcu := State.wr_lcu ..
@[simp] theorem State.countBy_cfl (a n : Nat) : (s.countBy a n).cfl = s.cfl := State.wr_cfl ..
@[simp] theorem State.countBy_tbu (a n : Nat) : (s.countBy a n).tbu = s.tbu := State.wr_tbu ..
@[simp] theorem State.countBy_cyc (a n : Nat) : (s.countBy a n).cyc = s.cyc := State.wr_cyc ..
@[simp] theorem State.countBy_axes (a n : Nat) : (s.countBy a n).axes = s.axes := State.wr_axes ..
@[simp] theorem State.countBy_axm (a n : Nat) : (s.countBy a n).axm = s.axm := State.wr_axm ..
@[simp] theorem State.countBy_eiu (a n : Nat) : (s.countBy a n).eiu = s.eiu := State.wr_eiu ..
@[simp] theorem State.countBy_dio (a n : Nat) : (s.countBy a n).dio = s.dio := State.wr_dio ..
@[simp] theorem State.countBy_lau (a n : Nat) : (s.countBy a n).lau = s.lau := State.wr_lau ..
@[simp] theorem State.countBy_vms (a n : Nat) : (s.countBy a n).vms = s.vms := State.wr_vms ..
@[simp] theorem State.countBy_cea (a n : Nat) : (s.countBy a n).cea = s.cea := State.wr_cea ..
@[simp] theorem State.countBy_slc (a n : Nat) : (s.countBy a n).slc = s.slc := State.wr_slc ..
@[simp] theorem State.countBy_fbr (a n : Nat) : (s.countBy a n).fbr = s.fbr := State.wr_fbr ..
@[simp] theorem State.countBy_twu (a n : Nat) : (s.countBy a n).twu = s.twu := State.wr_twu ..
@[simp] theorem State.countBy_sfi (a n : Nat) : (s.countBy a n).sfi = s.sfi := State.wr_sfi ..
@[simp] theorem State.countBy_mbx (a n : Nat) : (s.countBy a n).mbx = s.mbx := State.wr_mbx ..
@[simp] theorem State.countBy_evr (a n : Nat) : (s.countBy a n).evr = s.evr := State.wr_evr ..
@[simp] theorem State.countBy_pcie (a n : Nat) : (s.countBy a n).pcie = s.pcie := State.wr_pcie ..
@[simp] theorem State.countBy_wks (a n : Nat) : (s.countBy a n).wks = s.wks := State.wr_wks ..
@[simp] theorem State.countBy_cap (a n : Nat) : (s.countBy a n).cap = s.cap := State.wr_cap ..
@[simp] theorem State.countBy_elg (a n : Nat) : (s.countBy a n).elg = s.elg := State.wr_elg ..
@[simp] theorem State.countBy_hlm (a n : Nat) : (s.countBy a n).hlm = s.hlm := State.wr_hlm ..

/-! `State.count` -/

@[simp] theorem State.count_pending (a : Nat) : (s.count a).pending = s.pending := State.countBy_pending ..
@[simp] theorem State.count_freeCtr (a : Nat) : (s.count a).freeCtr = s.freeCtr := State.countBy_freeCtr ..
@[simp] theorem State.count_wire (a : Nat) : (s.count a).wire = s.wire := State.countBy_wire ..
@[simp] theorem State.count_clk (a : Nat) : (s.count a).clk = s.clk := State.countBy_clk ..
@[simp] theorem State.count_ft (a : Nat) : (s.count a).ft = s.ft := State.countBy_ft ..
@[simp] theorem State.count_regs (a : Nat) : (s.count a).regs = (s.wr a (satAdd (s.rd a) 1)).regs := rfl
@[simp] theorem State.count_dram (a : Nat) : (s.count a).dram = s.dram := State.countBy_dram ..
@[simp] theorem State.count_gens (a : Nat) : (s.count a).gens = s.gens := State.countBy_gens ..
@[simp] theorem State.count_sigs (a : Nat) : (s.count a).sigs = s.sigs := State.countBy_sigs ..
@[simp] theorem State.count_sigPrev (a : Nat) : (s.count a).sigPrev = s.sigPrev := State.countBy_sigPrev ..
@[simp] theorem State.count_remote (a : Nat) : (s.count a).remote = s.remote := State.countBy_remote ..
@[simp] theorem State.count_remotePrev (a : Nat) : (s.count a).remotePrev = s.remotePrev := State.countBy_remotePrev ..
@[simp] theorem State.count_fuses (a : Nat) : (s.count a).fuses = s.fuses := State.countBy_fuses ..
@[simp] theorem State.count_glb (a : Nat) : (s.count a).glb = s.glb := State.countBy_glb ..
@[simp] theorem State.count_pem (a : Nat) : (s.count a).pem = s.pem := State.countBy_pem ..
@[simp] theorem State.count_lcu (a : Nat) : (s.count a).lcu = s.lcu := State.countBy_lcu ..
@[simp] theorem State.count_cfl (a : Nat) : (s.count a).cfl = s.cfl := State.countBy_cfl ..
@[simp] theorem State.count_tbu (a : Nat) : (s.count a).tbu = s.tbu := State.countBy_tbu ..
@[simp] theorem State.count_cyc (a : Nat) : (s.count a).cyc = s.cyc := State.countBy_cyc ..
@[simp] theorem State.count_axes (a : Nat) : (s.count a).axes = s.axes := State.countBy_axes ..
@[simp] theorem State.count_axm (a : Nat) : (s.count a).axm = s.axm := State.countBy_axm ..
@[simp] theorem State.count_eiu (a : Nat) : (s.count a).eiu = s.eiu := State.countBy_eiu ..
@[simp] theorem State.count_dio (a : Nat) : (s.count a).dio = s.dio := State.countBy_dio ..
@[simp] theorem State.count_lau (a : Nat) : (s.count a).lau = s.lau := State.countBy_lau ..
@[simp] theorem State.count_vms (a : Nat) : (s.count a).vms = s.vms := State.countBy_vms ..
@[simp] theorem State.count_cea (a : Nat) : (s.count a).cea = s.cea := State.countBy_cea ..
@[simp] theorem State.count_slc (a : Nat) : (s.count a).slc = s.slc := State.countBy_slc ..
@[simp] theorem State.count_fbr (a : Nat) : (s.count a).fbr = s.fbr := State.countBy_fbr ..
@[simp] theorem State.count_twu (a : Nat) : (s.count a).twu = s.twu := State.countBy_twu ..
@[simp] theorem State.count_sfi (a : Nat) : (s.count a).sfi = s.sfi := State.countBy_sfi ..
@[simp] theorem State.count_mbx (a : Nat) : (s.count a).mbx = s.mbx := State.countBy_mbx ..
@[simp] theorem State.count_evr (a : Nat) : (s.count a).evr = s.evr := State.countBy_evr ..
@[simp] theorem State.count_pcie (a : Nat) : (s.count a).pcie = s.pcie := State.countBy_pcie ..
@[simp] theorem State.count_wks (a : Nat) : (s.count a).wks = s.wks := State.countBy_wks ..
@[simp] theorem State.count_cap (a : Nat) : (s.count a).cap = s.cap := State.countBy_cap ..
@[simp] theorem State.count_elg (a : Nat) : (s.count a).elg = s.elg := State.countBy_elg ..
@[simp] theorem State.count_hlm (a : Nat) : (s.count a).hlm = s.hlm := State.countBy_hlm ..

/-! `State.setMap` -/

@[simp] theorem State.setMap_pending (base i : Nat) (b : Bool) : (s.setMap base i b).pending = s.pending := State.wrBit_pending ..
@[simp] theorem State.setMap_freeCtr (base i : Nat) (b : Bool) : (s.setMap base i b).freeCtr = s.freeCtr := State.wrBit_freeCtr ..
@[simp] theorem State.setMap_wire (base i : Nat) (b : Bool) : (s.setMap base i b).wire = s.wire := State.wrBit_wire ..
@[simp] theorem State.setMap_clk (base i : Nat) (b : Bool) : (s.setMap base i b).clk = s.clk := State.wrBit_clk ..
@[simp] theorem State.setMap_ft (base i : Nat) (b : Bool) : (s.setMap base i b).ft = s.ft := State.wrBit_ft ..
@[simp] theorem State.setMap_regs (base i : Nat) (b : Bool) : (s.setMap base i b).regs = (s.wrBit (base + 4 * (i / 32)) (i % 32) b).regs := rfl
@[simp] theorem State.setMap_dram (base i : Nat) (b : Bool) : (s.setMap base i b).dram = s.dram := State.wrBit_dram ..
@[simp] theorem State.setMap_gens (base i : Nat) (b : Bool) : (s.setMap base i b).gens = s.gens := State.wrBit_gens ..
@[simp] theorem State.setMap_sigs (base i : Nat) (b : Bool) : (s.setMap base i b).sigs = s.sigs := State.wrBit_sigs ..
@[simp] theorem State.setMap_sigPrev (base i : Nat) (b : Bool) : (s.setMap base i b).sigPrev = s.sigPrev := State.wrBit_sigPrev ..
@[simp] theorem State.setMap_remote (base i : Nat) (b : Bool) : (s.setMap base i b).remote = s.remote := State.wrBit_remote ..
@[simp] theorem State.setMap_remotePrev (base i : Nat) (b : Bool) : (s.setMap base i b).remotePrev = s.remotePrev := State.wrBit_remotePrev ..
@[simp] theorem State.setMap_fuses (base i : Nat) (b : Bool) : (s.setMap base i b).fuses = s.fuses := State.wrBit_fuses ..
@[simp] theorem State.setMap_glb (base i : Nat) (b : Bool) : (s.setMap base i b).glb = s.glb := State.wrBit_glb ..
@[simp] theorem State.setMap_pem (base i : Nat) (b : Bool) : (s.setMap base i b).pem = s.pem := State.wrBit_pem ..
@[simp] theorem State.setMap_lcu (base i : Nat) (b : Bool) : (s.setMap base i b).lcu = s.lcu := State.wrBit_lcu ..
@[simp] theorem State.setMap_cfl (base i : Nat) (b : Bool) : (s.setMap base i b).cfl = s.cfl := State.wrBit_cfl ..
@[simp] theorem State.setMap_tbu (base i : Nat) (b : Bool) : (s.setMap base i b).tbu = s.tbu := State.wrBit_tbu ..
@[simp] theorem State.setMap_cyc (base i : Nat) (b : Bool) : (s.setMap base i b).cyc = s.cyc := State.wrBit_cyc ..
@[simp] theorem State.setMap_axes (base i : Nat) (b : Bool) : (s.setMap base i b).axes = s.axes := State.wrBit_axes ..
@[simp] theorem State.setMap_axm (base i : Nat) (b : Bool) : (s.setMap base i b).axm = s.axm := State.wrBit_axm ..
@[simp] theorem State.setMap_eiu (base i : Nat) (b : Bool) : (s.setMap base i b).eiu = s.eiu := State.wrBit_eiu ..
@[simp] theorem State.setMap_dio (base i : Nat) (b : Bool) : (s.setMap base i b).dio = s.dio := State.wrBit_dio ..
@[simp] theorem State.setMap_lau (base i : Nat) (b : Bool) : (s.setMap base i b).lau = s.lau := State.wrBit_lau ..
@[simp] theorem State.setMap_vms (base i : Nat) (b : Bool) : (s.setMap base i b).vms = s.vms := State.wrBit_vms ..
@[simp] theorem State.setMap_cea (base i : Nat) (b : Bool) : (s.setMap base i b).cea = s.cea := State.wrBit_cea ..
@[simp] theorem State.setMap_slc (base i : Nat) (b : Bool) : (s.setMap base i b).slc = s.slc := State.wrBit_slc ..
@[simp] theorem State.setMap_fbr (base i : Nat) (b : Bool) : (s.setMap base i b).fbr = s.fbr := State.wrBit_fbr ..
@[simp] theorem State.setMap_twu (base i : Nat) (b : Bool) : (s.setMap base i b).twu = s.twu := State.wrBit_twu ..
@[simp] theorem State.setMap_sfi (base i : Nat) (b : Bool) : (s.setMap base i b).sfi = s.sfi := State.wrBit_sfi ..
@[simp] theorem State.setMap_mbx (base i : Nat) (b : Bool) : (s.setMap base i b).mbx = s.mbx := State.wrBit_mbx ..
@[simp] theorem State.setMap_evr (base i : Nat) (b : Bool) : (s.setMap base i b).evr = s.evr := State.wrBit_evr ..
@[simp] theorem State.setMap_pcie (base i : Nat) (b : Bool) : (s.setMap base i b).pcie = s.pcie := State.wrBit_pcie ..
@[simp] theorem State.setMap_wks (base i : Nat) (b : Bool) : (s.setMap base i b).wks = s.wks := State.wrBit_wks ..
@[simp] theorem State.setMap_cap (base i : Nat) (b : Bool) : (s.setMap base i b).cap = s.cap := State.wrBit_cap ..
@[simp] theorem State.setMap_elg (base i : Nat) (b : Bool) : (s.setMap base i b).elg = s.elg := State.wrBit_elg ..
@[simp] theorem State.setMap_hlm (base i : Nat) (b : Bool) : (s.setMap base i b).hlm = s.hlm := State.wrBit_hlm ..

/-! `State.wr64` -/

@[simp] theorem State.wr64_pending (lo hi : Nat) (v : DWord) : (s.wr64 lo hi v).pending = s.pending := (State.wr_pending ..).trans (State.wr_pending ..)
@[simp] theorem State.wr64_freeCtr (lo hi : Nat) (v : DWord) : (s.wr64 lo hi v).freeCtr = s.freeCtr := (State.wr_freeCtr ..).trans (State.wr_freeCtr ..)
@[simp] theorem State.wr64_wire (lo hi : Nat) (v : DWord) : (s.wr64 lo hi v).wire = s.wire := (State.wr_wire ..).trans (State.wr_wire ..)
@[simp] theorem State.wr64_clk (lo hi : Nat) (v : DWord) : (s.wr64 lo hi v).clk = s.clk := (State.wr_clk ..).trans (State.wr_clk ..)
@[simp] theorem State.wr64_ft (lo hi : Nat) (v : DWord) : (s.wr64 lo hi v).ft = s.ft := (State.wr_ft ..).trans (State.wr_ft ..)
@[simp] theorem State.wr64_regs (lo hi : Nat) (v : DWord) : (s.wr64 lo hi v).regs = ((s.wr lo (loW v)).wr hi (hiW v)).regs := rfl
@[simp] theorem State.wr64_dram (lo hi : Nat) (v : DWord) : (s.wr64 lo hi v).dram = s.dram := (State.wr_dram ..).trans (State.wr_dram ..)
@[simp] theorem State.wr64_gens (lo hi : Nat) (v : DWord) : (s.wr64 lo hi v).gens = s.gens := (State.wr_gens ..).trans (State.wr_gens ..)
@[simp] theorem State.wr64_sigs (lo hi : Nat) (v : DWord) : (s.wr64 lo hi v).sigs = s.sigs := (State.wr_sigs ..).trans (State.wr_sigs ..)
@[simp] theorem State.wr64_sigPrev (lo hi : Nat) (v : DWord) : (s.wr64 lo hi v).sigPrev = s.sigPrev := (State.wr_sigPrev ..).trans (State.wr_sigPrev ..)
@[simp] theorem State.wr64_remote (lo hi : Nat) (v : DWord) : (s.wr64 lo hi v).remote = s.remote := (State.wr_remote ..).trans (State.wr_remote ..)
@[simp] theorem State.wr64_remotePrev (lo hi : Nat) (v : DWord) : (s.wr64 lo hi v).remotePrev = s.remotePrev := (State.wr_remotePrev ..).trans (State.wr_remotePrev ..)
@[simp] theorem State.wr64_fuses (lo hi : Nat) (v : DWord) : (s.wr64 lo hi v).fuses = s.fuses := (State.wr_fuses ..).trans (State.wr_fuses ..)
@[simp] theorem State.wr64_glb (lo hi : Nat) (v : DWord) : (s.wr64 lo hi v).glb = s.glb := (State.wr_glb ..).trans (State.wr_glb ..)
@[simp] theorem State.wr64_pem (lo hi : Nat) (v : DWord) : (s.wr64 lo hi v).pem = s.pem := (State.wr_pem ..).trans (State.wr_pem ..)
@[simp] theorem State.wr64_lcu (lo hi : Nat) (v : DWord) : (s.wr64 lo hi v).lcu = s.lcu := (State.wr_lcu ..).trans (State.wr_lcu ..)
@[simp] theorem State.wr64_cfl (lo hi : Nat) (v : DWord) : (s.wr64 lo hi v).cfl = s.cfl := (State.wr_cfl ..).trans (State.wr_cfl ..)
@[simp] theorem State.wr64_tbu (lo hi : Nat) (v : DWord) : (s.wr64 lo hi v).tbu = s.tbu := (State.wr_tbu ..).trans (State.wr_tbu ..)
@[simp] theorem State.wr64_cyc (lo hi : Nat) (v : DWord) : (s.wr64 lo hi v).cyc = s.cyc := (State.wr_cyc ..).trans (State.wr_cyc ..)
@[simp] theorem State.wr64_axes (lo hi : Nat) (v : DWord) : (s.wr64 lo hi v).axes = s.axes := (State.wr_axes ..).trans (State.wr_axes ..)
@[simp] theorem State.wr64_axm (lo hi : Nat) (v : DWord) : (s.wr64 lo hi v).axm = s.axm := (State.wr_axm ..).trans (State.wr_axm ..)
@[simp] theorem State.wr64_eiu (lo hi : Nat) (v : DWord) : (s.wr64 lo hi v).eiu = s.eiu := (State.wr_eiu ..).trans (State.wr_eiu ..)
@[simp] theorem State.wr64_dio (lo hi : Nat) (v : DWord) : (s.wr64 lo hi v).dio = s.dio := (State.wr_dio ..).trans (State.wr_dio ..)
@[simp] theorem State.wr64_lau (lo hi : Nat) (v : DWord) : (s.wr64 lo hi v).lau = s.lau := (State.wr_lau ..).trans (State.wr_lau ..)
@[simp] theorem State.wr64_vms (lo hi : Nat) (v : DWord) : (s.wr64 lo hi v).vms = s.vms := (State.wr_vms ..).trans (State.wr_vms ..)
@[simp] theorem State.wr64_cea (lo hi : Nat) (v : DWord) : (s.wr64 lo hi v).cea = s.cea := (State.wr_cea ..).trans (State.wr_cea ..)
@[simp] theorem State.wr64_slc (lo hi : Nat) (v : DWord) : (s.wr64 lo hi v).slc = s.slc := (State.wr_slc ..).trans (State.wr_slc ..)
@[simp] theorem State.wr64_fbr (lo hi : Nat) (v : DWord) : (s.wr64 lo hi v).fbr = s.fbr := (State.wr_fbr ..).trans (State.wr_fbr ..)
@[simp] theorem State.wr64_twu (lo hi : Nat) (v : DWord) : (s.wr64 lo hi v).twu = s.twu := (State.wr_twu ..).trans (State.wr_twu ..)
@[simp] theorem State.wr64_sfi (lo hi : Nat) (v : DWord) : (s.wr64 lo hi v).sfi = s.sfi := (State.wr_sfi ..).trans (State.wr_sfi ..)
@[simp] theorem State.wr64_mbx (lo hi : Nat) (v : DWord) : (s.wr64 lo hi v).mbx = s.mbx := (State.wr_mbx ..).trans (State.wr_mbx ..)
@[simp] theorem State.wr64_evr (lo hi : Nat) (v : DWord) : (s.wr64 lo hi v).evr = s.evr := (State.wr_evr ..).trans (State.wr_evr ..)
@[simp] theorem State.wr64_pcie (lo hi : Nat) (v : DWord) : (s.wr64 lo hi v).pcie = s.pcie := (State.wr_pcie ..).trans (State.wr_pcie ..)
@[simp] theorem State.wr64_wks (lo hi : Nat) (v : DWord) : (s.wr64 lo hi v).wks = s.wks := (State.wr_wks ..).trans (State.wr_wks ..)
@[simp] theorem State.wr64_cap (lo hi : Nat) (v : DWord) : (s.wr64 lo hi v).cap = s.cap := (State.wr_cap ..).trans (State.wr_cap ..)
@[simp] theorem State.wr64_elg (lo hi : Nat) (v : DWord) : (s.wr64 lo hi v).elg = s.elg := (State.wr_elg ..).trans (State.wr_elg ..)
@[simp] theorem State.wr64_hlm (lo hi : Nat) (v : DWord) : (s.wr64 lo hi v).hlm = s.hlm := (State.wr_hlm ..).trans (State.wr_hlm ..)

/-! `State.dramWrite` -/

@[simp] theorem State.dramWrite_pending (a : Nat) (bs : List Byte) : (s.dramWrite a bs).pending = s.pending := by unfold State.dramWrite; rfl
@[simp] theorem State.dramWrite_freeCtr (a : Nat) (bs : List Byte) : (s.dramWrite a bs).freeCtr = s.freeCtr := by unfold State.dramWrite; rfl
@[simp] theorem State.dramWrite_wire (a : Nat) (bs : List Byte) : (s.dramWrite a bs).wire = s.wire := by unfold State.dramWrite; rfl
@[simp] theorem State.dramWrite_clk (a : Nat) (bs : List Byte) : (s.dramWrite a bs).clk = s.clk := by unfold State.dramWrite; rfl
@[simp] theorem State.dramWrite_ft (a : Nat) (bs : List Byte) : (s.dramWrite a bs).ft = s.ft := by unfold State.dramWrite; rfl
@[simp] theorem State.dramWrite_regs (a : Nat) (bs : List Byte) : (s.dramWrite a bs).regs = s.regs := by unfold State.dramWrite; rfl
@[simp] theorem State.dramWrite_dram (a : Nat) (bs : List Byte) : (s.dramWrite a bs).dram = memPut s.dram a (bs.take (s.dramSize - a)) := rfl
@[simp] theorem State.dramWrite_gens (a : Nat) (bs : List Byte) : (s.dramWrite a bs).gens = s.gens := by unfold State.dramWrite; rfl
@[simp] theorem State.dramWrite_sigs (a : Nat) (bs : List Byte) : (s.dramWrite a bs).sigs = s.sigs := by unfold State.dramWrite; rfl
@[simp] theorem State.dramWrite_sigPrev (a : Nat) (bs : List Byte) : (s.dramWrite a bs).sigPrev = s.sigPrev := by unfold State.dramWrite; rfl
@[simp] theorem State.dramWrite_remote (a : Nat) (bs : List Byte) : (s.dramWrite a bs).remote = s.remote := by unfold State.dramWrite; rfl
@[simp] theorem State.dramWrite_remotePrev (a : Nat) (bs : List Byte) : (s.dramWrite a bs).remotePrev = s.remotePrev := by unfold State.dramWrite; rfl
@[simp] theorem State.dramWrite_fuses (a : Nat) (bs : List Byte) : (s.dramWrite a bs).fuses = s.fuses := by unfold State.dramWrite; rfl
@[simp] theorem State.dramWrite_glb (a : Nat) (bs : List Byte) : (s.dramWrite a bs).glb = s.glb := by unfold State.dramWrite; rfl
@[simp] theorem State.dramWrite_pem (a : Nat) (bs : List Byte) : (s.dramWrite a bs).pem = s.pem := by unfold State.dramWrite; rfl
@[simp] theorem State.dramWrite_lcu (a : Nat) (bs : List Byte) : (s.dramWrite a bs).lcu = s.lcu := by unfold State.dramWrite; rfl
@[simp] theorem State.dramWrite_cfl (a : Nat) (bs : List Byte) : (s.dramWrite a bs).cfl = s.cfl := by unfold State.dramWrite; rfl
@[simp] theorem State.dramWrite_tbu (a : Nat) (bs : List Byte) : (s.dramWrite a bs).tbu = s.tbu := by unfold State.dramWrite; rfl
@[simp] theorem State.dramWrite_cyc (a : Nat) (bs : List Byte) : (s.dramWrite a bs).cyc = s.cyc := by unfold State.dramWrite; rfl
@[simp] theorem State.dramWrite_axes (a : Nat) (bs : List Byte) : (s.dramWrite a bs).axes = s.axes := by unfold State.dramWrite; rfl
@[simp] theorem State.dramWrite_axm (a : Nat) (bs : List Byte) : (s.dramWrite a bs).axm = s.axm := by unfold State.dramWrite; rfl
@[simp] theorem State.dramWrite_eiu (a : Nat) (bs : List Byte) : (s.dramWrite a bs).eiu = s.eiu := by unfold State.dramWrite; rfl
@[simp] theorem State.dramWrite_dio (a : Nat) (bs : List Byte) : (s.dramWrite a bs).dio = s.dio := by unfold State.dramWrite; rfl
@[simp] theorem State.dramWrite_lau (a : Nat) (bs : List Byte) : (s.dramWrite a bs).lau = s.lau := by unfold State.dramWrite; rfl
@[simp] theorem State.dramWrite_vms (a : Nat) (bs : List Byte) : (s.dramWrite a bs).vms = s.vms := by unfold State.dramWrite; rfl
@[simp] theorem State.dramWrite_cea (a : Nat) (bs : List Byte) : (s.dramWrite a bs).cea = s.cea := by unfold State.dramWrite; rfl
@[simp] theorem State.dramWrite_slc (a : Nat) (bs : List Byte) : (s.dramWrite a bs).slc = s.slc := by unfold State.dramWrite; rfl
@[simp] theorem State.dramWrite_fbr (a : Nat) (bs : List Byte) : (s.dramWrite a bs).fbr = s.fbr := by unfold State.dramWrite; rfl
@[simp] theorem State.dramWrite_twu (a : Nat) (bs : List Byte) : (s.dramWrite a bs).twu = s.twu := by unfold State.dramWrite; rfl
@[simp] theorem State.dramWrite_sfi (a : Nat) (bs : List Byte) : (s.dramWrite a bs).sfi = s.sfi := by unfold State.dramWrite; rfl
@[simp] theorem State.dramWrite_mbx (a : Nat) (bs : List Byte) : (s.dramWrite a bs).mbx = s.mbx := by unfold State.dramWrite; rfl
@[simp] theorem State.dramWrite_evr (a : Nat) (bs : List Byte) : (s.dramWrite a bs).evr = s.evr := by unfold State.dramWrite; rfl
@[simp] theorem State.dramWrite_pcie (a : Nat) (bs : List Byte) : (s.dramWrite a bs).pcie = s.pcie := by unfold State.dramWrite; rfl
@[simp] theorem State.dramWrite_wks (a : Nat) (bs : List Byte) : (s.dramWrite a bs).wks = s.wks := by unfold State.dramWrite; rfl
@[simp] theorem State.dramWrite_cap (a : Nat) (bs : List Byte) : (s.dramWrite a bs).cap = s.cap := by unfold State.dramWrite; rfl
@[simp] theorem State.dramWrite_elg (a : Nat) (bs : List Byte) : (s.dramWrite a bs).elg = s.elg := by unfold State.dramWrite; rfl
@[simp] theorem State.dramWrite_hlm (a : Nat) (bs : List Byte) : (s.dramWrite a bs).hlm = s.hlm := by unfold State.dramWrite; rfl

/-! `State.retire` -/

@[simp] theorem State.retire_pending (t i : Nat) : (s.retire t i).pending = s.pending := by unfold State.retire; rfl
@[simp] theorem State.retire_freeCtr (t i : Nat) : (s.retire t i).freeCtr = s.freeCtr := by unfold State.retire; rfl
@[simp] theorem State.retire_wire (t i : Nat) : (s.retire t i).wire = s.wire := by unfold State.retire; rfl
@[simp] theorem State.retire_clk (t i : Nat) : (s.retire t i).clk = s.clk := by unfold State.retire; rfl
@[simp] theorem State.retire_ft (t i : Nat) : (s.retire t i).ft = s.ft := by unfold State.retire; rfl
@[simp] theorem State.retire_regs (t i : Nat) : (s.retire t i).regs = s.regs := by unfold State.retire; rfl
@[simp] theorem State.retire_dram (t i : Nat) : (s.retire t i).dram = s.dram := by unfold State.retire; rfl
@[simp] theorem State.retire_sigs (t i : Nat) : (s.retire t i).sigs = s.sigs := by unfold State.retire; rfl
@[simp] theorem State.retire_sigPrev (t i : Nat) : (s.retire t i).sigPrev = s.sigPrev := by unfold State.retire; rfl
@[simp] theorem State.retire_remote (t i : Nat) : (s.retire t i).remote = s.remote := by unfold State.retire; rfl
@[simp] theorem State.retire_remotePrev (t i : Nat) : (s.retire t i).remotePrev = s.remotePrev := by unfold State.retire; rfl
@[simp] theorem State.retire_fuses (t i : Nat) : (s.retire t i).fuses = s.fuses := by unfold State.retire; rfl
@[simp] theorem State.retire_glb (t i : Nat) : (s.retire t i).glb = s.glb := by unfold State.retire; rfl
@[simp] theorem State.retire_pem (t i : Nat) : (s.retire t i).pem = s.pem := by unfold State.retire; rfl
@[simp] theorem State.retire_lcu (t i : Nat) : (s.retire t i).lcu = s.lcu := by unfold State.retire; rfl
@[simp] theorem State.retire_cfl (t i : Nat) : (s.retire t i).cfl = s.cfl := by unfold State.retire; rfl
@[simp] theorem State.retire_tbu (t i : Nat) : (s.retire t i).tbu = s.tbu := by unfold State.retire; rfl
@[simp] theorem State.retire_cyc (t i : Nat) : (s.retire t i).cyc = s.cyc := by unfold State.retire; rfl
@[simp] theorem State.retire_axes (t i : Nat) : (s.retire t i).axes = s.axes := by unfold State.retire; rfl
@[simp] theorem State.retire_axm (t i : Nat) : (s.retire t i).axm = s.axm := by unfold State.retire; rfl
@[simp] theorem State.retire_eiu (t i : Nat) : (s.retire t i).eiu = s.eiu := by unfold State.retire; rfl
@[simp] theorem State.retire_dio (t i : Nat) : (s.retire t i).dio = s.dio := by unfold State.retire; rfl
@[simp] theorem State.retire_lau (t i : Nat) : (s.retire t i).lau = s.lau := by unfold State.retire; rfl
@[simp] theorem State.retire_vms (t i : Nat) : (s.retire t i).vms = s.vms := by unfold State.retire; rfl
@[simp] theorem State.retire_cea (t i : Nat) : (s.retire t i).cea = s.cea := by unfold State.retire; rfl
@[simp] theorem State.retire_slc (t i : Nat) : (s.retire t i).slc = s.slc := by unfold State.retire; rfl
@[simp] theorem State.retire_fbr (t i : Nat) : (s.retire t i).fbr = s.fbr := by unfold State.retire; rfl
@[simp] theorem State.retire_twu (t i : Nat) : (s.retire t i).twu = s.twu := by unfold State.retire; rfl
@[simp] theorem State.retire_sfi (t i : Nat) : (s.retire t i).sfi = s.sfi := by unfold State.retire; rfl
@[simp] theorem State.retire_mbx (t i : Nat) : (s.retire t i).mbx = s.mbx := by unfold State.retire; rfl
@[simp] theorem State.retire_evr (t i : Nat) : (s.retire t i).evr = s.evr := by unfold State.retire; rfl
@[simp] theorem State.retire_pcie (t i : Nat) : (s.retire t i).pcie = s.pcie := by unfold State.retire; rfl
@[simp] theorem State.retire_wks (t i : Nat) : (s.retire t i).wks = s.wks := by unfold State.retire; rfl
@[simp] theorem State.retire_cap (t i : Nat) : (s.retire t i).cap = s.cap := by unfold State.retire; rfl
@[simp] theorem State.retire_elg (t i : Nat) : (s.retire t i).elg = s.elg := by unfold State.retire; rfl
@[simp] theorem State.retire_hlm (t i : Nat) : (s.retire t i).hlm = s.hlm := by unfold State.retire; rfl

/-! `State.send` -/

@[simp] theorem State.send_pending (w : WireOut) : (s.send w).pending = s.pending := by unfold State.send; rfl
@[simp] theorem State.send_freeCtr (w : WireOut) : (s.send w).freeCtr = s.freeCtr := by unfold State.send; rfl
@[simp] theorem State.send_wire (w : WireOut) : (s.send w).wire = w :: s.wire := rfl
@[simp] theorem State.send_clk (w : WireOut) : (s.send w).clk = s.clk := by unfold State.send; rfl
@[simp] theorem State.send_ft (w : WireOut) : (s.send w).ft = s.ft := by unfold State.send; rfl
@[simp] theorem State.send_regs (w : WireOut) : (s.send w).regs = s.regs := by unfold State.send; rfl
@[simp] theorem State.send_dram (w : WireOut) : (s.send w).dram = s.dram := by unfold State.send; rfl
@[simp] theorem State.send_gens (w : WireOut) : (s.send w).gens = s.gens := by unfold State.send; rfl
@[simp] theorem State.send_sigs (w : WireOut) : (s.send w).sigs = s.sigs := by unfold State.send; rfl
@[simp] theorem State.send_sigPrev (w : WireOut) : (s.send w).sigPrev = s.sigPrev := by unfold State.send; rfl
@[simp] theorem State.send_remote (w : WireOut) : (s.send w).remote = s.remote := by unfold State.send; rfl
@[simp] theorem State.send_remotePrev (w : WireOut) : (s.send w).remotePrev = s.remotePrev := by unfold State.send; rfl
@[simp] theorem State.send_fuses (w : WireOut) : (s.send w).fuses = s.fuses := by unfold State.send; rfl
@[simp] theorem State.send_glb (w : WireOut) : (s.send w).glb = s.glb := by unfold State.send; rfl
@[simp] theorem State.send_pem (w : WireOut) : (s.send w).pem = s.pem := by unfold State.send; rfl
@[simp] theorem State.send_lcu (w : WireOut) : (s.send w).lcu = s.lcu := by unfold State.send; rfl
@[simp] theorem State.send_cfl (w : WireOut) : (s.send w).cfl = s.cfl := by unfold State.send; rfl
@[simp] theorem State.send_tbu (w : WireOut) : (s.send w).tbu = s.tbu := by unfold State.send; rfl
@[simp] theorem State.send_cyc (w : WireOut) : (s.send w).cyc = s.cyc := by unfold State.send; rfl
@[simp] theorem State.send_axes (w : WireOut) : (s.send w).axes = s.axes := by unfold State.send; rfl
@[simp] theorem State.send_axm (w : WireOut) : (s.send w).axm = s.axm := by unfold State.send; rfl
@[simp] theorem State.send_eiu (w : WireOut) : (s.send w).eiu = s.eiu := by unfold State.send; rfl
@[simp] theorem State.send_dio (w : WireOut) : (s.send w).dio = s.dio := by unfold State.send; rfl
@[simp] theorem State.send_lau (w : WireOut) : (s.send w).lau = s.lau := by unfold State.send; rfl
@[simp] theorem State.send_vms (w : WireOut) : (s.send w).vms = s.vms := by unfold State.send; rfl
@[simp] theorem State.send_cea (w : WireOut) : (s.send w).cea = s.cea := by unfold State.send; rfl
@[simp] theorem State.send_slc (w : WireOut) : (s.send w).slc = s.slc := by unfold State.send; rfl
@[simp] theorem State.send_fbr (w : WireOut) : (s.send w).fbr = s.fbr := by unfold State.send; rfl
@[simp] theorem State.send_twu (w : WireOut) : (s.send w).twu = s.twu := by unfold State.send; rfl
@[simp] theorem State.send_sfi (w : WireOut) : (s.send w).sfi = s.sfi := by unfold State.send; rfl
@[simp] theorem State.send_mbx (w : WireOut) : (s.send w).mbx = s.mbx := by unfold State.send; rfl
@[simp] theorem State.send_evr (w : WireOut) : (s.send w).evr = s.evr := by unfold State.send; rfl
@[simp] theorem State.send_pcie (w : WireOut) : (s.send w).pcie = s.pcie := by unfold State.send; rfl
@[simp] theorem State.send_wks (w : WireOut) : (s.send w).wks = s.wks := by unfold State.send; rfl
@[simp] theorem State.send_cap (w : WireOut) : (s.send w).cap = s.cap := by unfold State.send; rfl
@[simp] theorem State.send_elg (w : WireOut) : (s.send w).elg = s.elg := by unfold State.send; rfl
@[simp] theorem State.send_hlm (w : WireOut) : (s.send w).hlm = s.hlm := by unfold State.send; rfl

/-! `State.setSrc` -/

@[simp] theorem State.setSrc_pending (n : Nat) (x : Src) : (s.setSrc n x).pending = s.pending := by unfold State.setSrc; rfl
@[simp] theorem State.setSrc_freeCtr (n : Nat) (x : Src) : (s.setSrc n x).freeCtr = s.freeCtr := by unfold State.setSrc; rfl
@[simp] theorem State.setSrc_wire (n : Nat) (x : Src) : (s.setSrc n x).wire = s.wire := by unfold State.setSrc; rfl
@[simp] theorem State.setSrc_clk (n : Nat) (x : Src) : (s.setSrc n x).clk = s.clk := by unfold State.setSrc; rfl
@[simp] theorem State.setSrc_ft (n : Nat) (x : Src) : (s.setSrc n x).ft = s.ft := by unfold State.setSrc; rfl
@[simp] theorem State.setSrc_regs (n : Nat) (x : Src) : (s.setSrc n x).regs = s.regs := by unfold State.setSrc; rfl
@[simp] theorem State.setSrc_dram (n : Nat) (x : Src) : (s.setSrc n x).dram = s.dram := by unfold State.setSrc; rfl
@[simp] theorem State.setSrc_gens (n : Nat) (x : Src) : (s.setSrc n x).gens = s.gens := by unfold State.setSrc; rfl
@[simp] theorem State.setSrc_sigs (n : Nat) (x : Src) : (s.setSrc n x).sigs = s.sigs := by unfold State.setSrc; rfl
@[simp] theorem State.setSrc_sigPrev (n : Nat) (x : Src) : (s.setSrc n x).sigPrev = s.sigPrev := by unfold State.setSrc; rfl
@[simp] theorem State.setSrc_remote (n : Nat) (x : Src) : (s.setSrc n x).remote = s.remote := by unfold State.setSrc; rfl
@[simp] theorem State.setSrc_remotePrev (n : Nat) (x : Src) : (s.setSrc n x).remotePrev = s.remotePrev := by unfold State.setSrc; rfl
@[simp] theorem State.setSrc_fuses (n : Nat) (x : Src) : (s.setSrc n x).fuses = s.fuses := by unfold State.setSrc; rfl
@[simp] theorem State.setSrc_glb (n : Nat) (x : Src) : (s.setSrc n x).glb = s.glb := by unfold State.setSrc; rfl
@[simp] theorem State.setSrc_pem (n : Nat) (x : Src) : (s.setSrc n x).pem = s.pem := by unfold State.setSrc; rfl
@[simp] theorem State.setSrc_lcu (n : Nat) (x : Src) : (s.setSrc n x).lcu = s.lcu := by unfold State.setSrc; rfl
@[simp] theorem State.setSrc_cfl (n : Nat) (x : Src) : (s.setSrc n x).cfl = s.cfl := by unfold State.setSrc; rfl
@[simp] theorem State.setSrc_tbu (n : Nat) (x : Src) : (s.setSrc n x).tbu = s.tbu := by unfold State.setSrc; rfl
@[simp] theorem State.setSrc_cyc (n : Nat) (x : Src) : (s.setSrc n x).cyc = s.cyc := by unfold State.setSrc; rfl
@[simp] theorem State.setSrc_axes (n : Nat) (x : Src) : (s.setSrc n x).axes = s.axes := by unfold State.setSrc; rfl
@[simp] theorem State.setSrc_axm (n : Nat) (x : Src) : (s.setSrc n x).axm = s.axm := by unfold State.setSrc; rfl
@[simp] theorem State.setSrc_eiu (n : Nat) (x : Src) : (s.setSrc n x).eiu = s.eiu := by unfold State.setSrc; rfl
@[simp] theorem State.setSrc_dio (n : Nat) (x : Src) : (s.setSrc n x).dio = s.dio := by unfold State.setSrc; rfl
@[simp] theorem State.setSrc_lau (n : Nat) (x : Src) : (s.setSrc n x).lau = s.lau := by unfold State.setSrc; rfl
@[simp] theorem State.setSrc_vms (n : Nat) (x : Src) : (s.setSrc n x).vms = s.vms := by unfold State.setSrc; rfl
@[simp] theorem State.setSrc_cea (n : Nat) (x : Src) : (s.setSrc n x).cea = s.cea := by unfold State.setSrc; rfl
@[simp] theorem State.setSrc_slc (n : Nat) (x : Src) : (s.setSrc n x).slc = s.slc := by unfold State.setSrc; rfl
@[simp] theorem State.setSrc_fbr (n : Nat) (x : Src) : (s.setSrc n x).fbr = s.fbr := by unfold State.setSrc; rfl
@[simp] theorem State.setSrc_twu (n : Nat) (x : Src) : (s.setSrc n x).twu = s.twu := by unfold State.setSrc; rfl
@[simp] theorem State.setSrc_sfi (n : Nat) (x : Src) : (s.setSrc n x).sfi = s.sfi := by unfold State.setSrc; rfl
@[simp] theorem State.setSrc_mbx (n : Nat) (x : Src) : (s.setSrc n x).mbx = s.mbx := by unfold State.setSrc; rfl
@[simp] theorem State.setSrc_evr (n : Nat) (x : Src) : (s.setSrc n x).evr = { s.evr with srcs := Tab.set (Src.reset n) s.evr.srcs n x } := rfl
@[simp] theorem State.setSrc_pcie (n : Nat) (x : Src) : (s.setSrc n x).pcie = s.pcie := by unfold State.setSrc; rfl
@[simp] theorem State.setSrc_wks (n : Nat) (x : Src) : (s.setSrc n x).wks = s.wks := by unfold State.setSrc; rfl
@[simp] theorem State.setSrc_cap (n : Nat) (x : Src) : (s.setSrc n x).cap = s.cap := by unfold State.setSrc; rfl
@[simp] theorem State.setSrc_elg (n : Nat) (x : Src) : (s.setSrc n x).elg = s.elg := by unfold State.setSrc; rfl
@[simp] theorem State.setSrc_hlm (n : Nat) (x : Src) : (s.setSrc n x).hlm = s.hlm := by unfold State.setSrc; rfl

/-! `State.setAxis` -/

@[simp] theorem State.setAxis_pending (a : Nat) (x : Axis) : (s.setAxis a x).pending = s.pending := by unfold State.setAxis; rfl
@[simp] theorem State.setAxis_freeCtr (a : Nat) (x : Axis) : (s.setAxis a x).freeCtr = s.freeCtr := by unfold State.setAxis; rfl
@[simp] theorem State.setAxis_wire (a : Nat) (x : Axis) : (s.setAxis a x).wire = s.wire := by unfold State.setAxis; rfl
@[simp] theorem State.setAxis_clk (a : Nat) (x : Axis) : (s.setAxis a x).clk = s.clk := by unfold State.setAxis; rfl
@[simp] theorem State.setAxis_ft (a : Nat) (x : Axis) : (s.setAxis a x).ft = s.ft := by unfold State.setAxis; rfl
@[simp] theorem State.setAxis_regs (a : Nat) (x : Axis) : (s.setAxis a x).regs = s.regs := by unfold State.setAxis; rfl
@[simp] theorem State.setAxis_dram (a : Nat) (x : Axis) : (s.setAxis a x).dram = s.dram := by unfold State.setAxis; rfl
@[simp] theorem State.setAxis_gens (a : Nat) (x : Axis) : (s.setAxis a x).gens = s.gens := by unfold State.setAxis; rfl
@[simp] theorem State.setAxis_sigs (a : Nat) (x : Axis) : (s.setAxis a x).sigs = s.sigs := by unfold State.setAxis; rfl
@[simp] theorem State.setAxis_sigPrev (a : Nat) (x : Axis) : (s.setAxis a x).sigPrev = s.sigPrev := by unfold State.setAxis; rfl
@[simp] theorem State.setAxis_remote (a : Nat) (x : Axis) : (s.setAxis a x).remote = s.remote := by unfold State.setAxis; rfl
@[simp] theorem State.setAxis_remotePrev (a : Nat) (x : Axis) : (s.setAxis a x).remotePrev = s.remotePrev := by unfold State.setAxis; rfl
@[simp] theorem State.setAxis_fuses (a : Nat) (x : Axis) : (s.setAxis a x).fuses = s.fuses := by unfold State.setAxis; rfl
@[simp] theorem State.setAxis_glb (a : Nat) (x : Axis) : (s.setAxis a x).glb = s.glb := by unfold State.setAxis; rfl
@[simp] theorem State.setAxis_pem (a : Nat) (x : Axis) : (s.setAxis a x).pem = s.pem := by unfold State.setAxis; rfl
@[simp] theorem State.setAxis_lcu (a : Nat) (x : Axis) : (s.setAxis a x).lcu = s.lcu := by unfold State.setAxis; rfl
@[simp] theorem State.setAxis_cfl (a : Nat) (x : Axis) : (s.setAxis a x).cfl = s.cfl := by unfold State.setAxis; rfl
@[simp] theorem State.setAxis_tbu (a : Nat) (x : Axis) : (s.setAxis a x).tbu = s.tbu := by unfold State.setAxis; rfl
@[simp] theorem State.setAxis_cyc (a : Nat) (x : Axis) : (s.setAxis a x).cyc = s.cyc := by unfold State.setAxis; rfl
@[simp] theorem State.setAxis_axes (a : Nat) (x : Axis) : (s.setAxis a x).axes = Tab.set {} s.axes a x := rfl
@[simp] theorem State.setAxis_axm (a : Nat) (x : Axis) : (s.setAxis a x).axm = s.axm := by unfold State.setAxis; rfl
@[simp] theorem State.setAxis_eiu (a : Nat) (x : Axis) : (s.setAxis a x).eiu = s.eiu := by unfold State.setAxis; rfl
@[simp] theorem State.setAxis_dio (a : Nat) (x : Axis) : (s.setAxis a x).dio = s.dio := by unfold State.setAxis; rfl
@[simp] theorem State.setAxis_lau (a : Nat) (x : Axis) : (s.setAxis a x).lau = s.lau := by unfold State.setAxis; rfl
@[simp] theorem State.setAxis_vms (a : Nat) (x : Axis) : (s.setAxis a x).vms = s.vms := by unfold State.setAxis; rfl
@[simp] theorem State.setAxis_cea (a : Nat) (x : Axis) : (s.setAxis a x).cea = s.cea := by unfold State.setAxis; rfl
@[simp] theorem State.setAxis_slc (a : Nat) (x : Axis) : (s.setAxis a x).slc = s.slc := by unfold State.setAxis; rfl
@[simp] theorem State.setAxis_fbr (a : Nat) (x : Axis) : (s.setAxis a x).fbr = s.fbr := by unfold State.setAxis; rfl
@[simp] theorem State.setAxis_twu (a : Nat) (x : Axis) : (s.setAxis a x).twu = s.twu := by unfold State.setAxis; rfl
@[simp] theorem State.setAxis_sfi (a : Nat) (x : Axis) : (s.setAxis a x).sfi = s.sfi := by unfold State.setAxis; rfl
@[simp] theorem State.setAxis_mbx (a : Nat) (x : Axis) : (s.setAxis a x).mbx = s.mbx := by unfold State.setAxis; rfl
@[simp] theorem State.setAxis_evr (a : Nat) (x : Axis) : (s.setAxis a x).evr = s.evr := by unfold State.setAxis; rfl
@[simp] theorem State.setAxis_pcie (a : Nat) (x : Axis) : (s.setAxis a x).pcie = s.pcie := by unfold State.setAxis; rfl
@[simp] theorem State.setAxis_wks (a : Nat) (x : Axis) : (s.setAxis a x).wks = s.wks := by unfold State.setAxis; rfl
@[simp] theorem State.setAxis_cap (a : Nat) (x : Axis) : (s.setAxis a x).cap = s.cap := by unfold State.setAxis; rfl
@[simp] theorem State.setAxis_elg (a : Nat) (x : Axis) : (s.setAxis a x).elg = s.elg := by unfold State.setAxis; rfl
@[simp] theorem State.setAxis_hlm (a : Nat) (x : Axis) : (s.setAxis a x).hlm = s.hlm := by unfold State.setAxis; rfl

/-! `State.updAxis` -/

@[simp] theorem State.updAxis_pending (a : Nat) (f : Axis → Axis) : (s.updAxis a f).pending = s.pending := State.setAxis_pending ..
@[simp] theorem State.updAxis_freeCtr (a : Nat) (f : Axis → Axis) : (s.updAxis a f).freeCtr = s.freeCtr := State.setAxis_freeCtr ..
@[simp] theorem State.updAxis_wire (a : Nat) (f : Axis → Axis) : (s.updAxis a f).wire = s.wire := State.setAxis_wire ..
@[simp] theorem State.updAxis_clk (a : Nat) (f : Axis → Axis) : (s.updAxis a f).clk = s.clk := State.setAxis_clk ..
@[simp] theorem State.updAxis_ft (a : Nat) (f : Axis → Axis) : (s.updAxis a f).ft = s.ft := State.setAxis_ft ..
@[simp] theorem State.updAxis_regs (a : Nat) (f : Axis → Axis) : (s.updAxis a f).regs = s.regs := State.setAxis_regs ..
@[simp] theorem State.updAxis_dram (a : Nat) (f : Axis → Axis) : (s.updAxis a f).dram = s.dram := State.setAxis_dram ..
@[simp] theorem State.updAxis_gens (a : Nat) (f : Axis → Axis) : (s.updAxis a f).gens = s.gens := State.setAxis_gens ..
@[simp] theorem State.updAxis_sigs (a : Nat) (f : Axis → Axis) : (s.updAxis a f).sigs = s.sigs := State.setAxis_sigs ..
@[simp] theorem State.updAxis_sigPrev (a : Nat) (f : Axis → Axis) : (s.updAxis a f).sigPrev = s.sigPrev := State.setAxis_sigPrev ..
@[simp] theorem State.updAxis_remote (a : Nat) (f : Axis → Axis) : (s.updAxis a f).remote = s.remote := State.setAxis_remote ..
@[simp] theorem State.updAxis_remotePrev (a : Nat) (f : Axis → Axis) : (s.updAxis a f).remotePrev = s.remotePrev := State.setAxis_remotePrev ..
@[simp] theorem State.updAxis_fuses (a : Nat) (f : Axis → Axis) : (s.updAxis a f).fuses = s.fuses := State.setAxis_fuses ..
@[simp] theorem State.updAxis_glb (a : Nat) (f : Axis → Axis) : (s.updAxis a f).glb = s.glb := State.setAxis_glb ..
@[simp] theorem State.updAxis_pem (a : Nat) (f : Axis → Axis) : (s.updAxis a f).pem = s.pem := State.setAxis_pem ..
@[simp] theorem State.updAxis_lcu (a : Nat) (f : Axis → Axis) : (s.updAxis a f).lcu = s.lcu := State.setAxis_lcu ..
@[simp] theorem State.updAxis_cfl (a : Nat) (f : Axis → Axis) : (s.updAxis a f).cfl = s.cfl := State.setAxis_cfl ..
@[simp] theorem State.updAxis_tbu (a : Nat) (f : Axis → Axis) : (s.updAxis a f).tbu = s.tbu := State.setAxis_tbu ..
@[simp] theorem State.updAxis_cyc (a : Nat) (f : Axis → Axis) : (s.updAxis a f).cyc = s.cyc := State.setAxis_cyc ..
@[simp] theorem State.updAxis_axes (a : Nat) (f : Axis → Axis) : (s.updAxis a f).axes = Tab.set {} s.axes a (f (s.axis a)) := rfl
@[simp] theorem State.updAxis_axm (a : Nat) (f : Axis → Axis) : (s.updAxis a f).axm = s.axm := State.setAxis_axm ..
@[simp] theorem State.updAxis_eiu (a : Nat) (f : Axis → Axis) : (s.updAxis a f).eiu = s.eiu := State.setAxis_eiu ..
@[simp] theorem State.updAxis_dio (a : Nat) (f : Axis → Axis) : (s.updAxis a f).dio = s.dio := State.setAxis_dio ..
@[simp] theorem State.updAxis_lau (a : Nat) (f : Axis → Axis) : (s.updAxis a f).lau = s.lau := State.setAxis_lau ..
@[simp] theorem State.updAxis_vms (a : Nat) (f : Axis → Axis) : (s.updAxis a f).vms = s.vms := State.setAxis_vms ..
@[simp] theorem State.updAxis_cea (a : Nat) (f : Axis → Axis) : (s.updAxis a f).cea = s.cea := State.setAxis_cea ..
@[simp] theorem State.updAxis_slc (a : Nat) (f : Axis → Axis) : (s.updAxis a f).slc = s.slc := State.setAxis_slc ..
@[simp] theorem State.updAxis_fbr (a : Nat) (f : Axis → Axis) : (s.updAxis a f).fbr = s.fbr := State.setAxis_fbr ..
@[simp] theorem State.updAxis_twu (a : Nat) (f : Axis → Axis) : (s.updAxis a f).twu = s.twu := State.setAxis_twu ..
@[simp] theorem State.updAxis_sfi (a : Nat) (f : Axis → Axis) : (s.updAxis a f).sfi = s.sfi := State.setAxis_sfi ..
@[simp] theorem State.updAxis_mbx (a : Nat) (f : Axis → Axis) : (s.updAxis a f).mbx = s.mbx := State.setAxis_mbx ..
@[simp] theorem State.updAxis_evr (a : Nat) (f : Axis → Axis) : (s.updAxis a f).evr = s.evr := State.setAxis_evr ..
@[simp] theorem State.updAxis_pcie (a : Nat) (f : Axis → Axis) : (s.updAxis a f).pcie = s.pcie := State.setAxis_pcie ..
@[simp] theorem State.updAxis_wks (a : Nat) (f : Axis → Axis) : (s.updAxis a f).wks = s.wks := State.setAxis_wks ..
@[simp] theorem State.updAxis_cap (a : Nat) (f : Axis → Axis) : (s.updAxis a f).cap = s.cap := State.setAxis_cap ..
@[simp] theorem State.updAxis_elg (a : Nat) (f : Axis → Axis) : (s.updAxis a f).elg = s.elg := State.setAxis_elg ..
@[simp] theorem State.updAxis_hlm (a : Nat) (f : Axis → Axis) : (s.updAxis a f).hlm = s.hlm := State.setAxis_hlm ..

/-! `State.addCond` -/

@[simp] theorem State.addCond_pending (a code : Nat) : (s.addCond a code).pending = s.pending := State.updAxis_pending ..
@[simp] theorem State.addCond_freeCtr (a code : Nat) : (s.addCond a code).freeCtr = s.freeCtr := State.updAxis_freeCtr ..
@[simp] theorem State.addCond_wire (a code : Nat) : (s.addCond a code).wire = s.wire := State.updAxis_wire ..
@[simp] theorem State.addCond_clk (a code : Nat) : (s.addCond a code).clk = s.clk := State.updAxis_clk ..
@[simp] theorem State.addCond_ft (a code : Nat) : (s.addCond a code).ft = s.ft := State.updAxis_ft ..
@[simp] theorem State.addCond_regs (a code : Nat) : (s.addCond a code).regs = s.regs := State.updAxis_regs ..
@[simp] theorem State.addCond_dram (a code : Nat) : (s.addCond a code).dram = s.dram := State.updAxis_dram ..
@[simp] theorem State.addCond_gens (a code : Nat) : (s.addCond a code).gens = s.gens := State.updAxis_gens ..
@[simp] theorem State.addCond_sigs (a code : Nat) : (s.addCond a code).sigs = s.sigs := State.updAxis_sigs ..
@[simp] theorem State.addCond_sigPrev (a code : Nat) : (s.addCond a code).sigPrev = s.sigPrev := State.updAxis_sigPrev ..
@[simp] theorem State.addCond_remote (a code : Nat) : (s.addCond a code).remote = s.remote := State.updAxis_remote ..
@[simp] theorem State.addCond_remotePrev (a code : Nat) : (s.addCond a code).remotePrev = s.remotePrev := State.updAxis_remotePrev ..
@[simp] theorem State.addCond_fuses (a code : Nat) : (s.addCond a code).fuses = s.fuses := State.updAxis_fuses ..
@[simp] theorem State.addCond_glb (a code : Nat) : (s.addCond a code).glb = s.glb := State.updAxis_glb ..
@[simp] theorem State.addCond_pem (a code : Nat) : (s.addCond a code).pem = s.pem := State.updAxis_pem ..
@[simp] theorem State.addCond_lcu (a code : Nat) : (s.addCond a code).lcu = s.lcu := State.updAxis_lcu ..
@[simp] theorem State.addCond_cfl (a code : Nat) : (s.addCond a code).cfl = s.cfl := State.updAxis_cfl ..
@[simp] theorem State.addCond_tbu (a code : Nat) : (s.addCond a code).tbu = s.tbu := State.updAxis_tbu ..
@[simp] theorem State.addCond_cyc (a code : Nat) : (s.addCond a code).cyc = s.cyc := State.updAxis_cyc ..
@[simp] theorem State.addCond_axm (a code : Nat) : (s.addCond a code).axm = s.axm := State.updAxis_axm ..
@[simp] theorem State.addCond_eiu (a code : Nat) : (s.addCond a code).eiu = s.eiu := State.updAxis_eiu ..
@[simp] theorem State.addCond_dio (a code : Nat) : (s.addCond a code).dio = s.dio := State.updAxis_dio ..
@[simp] theorem State.addCond_lau (a code : Nat) : (s.addCond a code).lau = s.lau := State.updAxis_lau ..
@[simp] theorem State.addCond_vms (a code : Nat) : (s.addCond a code).vms = s.vms := State.updAxis_vms ..
@[simp] theorem State.addCond_cea (a code : Nat) : (s.addCond a code).cea = s.cea := State.updAxis_cea ..
@[simp] theorem State.addCond_slc (a code : Nat) : (s.addCond a code).slc = s.slc := State.updAxis_slc ..
@[simp] theorem State.addCond_fbr (a code : Nat) : (s.addCond a code).fbr = s.fbr := State.updAxis_fbr ..
@[simp] theorem State.addCond_twu (a code : Nat) : (s.addCond a code).twu = s.twu := State.updAxis_twu ..
@[simp] theorem State.addCond_sfi (a code : Nat) : (s.addCond a code).sfi = s.sfi := State.updAxis_sfi ..
@[simp] theorem State.addCond_mbx (a code : Nat) : (s.addCond a code).mbx = s.mbx := State.updAxis_mbx ..
@[simp] theorem State.addCond_evr (a code : Nat) : (s.addCond a code).evr = s.evr := State.updAxis_evr ..
@[simp] theorem State.addCond_pcie (a code : Nat) : (s.addCond a code).pcie = s.pcie := State.updAxis_pcie ..
@[simp] theorem State.addCond_wks (a code : Nat) : (s.addCond a code).wks = s.wks := State.updAxis_wks ..
@[simp] theorem State.addCond_cap (a code : Nat) : (s.addCond a code).cap = s.cap := State.updAxis_cap ..
@[simp] theorem State.addCond_elg (a code : Nat) : (s.addCond a code).elg = s.elg := State.updAxis_elg ..
@[simp] theorem State.addCond_hlm (a code : Nat) : (s.addCond a code).hlm = s.hlm := State.updAxis_hlm ..

/-! `State.delCond` -/

@[simp] theorem State.delCond_pending (a code : Nat) : (s.delCond a code).pending = s.pending := State.updAxis_pending ..
@[simp] theorem State.delCond_freeCtr (a code : Nat) : (s.delCond a code).freeCtr = s.freeCtr := State.updAxis_freeCtr ..
@[simp] theorem State.delCond_wire (a code : Nat) : (s.delCond a code).wire = s.wire := State.updAxis_wire ..
@[simp] theorem State.delCond_clk (a code : Nat) : (s.delCond a code).clk = s.clk := State.updAxis_clk ..
@[simp] theorem State.delCond_ft (a code : Nat) : (s.delCond a code).ft = s.ft := State.updAxis_ft ..
@[simp] theorem State.delCond_regs (a code : Nat) : (s.delCond a code).regs = s.regs := State.updAxis_regs ..
@[simp] theorem State.delCond_dram (a code : Nat) : (s.delCond a code).dram = s.dram := State.updAxis_dram ..
@[simp] theorem State.delCond_gens (a code : Nat) : (s.delCond a code).gens = s.gens := State.updAxis_gens ..
@[simp] theorem State.delCond_sigs (a code : Nat) : (s.delCond a code).sigs = s.sigs := State.updAxis_sigs ..
@[simp] theorem State.delCond_sigPrev (a code : Nat) : (s.delCond a code).sigPrev = s.sigPrev := State.updAxis_sigPrev ..
@[simp] theorem State.delCond_remote (a code : Nat) : (s.delCond a code).remote = s.remote := State.updAxis_remote ..
@[simp] theorem State.delCond_remotePrev (a code : Nat) : (s.delCond a code).remotePrev = s.remotePrev := State.updAxis_remotePrev ..
@[simp] theorem State.delCond_fuses (a code : Nat) : (s.delCond a code).fuses = s.fuses := State.updAxis_fuses ..
@[simp] theorem State.delCond_glb (a code : Nat) : (s.delCond a code).glb = s.glb := State.updAxis_glb ..
@[simp] theorem State.delCond_pem (a code : Nat) : (s.delCond a code).pem = s.pem := State.updAxis_pem ..
@[simp] theorem State.delCond_lcu (a code : Nat) : (s.delCond a code).lcu = s.lcu := State.updAxis_lcu ..
@[simp] theorem State.delCond_cfl (a code : Nat) : (s.delCond a code).cfl = s.cfl := State.updAxis_cfl ..
@[simp] theorem State.delCond_tbu (a code : Nat) : (s.delCond a code).tbu = s.tbu := State.updAxis_tbu ..
@[simp] theorem State.delCond_cyc (a code : Nat) : (s.delCond a code).cyc = s.cyc := State.updAxis_cyc ..
@[simp] theorem State.delCond_axm (a code : Nat) : (s.delCond a code).axm = s.axm := State.updAxis_axm ..
@[simp] theorem State.delCond_eiu (a code : Nat) : (s.delCond a code).eiu = s.eiu := State.updAxis_eiu ..
@[simp] theorem State.delCond_dio (a code : Nat) : (s.delCond a code).dio = s.dio := State.updAxis_dio ..
@[simp] theorem State.delCond_lau (a code : Nat) : (s.delCond a code).lau = s.lau := State.updAxis_lau ..
@[simp] theorem State.delCond_vms (a code : Nat) : (s.delCond a code).vms = s.vms := State.updAxis_vms ..
@[simp] theorem State.delCond_cea (a code : Nat) : (s.delCond a code).cea = s.cea := State.updAxis_cea ..
@[simp] theorem State.delCond_slc (a code : Nat) : (s.delCond a code).slc = s.slc := State.updAxis_slc ..
@[simp] theorem State.delCond_fbr (a code : Nat) : (s.delCond a code).fbr = s.fbr := State.updAxis_fbr ..
@[simp] theorem State.delCond_twu (a code : Nat) : (s.delCond a code).twu = s.twu := State.updAxis_twu ..
@[simp] theorem State.delCond_sfi (a code : Nat) : (s.delCond a code).sfi = s.sfi := State.updAxis_sfi ..
@[simp] theorem State.delCond_mbx (a code : Nat) : (s.delCond a code).mbx = s.mbx := State.updAxis_mbx ..
@[simp] theorem State.delCond_evr (a code : Nat) : (s.delCond a code).evr = s.evr := State.updAxis_evr ..
@[simp] theorem State.delCond_pcie (a code : Nat) : (s.delCond a code).pcie = s.pcie := State.updAxis_pcie ..
@[simp] theorem State.delCond_wks (a code : Nat) : (s.delCond a code).wks = s.wks := State.updAxis_wks ..
@[simp] theorem State.delCond_cap (a code : Nat) : (s.delCond a code).cap = s.cap := State.updAxis_cap ..
@[simp] theorem State.delCond_elg (a code : Nat) : (s.delCond a code).elg = s.elg := State.updAxis_elg ..
@[simp] theorem State.delCond_hlm (a code : Nat) : (s.delCond a code).hlm = s.hlm := State.updAxis_hlm ..

/-! `State.setEng` -/

@[simp] theorem State.setEng_pending (e : Nat) (x : Eng) : (s.setEng e x).pending = s.pending := by unfold State.setEng; rfl
@[simp] theorem State.setEng_freeCtr (e : Nat) (x : Eng) : (s.setEng e x).freeCtr = s.freeCtr := by unfold State.setEng; rfl
@[simp] theorem State.setEng_wire (e : Nat) (x : Eng) : (s.setEng e x).wire = s.wire := by unfold State.setEng; rfl
@[simp] theorem State.setEng_clk (e : Nat) (x : Eng) : (s.setEng e x).clk = s.clk := by unfold State.setEng; rfl
@[simp] theorem State.setEng_ft (e : Nat) (x : Eng) : (s.setEng e x).ft = s.ft := by unfold State.setEng; rfl
@[simp] theorem State.setEng_regs (e : Nat) (x : Eng) : (s.setEng e x).regs = s.regs := by unfold State.setEng; rfl
@[simp] theorem State.setEng_dram (e : Nat) (x : Eng) : (s.setEng e x).dram = s.dram := by unfold State.setEng; rfl
@[simp] theorem State.setEng_gens (e : Nat) (x : Eng) : (s.setEng e x).gens = s.gens := by unfold State.setEng; rfl
@[simp] theorem State.setEng_sigs (e : Nat) (x : Eng) : (s.setEng e x).sigs = s.sigs := by unfold State.setEng; rfl
@[simp] theorem State.setEng_sigPrev (e : Nat) (x : Eng) : (s.setEng e x).sigPrev = s.sigPrev := by unfold State.setEng; rfl
@[simp] theorem State.setEng_remote (e : Nat) (x : Eng) : (s.setEng e x).remote = s.remote := by unfold State.setEng; rfl
@[simp] theorem State.setEng_remotePrev (e : Nat) (x : Eng) : (s.setEng e x).remotePrev = s.remotePrev := by unfold State.setEng; rfl
@[simp] theorem State.setEng_fuses (e : Nat) (x : Eng) : (s.setEng e x).fuses = s.fuses := by unfold State.setEng; rfl
@[simp] theorem State.setEng_glb (e : Nat) (x : Eng) : (s.setEng e x).glb = s.glb := by unfold State.setEng; rfl
@[simp] theorem State.setEng_pem (e : Nat) (x : Eng) : (s.setEng e x).pem = s.pem := by unfold State.setEng; rfl
@[simp] theorem State.setEng_lcu (e : Nat) (x : Eng) : (s.setEng e x).lcu = s.lcu := by unfold State.setEng; rfl
@[simp] theorem State.setEng_cfl (e : Nat) (x : Eng) : (s.setEng e x).cfl = s.cfl := by unfold State.setEng; rfl
@[simp] theorem State.setEng_tbu (e : Nat) (x : Eng) : (s.setEng e x).tbu = s.tbu := by unfold State.setEng; rfl
@[simp] theorem State.setEng_cyc (e : Nat) (x : Eng) : (s.setEng e x).cyc = s.cyc := by unfold State.setEng; rfl
@[simp] theorem State.setEng_axes (e : Nat) (x : Eng) : (s.setEng e x).axes = s.axes := by unfold State.setEng; rfl
@[simp] theorem State.setEng_axm (e : Nat) (x : Eng) : (s.setEng e x).axm = s.axm := by unfold State.setEng; rfl
@[simp] theorem State.setEng_eiu (e : Nat) (x : Eng) : (s.setEng e x).eiu = s.eiu := by unfold State.setEng; rfl
@[simp] theorem State.setEng_dio (e : Nat) (x : Eng) : (s.setEng e x).dio = s.dio := by unfold State.setEng; rfl
@[simp] theorem State.setEng_lau (e : Nat) (x : Eng) : (s.setEng e x).lau = s.lau := by unfold State.setEng; rfl
@[simp] theorem State.setEng_vms (e : Nat) (x : Eng) : (s.setEng e x).vms = s.vms := by unfold State.setEng; rfl
@[simp] theorem State.setEng_cea (e : Nat) (x : Eng) : (s.setEng e x).cea = { s.cea with engs := Tab.set {} s.cea.engs e x } := rfl
@[simp] theorem State.setEng_slc (e : Nat) (x : Eng) : (s.setEng e x).slc = s.slc := by unfold State.setEng; rfl
@[simp] theorem State.setEng_fbr (e : Nat) (x : Eng) : (s.setEng e x).fbr = s.fbr := by unfold State.setEng; rfl
@[simp] theorem State.setEng_twu (e : Nat) (x : Eng) : (s.setEng e x).twu = s.twu := by unfold State.setEng; rfl
@[simp] theorem State.setEng_sfi (e : Nat) (x : Eng) : (s.setEng e x).sfi = s.sfi := by unfold State.setEng; rfl
@[simp] theorem State.setEng_mbx (e : Nat) (x : Eng) : (s.setEng e x).mbx = s.mbx := by unfold State.setEng; rfl
@[simp] theorem State.setEng_evr (e : Nat) (x : Eng) : (s.setEng e x).evr = s.evr := by unfold State.setEng; rfl
@[simp] theorem State.setEng_pcie (e : Nat) (x : Eng) : (s.setEng e x).pcie = s.pcie := by unfold State.setEng; rfl
@[simp] theorem State.setEng_wks (e : Nat) (x : Eng) : (s.setEng e x).wks = s.wks := by unfold State.setEng; rfl
@[simp] theorem State.setEng_cap (e : Nat) (x : Eng) : (s.setEng e x).cap = s.cap := by unfold State.setEng; rfl
@[simp] theorem State.setEng_elg (e : Nat) (x : Eng) : (s.setEng e x).elg = s.elg := by unfold State.setEng; rfl
@[simp] theorem State.setEng_hlm (e : Nat) (x : Eng) : (s.setEng e x).hlm = s.hlm := by unfold State.setEng; rfl

/-! `State.setCore` -/

@[simp] theorem State.setCore_pending (c : Nat) (x : SupCore) : (s.setCore c x).pending = s.pending := State.wrFld_pending ..
@[simp] theorem State.setCore_freeCtr (c : Nat) (x : SupCore) : (s.setCore c x).freeCtr = s.freeCtr := State.wrFld_freeCtr ..
@[simp] theorem State.setCore_wire (c : Nat) (x : SupCore) : (s.setCore c x).wire = s.wire := State.wrFld_wire ..
@[simp] theorem State.setCore_clk (c : Nat) (x : SupCore) : (s.setCore c x).clk = s.clk := State.wrFld_clk ..
@[simp] theorem State.setCore_ft (c : Nat) (x : SupCore) : (s.setCore c x).ft = s.ft := State.wrFld_ft ..
@[simp] theorem State.setCore_dram (c : Nat) (x : SupCore) : (s.setCore c x).dram = s.dram := State.wrFld_dram ..
@[simp] theorem State.setCore_gens (c : Nat) (x : SupCore) : (s.setCore c x).gens = s.gens := State.wrFld_gens ..
@[simp] theorem State.setCore_sigs (c : Nat) (x : SupCore) : (s.setCore c x).sigs = s.sigs := State.wrFld_sigs ..
@[simp] theorem State.setCore_sigPrev (c : Nat) (x : SupCore) : (s.setCore c x).sigPrev = s.sigPrev := State.wrFld_sigPrev ..
@[simp] theorem State.setCore_remote (c : Nat) (x : SupCore) : (s.setCore c x).remote = s.remote := State.wrFld_remote ..
@[simp] theorem State.setCore_remotePrev (c : Nat) (x : SupCore) : (s.setCore c x).remotePrev = s.remotePrev := State.wrFld_remotePrev ..
@[simp] theorem State.setCore_fuses (c : Nat) (x : SupCore) : (s.setCore c x).fuses = s.fuses := State.wrFld_fuses ..
@[simp] theorem State.setCore_glb (c : Nat) (x : SupCore) : (s.setCore c x).glb = s.glb := State.wrFld_glb ..
@[simp] theorem State.setCore_pem (c : Nat) (x : SupCore) : (s.setCore c x).pem = s.pem := State.wrFld_pem ..
@[simp] theorem State.setCore_lcu (c : Nat) (x : SupCore) : (s.setCore c x).lcu = s.lcu := State.wrFld_lcu ..
@[simp] theorem State.setCore_cfl (c : Nat) (x : SupCore) : (s.setCore c x).cfl = s.cfl := State.wrFld_cfl ..
@[simp] theorem State.setCore_tbu (c : Nat) (x : SupCore) : (s.setCore c x).tbu = s.tbu := State.wrFld_tbu ..
@[simp] theorem State.setCore_cyc (c : Nat) (x : SupCore) : (s.setCore c x).cyc = s.cyc := State.wrFld_cyc ..
@[simp] theorem State.setCore_axes (c : Nat) (x : SupCore) : (s.setCore c x).axes = s.axes := State.wrFld_axes ..
@[simp] theorem State.setCore_axm (c : Nat) (x : SupCore) : (s.setCore c x).axm = s.axm := State.wrFld_axm ..
@[simp] theorem State.setCore_eiu (c : Nat) (x : SupCore) : (s.setCore c x).eiu = s.eiu := State.wrFld_eiu ..
@[simp] theorem State.setCore_dio (c : Nat) (x : SupCore) : (s.setCore c x).dio = s.dio := State.wrFld_dio ..
@[simp] theorem State.setCore_lau (c : Nat) (x : SupCore) : (s.setCore c x).lau = s.lau := State.wrFld_lau ..
@[simp] theorem State.setCore_vms (c : Nat) (x : SupCore) : (s.setCore c x).vms = s.vms := State.wrFld_vms ..
@[simp] theorem State.setCore_cea (c : Nat) (x : SupCore) : (s.setCore c x).cea = s.cea := State.wrFld_cea ..
@[simp] theorem State.setCore_slc (c : Nat) (x : SupCore) : (s.setCore c x).slc = s.slc := State.wrFld_slc ..
@[simp] theorem State.setCore_fbr (c : Nat) (x : SupCore) : (s.setCore c x).fbr = s.fbr := State.wrFld_fbr ..
@[simp] theorem State.setCore_twu (c : Nat) (x : SupCore) : (s.setCore c x).twu = s.twu := State.wrFld_twu ..
@[simp] theorem State.setCore_sfi (c : Nat) (x : SupCore) : (s.setCore c x).sfi = s.sfi := State.wrFld_sfi ..
@[simp] theorem State.setCore_mbx (c : Nat) (x : SupCore) : (s.setCore c x).mbx = s.mbx := State.wrFld_mbx ..
@[simp] theorem State.setCore_evr (c : Nat) (x : SupCore) : (s.setCore c x).evr = s.evr := State.wrFld_evr ..
@[simp] theorem State.setCore_pcie (c : Nat) (x : SupCore) : (s.setCore c x).pcie = s.pcie := State.wrFld_pcie ..
@[simp] theorem State.setCore_wks (c : Nat) (x : SupCore) : (s.setCore c x).wks = s.wks := State.wrFld_wks ..
@[simp] theorem State.setCore_cap (c : Nat) (x : SupCore) : (s.setCore c x).cap = s.cap := State.wrFld_cap ..
@[simp] theorem State.setCore_elg (c : Nat) (x : SupCore) : (s.setCore c x).elg = s.elg := State.wrFld_elg ..

/-! `State.stageIn` -/

@[simp] theorem State.stageIn_pending (f a half : Nat) : (s.stageIn f a half).pending = s.pending := by unfold State.stageIn; rfl
@[simp] theorem State.stageIn_freeCtr (f a half : Nat) : (s.stageIn f a half).freeCtr = s.freeCtr := by unfold State.stageIn; rfl
@[simp] theorem State.stageIn_wire (f a half : Nat) : (s.stageIn f a half).wire = s.wire := by unfold State.stageIn; rfl
@[simp] theorem State.stageIn_clk (f a half : Nat) : (s.stageIn f a half).clk = s.clk := by unfold State.stageIn; rfl
@[simp] theorem State.stageIn_ft (f a half : Nat) : (s.stageIn f a half).ft = s.ft := by unfold State.stageIn; rfl
@[simp] theorem State.stageIn_regs (f a half : Nat) : (s.stageIn f a half).regs = s.regs := by unfold State.stageIn; rfl
@[simp] theorem State.stageIn_dram (f a half : Nat) : (s.stageIn f a half).dram = s.dram := by unfold State.stageIn; rfl
@[simp] theorem State.stageIn_gens (f a half : Nat) : (s.stageIn f a half).gens = s.gens := by unfold State.stageIn; rfl
@[simp] theorem State.stageIn_sigs (f a half : Nat) : (s.stageIn f a half).sigs = s.sigs := by unfold State.stageIn; rfl
@[simp] theorem State.stageIn_sigPrev (f a half : Nat) : (s.stageIn f a half).sigPrev = s.sigPrev := by unfold State.stageIn; rfl
@[simp] theorem State.stageIn_remote (f a half : Nat) : (s.stageIn f a half).remote = s.remote := by unfold State.stageIn; rfl
@[simp] theorem State.stageIn_remotePrev (f a half : Nat) : (s.stageIn f a half).remotePrev = s.remotePrev := by unfold State.stageIn; rfl
@[simp] theorem State.stageIn_fuses (f a half : Nat) : (s.stageIn f a half).fuses = s.fuses := by unfold State.stageIn; rfl
@[simp] theorem State.stageIn_glb (f a half : Nat) : (s.stageIn f a half).glb = s.glb := by unfold State.stageIn; rfl
@[simp] theorem State.stageIn_pem (f a half : Nat) : (s.stageIn f a half).pem = s.pem := by unfold State.stageIn; rfl
@[simp] theorem State.stageIn_lcu (f a half : Nat) : (s.stageIn f a half).lcu = s.lcu := by unfold State.stageIn; rfl
@[simp] theorem State.stageIn_cfl (f a half : Nat) : (s.stageIn f a half).cfl = s.cfl := by unfold State.stageIn; rfl
@[simp] theorem State.stageIn_tbu (f a half : Nat) : (s.stageIn f a half).tbu = s.tbu := by unfold State.stageIn; rfl
@[simp] theorem State.stageIn_cyc (f a half : Nat) : (s.stageIn f a half).cyc = s.cyc := by unfold State.stageIn; rfl
@[simp] theorem State.stageIn_axes (f a half : Nat) : (s.stageIn f a half).axes = s.axes := by unfold State.stageIn; rfl
@[simp] theorem State.stageIn_axm (f a half : Nat) : (s.stageIn f a half).axm = s.axm := by unfold State.stageIn; rfl
@[simp] theorem State.stageIn_eiu (f a half : Nat) : (s.stageIn f a half).eiu = s.eiu := by unfold State.stageIn; rfl
@[simp] theorem State.stageIn_dio (f a half : Nat) : (s.stageIn f a half).dio = s.dio := by unfold State.stageIn; rfl
@[simp] theorem State.stageIn_lau (f a half : Nat) : (s.stageIn f a half).lau = s.lau := by unfold State.stageIn; rfl
@[simp] theorem State.stageIn_vms (f a half : Nat) : (s.stageIn f a half).vms = s.vms := by unfold State.stageIn; rfl
@[simp] theorem State.stageIn_cea (f a half : Nat) : (s.stageIn f a half).cea = { s.cea with frames := Tab.put s.cea.frames f { axis := a, half := half } } := rfl
@[simp] theorem State.stageIn_slc (f a half : Nat) : (s.stageIn f a half).slc = s.slc := by unfold State.stageIn; rfl
@[simp] theorem State.stageIn_fbr (f a half : Nat) : (s.stageIn f a half).fbr = s.fbr := by unfold State.stageIn; rfl
@[simp] theorem State.stageIn_twu (f a half : Nat) : (s.stageIn f a half).twu = s.twu := by unfold State.stageIn; rfl
@[simp] theorem State.stageIn_sfi (f a half : Nat) : (s.stageIn f a half).sfi = s.sfi := by unfold State.stageIn; rfl
@[simp] theorem State.stageIn_mbx (f a half : Nat) : (s.stageIn f a half).mbx = s.mbx := by unfold State.stageIn; rfl
@[simp] theorem State.stageIn_evr (f a half : Nat) : (s.stageIn f a half).evr = s.evr := by unfold State.stageIn; rfl
@[simp] theorem State.stageIn_pcie (f a half : Nat) : (s.stageIn f a half).pcie = s.pcie := by unfold State.stageIn; rfl
@[simp] theorem State.stageIn_wks (f a half : Nat) : (s.stageIn f a half).wks = s.wks := by unfold State.stageIn; rfl
@[simp] theorem State.stageIn_cap (f a half : Nat) : (s.stageIn f a half).cap = s.cap := by unfold State.stageIn; rfl
@[simp] theorem State.stageIn_elg (f a half : Nat) : (s.stageIn f a half).elg = s.elg := by unfold State.stageIn; rfl
@[simp] theorem State.stageIn_hlm (f a half : Nat) : (s.stageIn f a half).hlm = s.hlm := by unfold State.stageIn; rfl

/-! `State.dropFrame` -/

@[simp] theorem State.dropFrame_pending (f : Nat) : (s.dropFrame f).pending = s.pending := by unfold State.dropFrame; rfl
@[simp] theorem State.dropFrame_freeCtr (f : Nat) : (s.dropFrame f).freeCtr = s.freeCtr := by unfold State.dropFrame; rfl
@[simp] theorem State.dropFrame_wire (f : Nat) : (s.dropFrame f).wire = s.wire := by unfold State.dropFrame; rfl
@[simp] theorem State.dropFrame_clk (f : Nat) : (s.dropFrame f).clk = s.clk := by unfold State.dropFrame; rfl
@[simp] theorem State.dropFrame_ft (f : Nat) : (s.dropFrame f).ft = s.ft := by unfold State.dropFrame; rfl
@[simp] theorem State.dropFrame_regs (f : Nat) : (s.dropFrame f).regs = s.regs := by unfold State.dropFrame; rfl
@[simp] theorem State.dropFrame_dram (f : Nat) : (s.dropFrame f).dram = s.dram := by unfold State.dropFrame; rfl
@[simp] theorem State.dropFrame_gens (f : Nat) : (s.dropFrame f).gens = s.gens := by unfold State.dropFrame; rfl
@[simp] theorem State.dropFrame_sigs (f : Nat) : (s.dropFrame f).sigs = s.sigs := by unfold State.dropFrame; rfl
@[simp] theorem State.dropFrame_sigPrev (f : Nat) : (s.dropFrame f).sigPrev = s.sigPrev := by unfold State.dropFrame; rfl
@[simp] theorem State.dropFrame_remote (f : Nat) : (s.dropFrame f).remote = s.remote := by unfold State.dropFrame; rfl
@[simp] theorem State.dropFrame_remotePrev (f : Nat) : (s.dropFrame f).remotePrev = s.remotePrev := by unfold State.dropFrame; rfl
@[simp] theorem State.dropFrame_fuses (f : Nat) : (s.dropFrame f).fuses = s.fuses := by unfold State.dropFrame; rfl
@[simp] theorem State.dropFrame_glb (f : Nat) : (s.dropFrame f).glb = s.glb := by unfold State.dropFrame; rfl
@[simp] theorem State.dropFrame_pem (f : Nat) : (s.dropFrame f).pem = s.pem := by unfold State.dropFrame; rfl
@[simp] theorem State.dropFrame_lcu (f : Nat) : (s.dropFrame f).lcu = s.lcu := by unfold State.dropFrame; rfl
@[simp] theorem State.dropFrame_cfl (f : Nat) : (s.dropFrame f).cfl = s.cfl := by unfold State.dropFrame; rfl
@[simp] theorem State.dropFrame_tbu (f : Nat) : (s.dropFrame f).tbu = s.tbu := by unfold State.dropFrame; rfl
@[simp] theorem State.dropFrame_cyc (f : Nat) : (s.dropFrame f).cyc = s.cyc := by unfold State.dropFrame; rfl
@[simp] theorem State.dropFrame_axes (f : Nat) : (s.dropFrame f).axes = s.axes := by unfold State.dropFrame; rfl
@[simp] theorem State.dropFrame_axm (f : Nat) : (s.dropFrame f).axm = s.axm := by unfold State.dropFrame; rfl
@[simp] theorem State.dropFrame_eiu (f : Nat) : (s.dropFrame f).eiu = s.eiu := by unfold State.dropFrame; rfl
@[simp] theorem State.dropFrame_dio (f : Nat) : (s.dropFrame f).dio = s.dio := by unfold State.dropFrame; rfl
@[simp] theorem State.dropFrame_lau (f : Nat) : (s.dropFrame f).lau = s.lau := by unfold State.dropFrame; rfl
@[simp] theorem State.dropFrame_vms (f : Nat) : (s.dropFrame f).vms = s.vms := by unfold State.dropFrame; rfl
@[simp] theorem State.dropFrame_cea (f : Nat) : (s.dropFrame f).cea = { s.cea with frames := Tab.del s.cea.frames f } := rfl
@[simp] theorem State.dropFrame_slc (f : Nat) : (s.dropFrame f).slc = s.slc := by unfold State.dropFrame; rfl
@[simp] theorem State.dropFrame_fbr (f : Nat) : (s.dropFrame f).fbr = s.fbr := by unfold State.dropFrame; rfl
@[simp] theorem State.dropFrame_twu (f : Nat) : (s.dropFrame f).twu = s.twu := by unfold State.dropFrame; rfl
@[simp] theorem State.dropFrame_sfi (f : Nat) : (s.dropFrame f).sfi = s.sfi := by unfold State.dropFrame; rfl
@[simp] theorem State.dropFrame_mbx (f : Nat) : (s.dropFrame f).mbx = s.mbx := by unfold State.dropFrame; rfl
@[simp] theorem State.dropFrame_evr (f : Nat) : (s.dropFrame f).evr = s.evr := by unfold State.dropFrame; rfl
@[simp] theorem State.dropFrame_pcie (f : Nat) : (s.dropFrame f).pcie = s.pcie := by unfold State.dropFrame; rfl
@[simp] theorem State.dropFrame_wks (f : Nat) : (s.dropFrame f).wks = s.wks := by unfold State.dropFrame; rfl
@[simp] theorem State.dropFrame_cap (f : Nat) : (s.dropFrame f).cap = s.cap := by unfold State.dropFrame; rfl
@[simp] theorem State.dropFrame_elg (f : Nat) : (s.dropFrame f).elg = s.elg := by unfold State.dropFrame; rfl
@[simp] theorem State.dropFrame_hlm (f : Nat) : (s.dropFrame f).hlm = s.hlm := by unfold State.dropFrame; rfl

/-! `State.takeReady` -/

@[simp] theorem State.takeReady_pending (a half : Nat) : (s.takeReady a half).pending = s.pending := by unfold State.takeReady; rfl
@[simp] theorem State.takeReady_freeCtr (a half : Nat) : (s.takeReady a half).freeCtr = s.freeCtr := by unfold State.takeReady; rfl
@[simp] theorem State.takeReady_wire (a half : Nat) : (s.takeReady a half).wire = s.wire := by unfold State.takeReady; rfl
@[simp] theorem State.takeReady_clk (a half : Nat) : (s.takeReady a half).clk = s.clk := by unfold State.takeReady; rfl
@[simp] theorem State.takeReady_ft (a half : Nat) : (s.takeReady a half).ft = s.ft := by unfold State.takeReady; rfl
@[simp] theorem State.takeReady_regs (a half : Nat) : (s.takeReady a half).regs = s.regs := by unfold State.takeReady; rfl
@[simp] theorem State.takeReady_dram (a half : Nat) : (s.takeReady a half).dram = s.dram := by unfold State.takeReady; rfl
@[simp] theorem State.takeReady_gens (a half : Nat) : (s.takeReady a half).gens = s.gens := by unfold State.takeReady; rfl
@[simp] theorem State.takeReady_sigs (a half : Nat) : (s.takeReady a half).sigs = s.sigs := by unfold State.takeReady; rfl
@[simp] theorem State.takeReady_sigPrev (a half : Nat) : (s.takeReady a half).sigPrev = s.sigPrev := by unfold State.takeReady; rfl
@[simp] theorem State.takeReady_remote (a half : Nat) : (s.takeReady a half).remote = s.remote := by unfold State.takeReady; rfl
@[simp] theorem State.takeReady_remotePrev (a half : Nat) : (s.takeReady a half).remotePrev = s.remotePrev := by unfold State.takeReady; rfl
@[simp] theorem State.takeReady_fuses (a half : Nat) : (s.takeReady a half).fuses = s.fuses := by unfold State.takeReady; rfl
@[simp] theorem State.takeReady_glb (a half : Nat) : (s.takeReady a half).glb = s.glb := by unfold State.takeReady; rfl
@[simp] theorem State.takeReady_pem (a half : Nat) : (s.takeReady a half).pem = s.pem := by unfold State.takeReady; rfl
@[simp] theorem State.takeReady_lcu (a half : Nat) : (s.takeReady a half).lcu = s.lcu := by unfold State.takeReady; rfl
@[simp] theorem State.takeReady_cfl (a half : Nat) : (s.takeReady a half).cfl = s.cfl := by unfold State.takeReady; rfl
@[simp] theorem State.takeReady_tbu (a half : Nat) : (s.takeReady a half).tbu = s.tbu := by unfold State.takeReady; rfl
@[simp] theorem State.takeReady_cyc (a half : Nat) : (s.takeReady a half).cyc = s.cyc := by unfold State.takeReady; rfl
@[simp] theorem State.takeReady_axes (a half : Nat) : (s.takeReady a half).axes = s.axes := by unfold State.takeReady; rfl
@[simp] theorem State.takeReady_axm (a half : Nat) : (s.takeReady a half).axm = s.axm := by unfold State.takeReady; rfl
@[simp] theorem State.takeReady_eiu (a half : Nat) : (s.takeReady a half).eiu = s.eiu := by unfold State.takeReady; rfl
@[simp] theorem State.takeReady_dio (a half : Nat) : (s.takeReady a half).dio = s.dio := by unfold State.takeReady; rfl
@[simp] theorem State.takeReady_lau (a half : Nat) : (s.takeReady a half).lau = s.lau := by unfold State.takeReady; rfl
@[simp] theorem State.takeReady_vms (a half : Nat) : (s.takeReady a half).vms = s.vms := by unfold State.takeReady; rfl
@[simp] theorem State.takeReady_slc (a half : Nat) : (s.takeReady a half).slc = s.slc := by unfold State.takeReady; rfl
@[simp] theorem State.takeReady_fbr (a half : Nat) : (s.takeReady a half).fbr = s.fbr := by unfold State.takeReady; rfl
@[simp] theorem State.takeReady_twu (a half : Nat) : (s.takeReady a half).twu = s.twu := by unfold State.takeReady; rfl
@[simp] theorem State.takeReady_sfi (a half : Nat) : (s.takeReady a half).sfi = s.sfi := by unfold State.takeReady; rfl
@[simp] theorem State.takeReady_mbx (a half : Nat) : (s.takeReady a half).mbx = s.mbx := by unfold State.takeReady; rfl
@[simp] theorem State.takeReady_evr (a half : Nat) : (s.takeReady a half).evr = s.evr := by unfold State.takeReady; rfl
@[simp] theorem State.takeReady_pcie (a half : Nat) : (s.takeReady a half).pcie = s.pcie := by unfold State.takeReady; rfl
@[simp] theorem State.takeReady_wks (a half : Nat) : (s.takeReady a half).wks = s.wks := by unfold State.takeReady; rfl
@[simp] theorem State.takeReady_cap (a half : Nat) : (s.takeReady a half).cap = s.cap := by unfold State.takeReady; rfl
@[simp] theorem State.takeReady_elg (a half : Nat) : (s.takeReady a half).elg = s.elg := by unfold State.takeReady; rfl
@[simp] theorem State.takeReady_hlm (a half : Nat) : (s.takeReady a half).hlm = s.hlm := by unfold State.takeReady; rfl

/-! `State.urgentAll` -/

@[simp] theorem State.urgentAll_pending : (s.urgentAll).pending = s.pending := by unfold State.urgentAll; rfl
@[simp] theorem State.urgentAll_freeCtr : (s.urgentAll).freeCtr = s.freeCtr := by unfold State.urgentAll; rfl
@[simp] theorem State.urgentAll_wire : (s.urgentAll).wire = s.wire := by unfold State.urgentAll; rfl
@[simp] theorem State.urgentAll_clk : (s.urgentAll).clk = s.clk := by unfold State.urgentAll; rfl
@[simp] theorem State.urgentAll_ft : (s.urgentAll).ft = s.ft := by unfold State.urgentAll; rfl
@[simp] theorem State.urgentAll_regs : (s.urgentAll).regs = s.regs := by unfold State.urgentAll; rfl
@[simp] theorem State.urgentAll_dram : (s.urgentAll).dram = s.dram := by unfold State.urgentAll; rfl
@[simp] theorem State.urgentAll_gens : (s.urgentAll).gens = s.gens := by unfold State.urgentAll; rfl
@[simp] theorem State.urgentAll_sigs : (s.urgentAll).sigs = s.sigs := by unfold State.urgentAll; rfl
@[simp] theorem State.urgentAll_sigPrev : (s.urgentAll).sigPrev = s.sigPrev := by unfold State.urgentAll; rfl
@[simp] theorem State.urgentAll_remote : (s.urgentAll).remote = s.remote := by unfold State.urgentAll; rfl
@[simp] theorem State.urgentAll_remotePrev : (s.urgentAll).remotePrev = s.remotePrev := by unfold State.urgentAll; rfl
@[simp] theorem State.urgentAll_fuses : (s.urgentAll).fuses = s.fuses := by unfold State.urgentAll; rfl
@[simp] theorem State.urgentAll_glb : (s.urgentAll).glb = s.glb := by unfold State.urgentAll; rfl
@[simp] theorem State.urgentAll_pem : (s.urgentAll).pem = s.pem := by unfold State.urgentAll; rfl
@[simp] theorem State.urgentAll_lcu : (s.urgentAll).lcu = s.lcu := by unfold State.urgentAll; rfl
@[simp] theorem State.urgentAll_cfl : (s.urgentAll).cfl = s.cfl := by unfold State.urgentAll; rfl
@[simp] theorem State.urgentAll_tbu : (s.urgentAll).tbu = s.tbu := by unfold State.urgentAll; rfl
@[simp] theorem State.urgentAll_cyc : (s.urgentAll).cyc = s.cyc := by unfold State.urgentAll; rfl
@[simp] theorem State.urgentAll_axes : (s.urgentAll).axes = s.axes := by unfold State.urgentAll; rfl
@[simp] theorem State.urgentAll_axm : (s.urgentAll).axm = s.axm := by unfold State.urgentAll; rfl
@[simp] theorem State.urgentAll_eiu : (s.urgentAll).eiu = s.eiu := by unfold State.urgentAll; rfl
@[simp] theorem State.urgentAll_dio : (s.urgentAll).dio = s.dio := by unfold State.urgentAll; rfl
@[simp] theorem State.urgentAll_lau : (s.urgentAll).lau = s.lau := by unfold State.urgentAll; rfl
@[simp] theorem State.urgentAll_vms : (s.urgentAll).vms = s.vms := by unfold State.urgentAll; rfl
@[simp] theorem State.urgentAll_slc : (s.urgentAll).slc = s.slc := by unfold State.urgentAll; rfl
@[simp] theorem State.urgentAll_fbr : (s.urgentAll).fbr = s.fbr := by unfold State.urgentAll; rfl
@[simp] theorem State.urgentAll_twu : (s.urgentAll).twu = s.twu := by unfold State.urgentAll; rfl
@[simp] theorem State.urgentAll_sfi : (s.urgentAll).sfi = s.sfi := by unfold State.urgentAll; rfl
@[simp] theorem State.urgentAll_mbx : (s.urgentAll).mbx = s.mbx := by unfold State.urgentAll; rfl
@[simp] theorem State.urgentAll_evr : (s.urgentAll).evr = s.evr := by unfold State.urgentAll; rfl
@[simp] theorem State.urgentAll_pcie : (s.urgentAll).pcie = s.pcie := by unfold State.urgentAll; rfl
@[simp] theorem State.urgentAll_wks : (s.urgentAll).wks = s.wks := by unfold State.urgentAll; rfl
@[simp] theorem State.urgentAll_cap : (s.urgentAll).cap = s.cap := by unfold State.urgentAll; rfl
@[simp] theorem State.urgentAll_elg : (s.urgentAll).elg = s.elg := by unfold State.urgentAll; rfl
@[simp] theorem State.urgentAll_hlm : (s.urgentAll).hlm = s.hlm := by unfold State.urgentAll; rfl

/-! `State.dropEdges` -/

@[simp] theorem State.dropEdges_pending (was : CtlSt) : (s.dropEdges was).pending = s.pending := by unfold State.dropEdges; rfl
@[simp] theorem State.dropEdges_freeCtr (was : CtlSt) : (s.dropEdges was).freeCtr = s.freeCtr := by unfold State.dropEdges; rfl
@[simp] theorem State.dropEdges_wire (was : CtlSt) : (s.dropEdges was).wire = s.wire := by unfold State.dropEdges; rfl
@[simp] theorem State.dropEdges_clk (was : CtlSt) : (s.dropEdges was).clk = s.clk := by unfold State.dropEdges; rfl
@[simp] theorem State.dropEdges_ft (was : CtlSt) : (s.dropEdges was).ft = s.ft := by unfold State.dropEdges; rfl
@[simp] theorem State.dropEdges_regs (was : CtlSt) : (s.dropEdges was).regs = s.regs := by unfold State.dropEdges; rfl
@[simp] theorem State.dropEdges_dram (was : CtlSt) : (s.dropEdges was).dram = s.dram := by unfold State.dropEdges; rfl
@[simp] theorem State.dropEdges_gens (was : CtlSt) : (s.dropEdges was).gens = s.gens := by unfold State.dropEdges; rfl
@[simp] theorem State.dropEdges_sigs (was : CtlSt) : (s.dropEdges was).sigs = s.sigs := by unfold State.dropEdges; rfl
@[simp] theorem State.dropEdges_sigPrev (was : CtlSt) : (s.dropEdges was).sigPrev = s.sigPrev := by unfold State.dropEdges; rfl
@[simp] theorem State.dropEdges_remote (was : CtlSt) : (s.dropEdges was).remote = s.remote := by unfold State.dropEdges; rfl
@[simp] theorem State.dropEdges_remotePrev (was : CtlSt) : (s.dropEdges was).remotePrev = s.remotePrev := by unfold State.dropEdges; rfl
@[simp] theorem State.dropEdges_fuses (was : CtlSt) : (s.dropEdges was).fuses = s.fuses := by unfold State.dropEdges; rfl
@[simp] theorem State.dropEdges_glb (was : CtlSt) : (s.dropEdges was).glb = s.glb := by unfold State.dropEdges; rfl
@[simp] theorem State.dropEdges_pem (was : CtlSt) : (s.dropEdges was).pem = s.pem := by unfold State.dropEdges; rfl
@[simp] theorem State.dropEdges_lcu (was : CtlSt) : (s.dropEdges was).lcu = s.lcu := by unfold State.dropEdges; rfl
@[simp] theorem State.dropEdges_cfl (was : CtlSt) : (s.dropEdges was).cfl = s.cfl := by unfold State.dropEdges; rfl
@[simp] theorem State.dropEdges_tbu (was : CtlSt) : (s.dropEdges was).tbu = s.tbu := by unfold State.dropEdges; rfl
@[simp] theorem State.dropEdges_cyc (was : CtlSt) : (s.dropEdges was).cyc = s.cyc := by unfold State.dropEdges; rfl
@[simp] theorem State.dropEdges_axes (was : CtlSt) : (s.dropEdges was).axes = s.axes := by unfold State.dropEdges; rfl
@[simp] theorem State.dropEdges_axm (was : CtlSt) : (s.dropEdges was).axm = s.axm := by unfold State.dropEdges; rfl
@[simp] theorem State.dropEdges_eiu (was : CtlSt) : (s.dropEdges was).eiu = s.eiu := by unfold State.dropEdges; rfl
@[simp] theorem State.dropEdges_lau (was : CtlSt) : (s.dropEdges was).lau = s.lau := by unfold State.dropEdges; rfl
@[simp] theorem State.dropEdges_vms (was : CtlSt) : (s.dropEdges was).vms = s.vms := by unfold State.dropEdges; rfl
@[simp] theorem State.dropEdges_cea (was : CtlSt) : (s.dropEdges was).cea = s.cea := by unfold State.dropEdges; rfl
@[simp] theorem State.dropEdges_slc (was : CtlSt) : (s.dropEdges was).slc = s.slc := by unfold State.dropEdges; rfl
@[simp] theorem State.dropEdges_fbr (was : CtlSt) : (s.dropEdges was).fbr = s.fbr := by unfold State.dropEdges; rfl
@[simp] theorem State.dropEdges_twu (was : CtlSt) : (s.dropEdges was).twu = s.twu := by unfold State.dropEdges; rfl
@[simp] theorem State.dropEdges_sfi (was : CtlSt) : (s.dropEdges was).sfi = s.sfi := by unfold State.dropEdges; rfl
@[simp] theorem State.dropEdges_mbx (was : CtlSt) : (s.dropEdges was).mbx = s.mbx := by unfold State.dropEdges; rfl
@[simp] theorem State.dropEdges_evr (was : CtlSt) : (s.dropEdges was).evr = s.evr := by unfold State.dropEdges; rfl
@[simp] theorem State.dropEdges_pcie (was : CtlSt) : (s.dropEdges was).pcie = s.pcie := by unfold State.dropEdges; rfl
@[simp] theorem State.dropEdges_wks (was : CtlSt) : (s.dropEdges was).wks = s.wks := by unfold State.dropEdges; rfl
@[simp] theorem State.dropEdges_cap (was : CtlSt) : (s.dropEdges was).cap = s.cap := by unfold State.dropEdges; rfl
@[simp] theorem State.dropEdges_elg (was : CtlSt) : (s.dropEdges was).elg = s.elg := by unfold State.dropEdges; rfl
@[simp] theorem State.dropEdges_hlm (was : CtlSt) : (s.dropEdges was).hlm = s.hlm := by unfold State.dropEdges; rfl

/-! `State.requestLoad` -/

@[simp] theorem State.requestLoad_pending (row index energy : Nat) : (s.requestLoad row index energy).pending = s.pending := by unfold State.requestLoad; rfl
@[simp] theorem State.requestLoad_freeCtr (row index energy : Nat) : (s.requestLoad row index energy).freeCtr = s.freeCtr := by unfold State.requestLoad; rfl
@[simp] theorem State.requestLoad_wire (row index energy : Nat) : (s.requestLoad row index energy).wire = s.wire := by unfold State.requestLoad; rfl
@[simp] theorem State.requestLoad_clk (row index energy : Nat) : (s.requestLoad row index energy).clk = s.clk := by unfold State.requestLoad; rfl
@[simp] theorem State.requestLoad_ft (row index energy : Nat) : (s.requestLoad row index energy).ft = s.ft := by unfold State.requestLoad; rfl
@[simp] theorem State.requestLoad_regs (row index energy : Nat) : (s.requestLoad row index energy).regs = s.regs := by unfold State.requestLoad; rfl
@[simp] theorem State.requestLoad_dram (row index energy : Nat) : (s.requestLoad row index energy).dram = s.dram := by unfold State.requestLoad; rfl
@[simp] theorem State.requestLoad_gens (row index energy : Nat) : (s.requestLoad row index energy).gens = s.gens := by unfold State.requestLoad; rfl
@[simp] theorem State.requestLoad_sigs (row index energy : Nat) : (s.requestLoad row index energy).sigs = s.sigs := by unfold State.requestLoad; rfl
@[simp] theorem State.requestLoad_sigPrev (row index energy : Nat) : (s.requestLoad row index energy).sigPrev = s.sigPrev := by unfold State.requestLoad; rfl
@[simp] theorem State.requestLoad_remote (row index energy : Nat) : (s.requestLoad row index energy).remote = s.remote := by unfold State.requestLoad; rfl
@[simp] theorem State.requestLoad_remotePrev (row index energy : Nat) : (s.requestLoad row index energy).remotePrev = s.remotePrev := by unfold State.requestLoad; rfl
@[simp] theorem State.requestLoad_fuses (row index energy : Nat) : (s.requestLoad row index energy).fuses = s.fuses := by unfold State.requestLoad; rfl
@[simp] theorem State.requestLoad_glb (row index energy : Nat) : (s.requestLoad row index energy).glb = s.glb := by unfold State.requestLoad; rfl
@[simp] theorem State.requestLoad_lcu (row index energy : Nat) : (s.requestLoad row index energy).lcu = s.lcu := by unfold State.requestLoad; rfl
@[simp] theorem State.requestLoad_cfl (row index energy : Nat) : (s.requestLoad row index energy).cfl = s.cfl := by unfold State.requestLoad; rfl
@[simp] theorem State.requestLoad_tbu (row index energy : Nat) : (s.requestLoad row index energy).tbu = s.tbu := by unfold State.requestLoad; rfl
@[simp] theorem State.requestLoad_cyc (row index energy : Nat) : (s.requestLoad row index energy).cyc = s.cyc := by unfold State.requestLoad; rfl
@[simp] theorem State.requestLoad_axes (row index energy : Nat) : (s.requestLoad row index energy).axes = s.axes := by unfold State.requestLoad; rfl
@[simp] theorem State.requestLoad_axm (row index energy : Nat) : (s.requestLoad row index energy).axm = s.axm := by unfold State.requestLoad; rfl
@[simp] theorem State.requestLoad_eiu (row index energy : Nat) : (s.requestLoad row index energy).eiu = s.eiu := by unfold State.requestLoad; rfl
@[simp] theorem State.requestLoad_dio (row index energy : Nat) : (s.requestLoad row index energy).dio = s.dio := by unfold State.requestLoad; rfl
@[simp] theorem State.requestLoad_lau (row index energy : Nat) : (s.requestLoad row index energy).lau = s.lau := by unfold State.requestLoad; rfl
@[simp] theorem State.requestLoad_vms (row index energy : Nat) : (s.requestLoad row index energy).vms = s.vms := by unfold State.requestLoad; rfl
@[simp] theorem State.requestLoad_cea (row index energy : Nat) : (s.requestLoad row index energy).cea = s.cea := by unfold State.requestLoad; rfl
@[simp] theorem State.requestLoad_slc (row index energy : Nat) : (s.requestLoad row index energy).slc = s.slc := by unfold State.requestLoad; rfl
@[simp] theorem State.requestLoad_fbr (row index energy : Nat) : (s.requestLoad row index energy).fbr = s.fbr := by unfold State.requestLoad; rfl
@[simp] theorem State.requestLoad_twu (row index energy : Nat) : (s.requestLoad row index energy).twu = s.twu := by unfold State.requestLoad; rfl
@[simp] theorem State.requestLoad_sfi (row index energy : Nat) : (s.requestLoad row index energy).sfi = s.sfi := by unfold State.requestLoad; rfl
@[simp] theorem State.requestLoad_mbx (row index energy : Nat) : (s.requestLoad row index energy).mbx = s.mbx := by unfold State.requestLoad; rfl
@[simp] theorem State.requestLoad_evr (row index energy : Nat) : (s.requestLoad row index energy).evr = s.evr := by unfold State.requestLoad; rfl
@[simp] theorem State.requestLoad_pcie (row index energy : Nat) : (s.requestLoad row index energy).pcie = s.pcie := by unfold State.requestLoad; rfl
@[simp] theorem State.requestLoad_wks (row index energy : Nat) : (s.requestLoad row index energy).wks = s.wks := by unfold State.requestLoad; rfl
@[simp] theorem State.requestLoad_cap (row index energy : Nat) : (s.requestLoad row index energy).cap = s.cap := by unfold State.requestLoad; rfl
@[simp] theorem State.requestLoad_elg (row index energy : Nat) : (s.requestLoad row index energy).elg = s.elg := by unfold State.requestLoad; rfl
@[simp] theorem State.requestLoad_hlm (row index energy : Nat) : (s.requestLoad row index energy).hlm = s.hlm := by unfold State.requestLoad; rfl

/-! `State.setMbChan` -/

@[simp] theorem State.setMbChan_pending (c : Nat) (x : MbChan) : (s.setMbChan c x).pending = s.pending := by unfold State.setMbChan; rfl
@[simp] theorem State.setMbChan_freeCtr (c : Nat) (x : MbChan) : (s.setMbChan c x).freeCtr = s.freeCtr := by unfold State.setMbChan; rfl
@[simp] theorem State.setMbChan_wire (c : Nat) (x : MbChan) : (s.setMbChan c x).wire = s.wire := by unfold State.setMbChan; rfl
@[simp] theorem State.setMbChan_clk (c : Nat) (x : MbChan) : (s.setMbChan c x).clk = s.clk := by unfold State.setMbChan; rfl
@[simp] theorem State.setMbChan_ft (c : Nat) (x : MbChan) : (s.setMbChan c x).ft = s.ft := by unfold State.setMbChan; rfl
@[simp] theorem State.setMbChan_regs (c : Nat) (x : MbChan) : (s.setMbChan c x).regs = s.regs := by unfold State.setMbChan; rfl
@[simp] theorem State.setMbChan_dram (c : Nat) (x : MbChan) : (s.setMbChan c x).dram = s.dram := by unfold State.setMbChan; rfl
@[simp] theorem State.setMbChan_gens (c : Nat) (x : MbChan) : (s.setMbChan c x).gens = s.gens := by unfold State.setMbChan; rfl
@[simp] theorem State.setMbChan_sigs (c : Nat) (x : MbChan) : (s.setMbChan c x).sigs = s.sigs := by unfold State.setMbChan; rfl
@[simp] theorem State.setMbChan_sigPrev (c : Nat) (x : MbChan) : (s.setMbChan c x).sigPrev = s.sigPrev := by unfold State.setMbChan; rfl
@[simp] theorem State.setMbChan_remote (c : Nat) (x : MbChan) : (s.setMbChan c x).remote = s.remote := by unfold State.setMbChan; rfl
@[simp] theorem State.setMbChan_remotePrev (c : Nat) (x : MbChan) : (s.setMbChan c x).remotePrev = s.remotePrev := by unfold State.setMbChan; rfl
@[simp] theorem State.setMbChan_fuses (c : Nat) (x : MbChan) : (s.setMbChan c x).fuses = s.fuses := by unfold State.setMbChan; rfl
@[simp] theorem State.setMbChan_glb (c : Nat) (x : MbChan) : (s.setMbChan c x).glb = s.glb := by unfold State.setMbChan; rfl
@[simp] theorem State.setMbChan_pem (c : Nat) (x : MbChan) : (s.setMbChan c x).pem = s.pem := by unfold State.setMbChan; rfl
@[simp] theorem State.setMbChan_lcu (c : Nat) (x : MbChan) : (s.setMbChan c x).lcu = s.lcu := by unfold State.setMbChan; rfl
@[simp] theorem State.setMbChan_cfl (c : Nat) (x : MbChan) : (s.setMbChan c x).cfl = s.cfl := by unfold State.setMbChan; rfl
@[simp] theorem State.setMbChan_tbu (c : Nat) (x : MbChan) : (s.setMbChan c x).tbu = s.tbu := by unfold State.setMbChan; rfl
@[simp] theorem State.setMbChan_cyc (c : Nat) (x : MbChan) : (s.setMbChan c x).cyc = s.cyc := by unfold State.setMbChan; rfl
@[simp] theorem State.setMbChan_axes (c : Nat) (x : MbChan) : (s.setMbChan c x).axes = s.axes := by unfold State.setMbChan; rfl
@[simp] theorem State.setMbChan_axm (c : Nat) (x : MbChan) : (s.setMbChan c x).axm = s.axm := by unfold State.setMbChan; rfl
@[simp] theorem State.setMbChan_eiu (c : Nat) (x : MbChan) : (s.setMbChan c x).eiu = s.eiu := by unfold State.setMbChan; rfl
@[simp] theorem State.setMbChan_dio (c : Nat) (x : MbChan) : (s.setMbChan c x).dio = s.dio := by unfold State.setMbChan; rfl
@[simp] theorem State.setMbChan_lau (c : Nat) (x : MbChan) : (s.setMbChan c x).lau = s.lau := by unfold State.setMbChan; rfl
@[simp] theorem State.setMbChan_vms (c : Nat) (x : MbChan) : (s.setMbChan c x).vms = s.vms := by unfold State.setMbChan; rfl
@[simp] theorem State.setMbChan_cea (c : Nat) (x : MbChan) : (s.setMbChan c x).cea = s.cea := by unfold State.setMbChan; rfl
@[simp] theorem State.setMbChan_slc (c : Nat) (x : MbChan) : (s.setMbChan c x).slc = s.slc := by unfold State.setMbChan; rfl
@[simp] theorem State.setMbChan_fbr (c : Nat) (x : MbChan) : (s.setMbChan c x).fbr = s.fbr := by unfold State.setMbChan; rfl
@[simp] theorem State.setMbChan_twu (c : Nat) (x : MbChan) : (s.setMbChan c x).twu = s.twu := by unfold State.setMbChan; rfl
@[simp] theorem State.setMbChan_sfi (c : Nat) (x : MbChan) : (s.setMbChan c x).sfi = s.sfi := by unfold State.setMbChan; rfl
@[simp] theorem State.setMbChan_mbx (c : Nat) (x : MbChan) : (s.setMbChan c x).mbx = { s.mbx with chans := Tab.set {} s.mbx.chans c x } := rfl
@[simp] theorem State.setMbChan_evr (c : Nat) (x : MbChan) : (s.setMbChan c x).evr = s.evr := by unfold State.setMbChan; rfl
@[simp] theorem State.setMbChan_pcie (c : Nat) (x : MbChan) : (s.setMbChan c x).pcie = s.pcie := by unfold State.setMbChan; rfl
@[simp] theorem State.setMbChan_wks (c : Nat) (x : MbChan) : (s.setMbChan c x).wks = s.wks := by unfold State.setMbChan; rfl
@[simp] theorem State.setMbChan_cap (c : Nat) (x : MbChan) : (s.setMbChan c x).cap = s.cap := by unfold State.setMbChan; rfl
@[simp] theorem State.setMbChan_elg (c : Nat) (x : MbChan) : (s.setMbChan c x).elg = s.elg := by unfold State.setMbChan; rfl
@[simp] theorem State.setMbChan_hlm (c : Nat) (x : MbChan) : (s.setMbChan c x).hlm = s.hlm := by unfold State.setMbChan; rfl

/-! `State.setFin` -/

@[simp] theorem State.setFin_pending (k : Nat) (x : FastIn) : (s.setFin k x).pending = s.pending := (State.wrBit_pending ..).trans ((State.wrBit_pending ..).trans ((State.wrBit_pending ..).trans (State.wrBit_pending ..)))
@[simp] theorem State.setFin_freeCtr (k : Nat) (x : FastIn) : (s.setFin k x).freeCtr = s.freeCtr := (State.wrBit_freeCtr ..).trans ((State.wrBit_freeCtr ..).trans ((State.wrBit_freeCtr ..).trans (State.wrBit_freeCtr ..)))
@[simp] theorem State.setFin_wire (k : Nat) (x : FastIn) : (s.setFin k x).wire = s.wire := (State.wrBit_wire ..).trans ((State.wrBit_wire ..).trans ((State.wrBit_wire ..).trans (State.wrBit_wire ..)))
@[simp] theorem State.setFin_clk (k : Nat) (x : FastIn) : (s.setFin k x).clk = s.clk := (State.wrBit_clk ..).trans ((State.wrBit_clk ..).trans ((State.wrBit_clk ..).trans (State.wrBit_clk ..)))
@[simp] theorem State.setFin_ft (k : Nat) (x : FastIn) : (s.setFin k x).ft = s.ft := (State.wrBit_ft ..).trans ((State.wrBit_ft ..).trans ((State.wrBit_ft ..).trans (State.wrBit_ft ..)))
@[simp] theorem State.setFin_dram (k : Nat) (x : FastIn) : (s.setFin k x).dram = s.dram := (State.wrBit_dram ..).trans ((State.wrBit_dram ..).trans ((State.wrBit_dram ..).trans (State.wrBit_dram ..)))
@[simp] theorem State.setFin_gens (k : Nat) (x : FastIn) : (s.setFin k x).gens = s.gens := (State.wrBit_gens ..).trans ((State.wrBit_gens ..).trans ((State.wrBit_gens ..).trans (State.wrBit_gens ..)))
@[simp] theorem State.setFin_sigs (k : Nat) (x : FastIn) : (s.setFin k x).sigs = s.sigs := (State.wrBit_sigs ..).trans ((State.wrBit_sigs ..).trans ((State.wrBit_sigs ..).trans (State.wrBit_sigs ..)))
@[simp] theorem State.setFin_sigPrev (k : Nat) (x : FastIn) : (s.setFin k x).sigPrev = s.sigPrev := (State.wrBit_sigPrev ..).trans ((State.wrBit_sigPrev ..).trans ((State.wrBit_sigPrev ..).trans (State.wrBit_sigPrev ..)))
@[simp] theorem State.setFin_remote (k : Nat) (x : FastIn) : (s.setFin k x).remote = s.remote := (State.wrBit_remote ..).trans ((State.wrBit_remote ..).trans ((State.wrBit_remote ..).trans (State.wrBit_remote ..)))
@[simp] theorem State.setFin_remotePrev (k : Nat) (x : FastIn) : (s.setFin k x).remotePrev = s.remotePrev := (State.wrBit_remotePrev ..).trans ((State.wrBit_remotePrev ..).trans ((State.wrBit_remotePrev ..).trans (State.wrBit_remotePrev ..)))
@[simp] theorem State.setFin_fuses (k : Nat) (x : FastIn) : (s.setFin k x).fuses = s.fuses := (State.wrBit_fuses ..).trans ((State.wrBit_fuses ..).trans ((State.wrBit_fuses ..).trans (State.wrBit_fuses ..)))
@[simp] theorem State.setFin_glb (k : Nat) (x : FastIn) : (s.setFin k x).glb = s.glb := (State.wrBit_glb ..).trans ((State.wrBit_glb ..).trans ((State.wrBit_glb ..).trans (State.wrBit_glb ..)))
@[simp] theorem State.setFin_pem (k : Nat) (x : FastIn) : (s.setFin k x).pem = s.pem := (State.wrBit_pem ..).trans ((State.wrBit_pem ..).trans ((State.wrBit_pem ..).trans (State.wrBit_pem ..)))
@[simp] theorem State.setFin_lcu (k : Nat) (x : FastIn) : (s.setFin k x).lcu = s.lcu := (State.wrBit_lcu ..).trans ((State.wrBit_lcu ..).trans ((State.wrBit_lcu ..).trans (State.wrBit_lcu ..)))
@[simp] theorem State.setFin_cfl (k : Nat) (x : FastIn) : (s.setFin k x).cfl = s.cfl := (State.wrBit_cfl ..).trans ((State.wrBit_cfl ..).trans ((State.wrBit_cfl ..).trans (State.wrBit_cfl ..)))
@[simp] theorem State.setFin_tbu (k : Nat) (x : FastIn) : (s.setFin k x).tbu = s.tbu := (State.wrBit_tbu ..).trans ((State.wrBit_tbu ..).trans ((State.wrBit_tbu ..).trans (State.wrBit_tbu ..)))
@[simp] theorem State.setFin_cyc (k : Nat) (x : FastIn) : (s.setFin k x).cyc = s.cyc := (State.wrBit_cyc ..).trans ((State.wrBit_cyc ..).trans ((State.wrBit_cyc ..).trans (State.wrBit_cyc ..)))
@[simp] theorem State.setFin_axes (k : Nat) (x : FastIn) : (s.setFin k x).axes = s.axes := (State.wrBit_axes ..).trans ((State.wrBit_axes ..).trans ((State.wrBit_axes ..).trans (State.wrBit_axes ..)))
@[simp] theorem State.setFin_axm (k : Nat) (x : FastIn) : (s.setFin k x).axm = s.axm := (State.wrBit_axm ..).trans ((State.wrBit_axm ..).trans ((State.wrBit_axm ..).trans (State.wrBit_axm ..)))
@[simp] theorem State.setFin_eiu (k : Nat) (x : FastIn) : (s.setFin k x).eiu = s.eiu := (State.wrBit_eiu ..).trans ((State.wrBit_eiu ..).trans ((State.wrBit_eiu ..).trans (State.wrBit_eiu ..)))
@[simp] theorem State.setFin_dio (k : Nat) (x : FastIn) : (s.setFin k x).dio = { s.dio with ins := Tab.set {} s.dio.ins k x } := rfl
@[simp] theorem State.setFin_lau (k : Nat) (x : FastIn) : (s.setFin k x).lau = s.lau := (State.wrBit_lau ..).trans ((State.wrBit_lau ..).trans ((State.wrBit_lau ..).trans (State.wrBit_lau ..)))
@[simp] theorem State.setFin_vms (k : Nat) (x : FastIn) : (s.setFin k x).vms = s.vms := (State.wrBit_vms ..).trans ((State.wrBit_vms ..).trans ((State.wrBit_vms ..).trans (State.wrBit_vms ..)))
@[simp] theorem State.setFin_cea (k : Nat) (x : FastIn) : (s.setFin k x).cea = s.cea := (State.wrBit_cea ..).trans ((State.wrBit_cea ..).trans ((State.wrBit_cea ..).trans (State.wrBit_cea ..)))
@[simp] theorem State.setFin_slc (k : Nat) (x : FastIn) : (s.setFin k x).slc = s.slc := (State.wrBit_slc ..).trans ((State.wrBit_slc ..).trans ((State.wrBit_slc ..).trans (State.wrBit_slc ..)))
@[simp] theorem State.setFin_fbr (k : Nat) (x : FastIn) : (s.setFin k x).fbr = s.fbr := (State.wrBit_fbr ..).trans ((State.wrBit_fbr ..).trans ((State.wrBit_fbr ..).trans (State.wrBit_fbr ..)))
@[simp] theorem State.setFin_twu (k : Nat) (x : FastIn) : (s.setFin k x).twu = s.twu := (State.wrBit_twu ..).trans ((State.wrBit_twu ..).trans ((State.wrBit_twu ..).trans (State.wrBit_twu ..)))
@[simp] theorem State.setFin_sfi (k : Nat) (x : FastIn) : (s.setFin k x).sfi = s.sfi := (State.wrBit_sfi ..).trans ((State.wrBit_sfi ..).trans ((State.wrBit_sfi ..).trans (State.wrBit_sfi ..)))
@[simp] theorem State.setFin_mbx (k : Nat) (x : FastIn) : (s.setFin k x).mbx = s.mbx := (State.wrBit_mbx ..).trans ((State.wrBit_mbx ..).trans ((State.wrBit_mbx ..).trans (State.wrBit_mbx ..)))
@[simp] theorem State.setFin_evr (k : Nat) (x : FastIn) : (s.setFin k x).evr = s.evr := (State.wrBit_evr ..).trans ((State.wrBit_evr ..).trans ((State.wrBit_evr ..).trans (State.wrBit_evr ..)))
@[simp] theorem State.setFin_pcie (k : Nat) (x : FastIn) : (s.setFin k x).pcie = s.pcie := (State.wrBit_pcie ..).trans ((State.wrBit_pcie ..).trans ((State.wrBit_pcie ..).trans (State.wrBit_pcie ..)))
@[simp] theorem State.setFin_wks (k : Nat) (x : FastIn) : (s.setFin k x).wks = s.wks := (State.wrBit_wks ..).trans ((State.wrBit_wks ..).trans ((State.wrBit_wks ..).trans (State.wrBit_wks ..)))
@[simp] theorem State.setFin_cap (k : Nat) (x : FastIn) : (s.setFin k x).cap = s.cap := (State.wrBit_cap ..).trans ((State.wrBit_cap ..).trans ((State.wrBit_cap ..).trans (State.wrBit_cap ..)))
@[simp] theorem State.setFin_elg (k : Nat) (x : FastIn) : (s.setFin k x).elg = s.elg := (State.wrBit_elg ..).trans ((State.wrBit_elg ..).trans ((State.wrBit_elg ..).trans (State.wrBit_elg ..)))
@[simp] theorem State.setFin_hlm (k : Nat) (x : FastIn) : (s.setFin k x).hlm = s.hlm := (State.wrBit_hlm ..).trans ((State.wrBit_hlm ..).trans ((State.wrBit_hlm ..).trans (State.wrBit_hlm ..)))

/-! `State.setFout` -/

@[simp] theorem State.setFout_pending (k : Nat) (x : FastOut) : (s.setFout k x).pending = s.pending := by unfold State.setFout; rfl
@[simp] theorem State.setFout_freeCtr (k : Nat) (x : FastOut) : (s.setFout k x).freeCtr = s.freeCtr := by unfold State.setFout; rfl
@[simp] theorem State.setFout_wire (k : Nat) (x : FastOut) : (s.setFout k x).wire = s.wire := by unfold State.setFout; rfl
@[simp] theorem State.setFout_clk (k : Nat) (x : FastOut) : (s.setFout k x).clk = s.clk := by unfold State.setFout; rfl
@[simp] theorem State.setFout_ft (k : Nat) (x : FastOut) : (s.setFout k x).ft = s.ft := by unfold State.setFout; rfl
@[simp] theorem State.setFout_regs (k : Nat) (x : FastOut) : (s.setFout k x).regs = s.regs := by unfold State.setFout; rfl
@[simp] theorem State.setFout_dram (k : Nat) (x : FastOut) : (s.setFout k x).dram = s.dram := by unfold State.setFout; rfl
@[simp] theorem State.setFout_gens (k : Nat) (x : FastOut) : (s.setFout k x).gens = s.gens := by unfold State.setFout; rfl
@[simp] theorem State.setFout_sigs (k : Nat) (x : FastOut) : (s.setFout k x).sigs = s.sigs := by unfold State.setFout; rfl
@[simp] theorem State.setFout_sigPrev (k : Nat) (x : FastOut) : (s.setFout k x).sigPrev = s.sigPrev := by unfold State.setFout; rfl
@[simp] theorem State.setFout_remote (k : Nat) (x : FastOut) : (s.setFout k x).remote = s.remote := by unfold State.setFout; rfl
@[simp] theorem State.setFout_remotePrev (k : Nat) (x : FastOut) : (s.setFout k x).remotePrev = s.remotePrev := by unfold State.setFout; rfl
@[simp] theorem State.setFout_fuses (k : Nat) (x : FastOut) : (s.setFout k x).fuses = s.fuses := by unfold State.setFout; rfl
@[simp] theorem State.setFout_glb (k : Nat) (x : FastOut) : (s.setFout k x).glb = s.glb := by unfold State.setFout; rfl
@[simp] theorem State.setFout_pem (k : Nat) (x : FastOut) : (s.setFout k x).pem = s.pem := by unfold State.setFout; rfl
@[simp] theorem State.setFout_lcu (k : Nat) (x : FastOut) : (s.setFout k x).lcu = s.lcu := by unfold State.setFout; rfl
@[simp] theorem State.setFout_cfl (k : Nat) (x : FastOut) : (s.setFout k x).cfl = s.cfl := by unfold State.setFout; rfl
@[simp] theorem State.setFout_tbu (k : Nat) (x : FastOut) : (s.setFout k x).tbu = s.tbu := by unfold State.setFout; rfl
@[simp] theorem State.setFout_cyc (k : Nat) (x : FastOut) : (s.setFout k x).cyc = s.cyc := by unfold State.setFout; rfl
@[simp] theorem State.setFout_axes (k : Nat) (x : FastOut) : (s.setFout k x).axes = s.axes := by unfold State.setFout; rfl
@[simp] theorem State.setFout_axm (k : Nat) (x : FastOut) : (s.setFout k x).axm = s.axm := by unfold State.setFout; rfl
@[simp] theorem State.setFout_eiu (k : Nat) (x : FastOut) : (s.setFout k x).eiu = s.eiu := by unfold State.setFout; rfl
@[simp] theorem State.setFout_dio (k : Nat) (x : FastOut) : (s.setFout k x).dio = { s.dio with outs := Tab.set {} s.dio.outs k x } := rfl
@[simp] theorem State.setFout_lau (k : Nat) (x : FastOut) : (s.setFout k x).lau = s.lau := by unfold State.setFout; rfl
@[simp] theorem State.setFout_vms (k : Nat) (x : FastOut) : (s.setFout k x).vms = s.vms := by unfold State.setFout; rfl
@[simp] theorem State.setFout_cea (k : Nat) (x : FastOut) : (s.setFout k x).cea = s.cea := by unfold State.setFout; rfl
@[simp] theorem State.setFout_slc (k : Nat) (x : FastOut) : (s.setFout k x).slc = s.slc := by unfold State.setFout; rfl
@[simp] theorem State.setFout_fbr (k : Nat) (x : FastOut) : (s.setFout k x).fbr = s.fbr := by unfold State.setFout; rfl
@[simp] theorem State.setFout_twu (k : Nat) (x : FastOut) : (s.setFout k x).twu = s.twu := by unfold State.setFout; rfl
@[simp] theorem State.setFout_sfi (k : Nat) (x : FastOut) : (s.setFout k x).sfi = s.sfi := by unfold State.setFout; rfl
@[simp] theorem State.setFout_mbx (k : Nat) (x : FastOut) : (s.setFout k x).mbx = s.mbx := by unfold State.setFout; rfl
@[simp] theorem State.setFout_evr (k : Nat) (x : FastOut) : (s.setFout k x).evr = s.evr := by unfold State.setFout; rfl
@[simp] theorem State.setFout_pcie (k : Nat) (x : FastOut) : (s.setFout k x).pcie = s.pcie := by unfold State.setFout; rfl
@[simp] theorem State.setFout_wks (k : Nat) (x : FastOut) : (s.setFout k x).wks = s.wks := by unfold State.setFout; rfl
@[simp] theorem State.setFout_cap (k : Nat) (x : FastOut) : (s.setFout k x).cap = s.cap := by unfold State.setFout; rfl
@[simp] theorem State.setFout_elg (k : Nat) (x : FastOut) : (s.setFout k x).elg = s.elg := by unfold State.setFout; rfl
@[simp] theorem State.setFout_hlm (k : Nat) (x : FastOut) : (s.setFout k x).hlm = s.hlm := by unfold State.setFout; rfl

/-! `State.setEnc` -/

@[simp] theorem State.setEnc_pending (k : Nat) (x : EncCh) : (s.setEnc k x).pending = s.pending := State.wr_pending ..
@[simp] theorem State.setEnc_freeCtr (k : Nat) (x : EncCh) : (s.setEnc k x).freeCtr = s.freeCtr := State.wr_freeCtr ..
@[simp] theorem State.setEnc_wire (k : Nat) (x : EncCh) : (s.setEnc k x).wire = s.wire := State.wr_wire ..
@[simp] theorem State.setEnc_clk (k : Nat) (x : EncCh) : (s.setEnc k x).clk = s.clk := State.wr_clk ..
@[simp] theorem State.setEnc_ft (k : Nat) (x : EncCh) : (s.setEnc k x).ft = s.ft := State.wr_ft ..
@[simp] theorem State.setEnc_dram (k : Nat) (x : EncCh) : (s.setEnc k x).dram = s.dram := State.wr_dram ..
@[simp] theorem State.setEnc_gens (k : Nat) (x : EncCh) : (s.setEnc k x).gens = s.gens := State.wr_gens ..
@[simp] theorem State.setEnc_sigs (k : Nat) (x : EncCh) : (s.setEnc k x).sigs = s.sigs := State.wr_sigs ..
@[simp] theorem State.setEnc_sigPrev (k : Nat) (x : EncCh) : (s.setEnc k x).sigPrev = s.sigPrev := State.wr_sigPrev ..
@[simp] theorem State.setEnc_remote (k : Nat) (x : EncCh) : (s.setEnc k x).remote = s.remote := State.wr_remote ..
@[simp] theorem State.setEnc_remotePrev (k : Nat) (x : EncCh) : (s.setEnc k x).remotePrev = s.remotePrev := State.wr_remotePrev ..
@[simp] theorem State.setEnc_fuses (k : Nat) (x : EncCh) : (s.setEnc k x).fuses = s.fuses := State.wr_fuses ..
@[simp] theorem State.setEnc_glb (k : Nat) (x : EncCh) : (s.setEnc k x).glb = s.glb := State.wr_glb ..
@[simp] theorem State.setEnc_pem (k : Nat) (x : EncCh) : (s.setEnc k x).pem = s.pem := State.wr_pem ..
@[simp] theorem State.setEnc_lcu (k : Nat) (x : EncCh) : (s.setEnc k x).lcu = s.lcu := State.wr_lcu ..
@[simp] theorem State.setEnc_cfl (k : Nat) (x : EncCh) : (s.setEnc k x).cfl = s.cfl := State.wr_cfl ..
@[simp] theorem State.setEnc_tbu (k : Nat) (x : EncCh) : (s.setEnc k x).tbu = s.tbu := State.wr_tbu ..
@[simp] theorem State.setEnc_cyc (k : Nat) (x : EncCh) : (s.setEnc k x).cyc = s.cyc := State.wr_cyc ..
@[simp] theorem State.setEnc_axes (k : Nat) (x : EncCh) : (s.setEnc k x).axes = s.axes := State.wr_axes ..
@[simp] theorem State.setEnc_axm (k : Nat) (x : EncCh) : (s.setEnc k x).axm = s.axm := State.wr_axm ..
@[simp] theorem State.setEnc_eiu (k : Nat) (x : EncCh) : (s.setEnc k x).eiu = Tab.set {} s.eiu k x := rfl
@[simp] theorem State.setEnc_dio (k : Nat) (x : EncCh) : (s.setEnc k x).dio = s.dio := State.wr_dio ..
@[simp] theorem State.setEnc_lau (k : Nat) (x : EncCh) : (s.setEnc k x).lau = s.lau := State.wr_lau ..
@[simp] theorem State.setEnc_vms (k : Nat) (x : EncCh) : (s.setEnc k x).vms = s.vms := State.wr_vms ..
@[simp] theorem State.setEnc_cea (k : Nat) (x : EncCh) : (s.setEnc k x).cea = s.cea := State.wr_cea ..
@[simp] theorem State.setEnc_slc (k : Nat) (x : EncCh) : (s.setEnc k x).slc = s.slc := State.wr_slc ..
@[simp] theorem State.setEnc_fbr (k : Nat) (x : EncCh) : (s.setEnc k x).fbr = s.fbr := State.wr_fbr ..
@[simp] theorem State.setEnc_twu (k : Nat) (x : EncCh) : (s.setEnc k x).twu = s.twu := State.wr_twu ..
@[simp] theorem State.setEnc_sfi (k : Nat) (x : EncCh) : (s.setEnc k x).sfi = s.sfi := State.wr_sfi ..
@[simp] theorem State.setEnc_mbx (k : Nat) (x : EncCh) : (s.setEnc k x).mbx = s.mbx := State.wr_mbx ..
@[simp] theorem State.setEnc_evr (k : Nat) (x : EncCh) : (s.setEnc k x).evr = s.evr := State.wr_evr ..
@[simp] theorem State.setEnc_pcie (k : Nat) (x : EncCh) : (s.setEnc k x).pcie = s.pcie := State.wr_pcie ..
@[simp] theorem State.setEnc_wks (k : Nat) (x : EncCh) : (s.setEnc k x).wks = s.wks := State.wr_wks ..
@[simp] theorem State.setEnc_cap (k : Nat) (x : EncCh) : (s.setEnc k x).cap = s.cap := State.wr_cap ..
@[simp] theorem State.setEnc_elg (k : Nat) (x : EncCh) : (s.setEnc k x).elg = s.elg := State.wr_elg ..
@[simp] theorem State.setEnc_hlm (k : Nat) (x : EncCh) : (s.setEnc k x).hlm = s.hlm := State.wr_hlm ..

/-! `State.setLink` -/

@[simp] theorem State.setLink_pending (a : Nat) (l : Link) : (s.setLink a l).pending = s.pending := State.setMap_pending ..
@[simp] theorem State.setLink_freeCtr (a : Nat) (l : Link) : (s.setLink a l).freeCtr = s.freeCtr := State.setMap_freeCtr ..
@[simp] theorem State.setLink_wire (a : Nat) (l : Link) : (s.setLink a l).wire = s.wire := State.setMap_wire ..
@[simp] theorem State.setLink_clk (a : Nat) (l : Link) : (s.setLink a l).clk = s.clk := State.setMap_clk ..
@[simp] theorem State.setLink_ft (a : Nat) (l : Link) : (s.setLink a l).ft = s.ft := State.setMap_ft ..
@[simp] theorem State.setLink_dram (a : Nat) (l : Link) : (s.setLink a l).dram = s.dram := State.setMap_dram ..
@[simp] theorem State.setLink_gens (a : Nat) (l : Link) : (s.setLink a l).gens = s.gens := State.setMap_gens ..
@[simp] theorem State.setLink_sigs (a : Nat) (l : Link) : (s.setLink a l).sigs = s.sigs := State.setMap_sigs ..
@[simp] theorem State.setLink_sigPrev (a : Nat) (l : Link) : (s.setLink a l).sigPrev = s.sigPrev := State.setMap_sigPrev ..
@[simp] theorem State.setLink_remote (a : Nat) (l : Link) : (s.setLink a l).remote = s.remote := State.setMap_remote ..
@[simp] theorem State.setLink_remotePrev (a : Nat) (l : Link) : (s.setLink a l).remotePrev = s.remotePrev := State.setMap_remotePrev ..
@[simp] theorem State.setLink_fuses (a : Nat) (l : Link) : (s.setLink a l).fuses = s.fuses := State.setMap_fuses ..
@[simp] theorem State.setLink_glb (a : Nat) (l : Link) : (s.setLink a l).glb = s.glb := State.setMap_glb ..
@[simp] theorem State.setLink_pem (a : Nat) (l : Link) : (s.setLink a l).pem = s.pem := State.setMap_pem ..
@[simp] theorem State.setLink_lcu (a : Nat) (l : Link) : (s.setLink a l).lcu = s.lcu := State.setMap_lcu ..
@[simp] theorem State.setLink_cfl (a : Nat) (l : Link) : (s.setLink a l).cfl = s.cfl := State.setMap_cfl ..
@[simp] theorem State.setLink_tbu (a : Nat) (l : Link) : (s.setLink a l).tbu = s.tbu := State.setMap_tbu ..
@[simp] theorem State.setLink_cyc (a : Nat) (l : Link) : (s.setLink a l).cyc = s.cyc := State.setMap_cyc ..
@[simp] theorem State.setLink_axes (a : Nat) (l : Link) : (s.setLink a l).axes = s.axes := State.setMap_axes ..
@[simp] theorem State.setLink_axm (a : Nat) (l : Link) : (s.setLink a l).axm = s.axm := State.setMap_axm ..
@[simp] theorem State.setLink_eiu (a : Nat) (l : Link) : (s.setLink a l).eiu = s.eiu := State.setMap_eiu ..
@[simp] theorem State.setLink_dio (a : Nat) (l : Link) : (s.setLink a l).dio = s.dio := State.setMap_dio ..
@[simp] theorem State.setLink_lau (a : Nat) (l : Link) : (s.setLink a l).lau = { s.lau with links := Tab.put s.lau.links a l } := rfl
@[simp] theorem State.setLink_vms (a : Nat) (l : Link) : (s.setLink a l).vms = s.vms := State.setMap_vms ..
@[simp] theorem State.setLink_cea (a : Nat) (l : Link) : (s.setLink a l).cea = s.cea := State.setMap_cea ..
@[simp] theorem State.setLink_slc (a : Nat) (l : Link) : (s.setLink a l).slc = s.slc := State.setMap_slc ..
@[simp] theorem State.setLink_fbr (a : Nat) (l : Link) : (s.setLink a l).fbr = s.fbr := State.setMap_fbr ..
@[simp] theorem State.setLink_twu (a : Nat) (l : Link) : (s.setLink a l).twu = s.twu := State.setMap_twu ..
@[simp] theorem State.setLink_sfi (a : Nat) (l : Link) : (s.setLink a l).sfi = s.sfi := State.setMap_sfi ..
@[simp] theorem State.setLink_mbx (a : Nat) (l : Link) : (s.setLink a l).mbx = s.mbx := State.setMap_mbx ..
@[simp] theorem State.setLink_evr (a : Nat) (l : Link) : (s.setLink a l).evr = s.evr := State.setMap_evr ..
@[simp] theorem State.setLink_pcie (a : Nat) (l : Link) : (s.setLink a l).pcie = s.pcie := State.setMap_pcie ..
@[simp] theorem State.setLink_wks (a : Nat) (l : Link) : (s.setLink a l).wks = s.wks := State.setMap_wks ..
@[simp] theorem State.setLink_cap (a : Nat) (l : Link) : (s.setLink a l).cap = s.cap := State.setMap_cap ..
@[simp] theorem State.setLink_elg (a : Nat) (l : Link) : (s.setLink a l).elg = s.elg := State.setMap_elg ..
@[simp] theorem State.setLink_hlm (a : Nat) (l : Link) : (s.setLink a l).hlm = s.hlm := State.setMap_hlm ..

/-! `State.setLa` -/

@[simp] theorem State.setLa_pending (n : Nat) (x : LineAngle) : (s.setLa n x).pending = s.pending := by unfold State.setLa; rfl
@[simp] theorem State.setLa_freeCtr (n : Nat) (x : LineAngle) : (s.setLa n x).freeCtr = s.freeCtr := by unfold State.setLa; rfl
@[simp] theorem State.setLa_wire (n : Nat) (x : LineAngle) : (s.setLa n x).wire = s.wire := by unfold State.setLa; rfl
@[simp] theorem State.setLa_clk (n : Nat) (x : LineAngle) : (s.setLa n x).clk = s.clk := by unfold State.setLa; rfl
@[simp] theorem State.setLa_ft (n : Nat) (x : LineAngle) : (s.setLa n x).ft = s.ft := by unfold State.setLa; rfl
@[simp] theorem State.setLa_regs (n : Nat) (x : LineAngle) : (s.setLa n x).regs = s.regs := by unfold State.setLa; rfl
@[simp] theorem State.setLa_dram (n : Nat) (x : LineAngle) : (s.setLa n x).dram = s.dram := by unfold State.setLa; rfl
@[simp] theorem State.setLa_gens (n : Nat) (x : LineAngle) : (s.setLa n x).gens = s.gens := by unfold State.setLa; rfl
@[simp] theorem State.setLa_sigs (n : Nat) (x : LineAngle) : (s.setLa n x).sigs = s.sigs := by unfold State.setLa; rfl
@[simp] theorem State.setLa_sigPrev (n : Nat) (x : LineAngle) : (s.setLa n x).sigPrev = s.sigPrev := by unfold State.setLa; rfl
@[simp] theorem State.setLa_remote (n : Nat) (x : LineAngle) : (s.setLa n x).remote = s.remote := by unfold State.setLa; rfl
@[simp] theorem State.setLa_remotePrev (n : Nat) (x : LineAngle) : (s.setLa n x).remotePrev = s.remotePrev := by unfold State.setLa; rfl
@[simp] theorem State.setLa_fuses (n : Nat) (x : LineAngle) : (s.setLa n x).fuses = s.fuses := by unfold State.setLa; rfl
@[simp] theorem State.setLa_glb (n : Nat) (x : LineAngle) : (s.setLa n x).glb = s.glb := by unfold State.setLa; rfl
@[simp] theorem State.setLa_pem (n : Nat) (x : LineAngle) : (s.setLa n x).pem = s.pem := by unfold State.setLa; rfl
@[simp] theorem State.setLa_lcu (n : Nat) (x : LineAngle) : (s.setLa n x).lcu = s.lcu := by unfold State.setLa; rfl
@[simp] theorem State.setLa_cfl (n : Nat) (x : LineAngle) : (s.setLa n x).cfl = s.cfl := by unfold State.setLa; rfl
@[simp] theorem State.setLa_tbu (n : Nat) (x : LineAngle) : (s.setLa n x).tbu = s.tbu := by unfold State.setLa; rfl
@[simp] theorem State.setLa_cyc (n : Nat) (x : LineAngle) : (s.setLa n x).cyc = s.cyc := by unfold State.setLa; rfl
@[simp] theorem State.setLa_axes (n : Nat) (x : LineAngle) : (s.setLa n x).axes = s.axes := by unfold State.setLa; rfl
@[simp] theorem State.setLa_axm (n : Nat) (x : LineAngle) : (s.setLa n x).axm = s.axm := by unfold State.setLa; rfl
@[simp] theorem State.setLa_eiu (n : Nat) (x : LineAngle) : (s.setLa n x).eiu = s.eiu := by unfold State.setLa; rfl
@[simp] theorem State.setLa_dio (n : Nat) (x : LineAngle) : (s.setLa n x).dio = s.dio := by unfold State.setLa; rfl
@[simp] theorem State.setLa_lau (n : Nat) (x : LineAngle) : (s.setLa n x).lau = { s.lau with angles := Tab.set {} s.lau.angles n x } := rfl
@[simp] theorem State.setLa_vms (n : Nat) (x : LineAngle) : (s.setLa n x).vms = s.vms := by unfold State.setLa; rfl
@[simp] theorem State.setLa_cea (n : Nat) (x : LineAngle) : (s.setLa n x).cea = s.cea := by unfold State.setLa; rfl
@[simp] theorem State.setLa_slc (n : Nat) (x : LineAngle) : (s.setLa n x).slc = s.slc := by unfold State.setLa; rfl
@[simp] theorem State.setLa_fbr (n : Nat) (x : LineAngle) : (s.setLa n x).fbr = s.fbr := by unfold State.setLa; rfl
@[simp] theorem State.setLa_twu (n : Nat) (x : LineAngle) : (s.setLa n x).twu = s.twu := by unfold State.setLa; rfl
@[simp] theorem State.setLa_sfi (n : Nat) (x : LineAngle) : (s.setLa n x).sfi = s.sfi := by unfold State.setLa; rfl
@[simp] theorem State.setLa_mbx (n : Nat) (x : LineAngle) : (s.setLa n x).mbx = s.mbx := by unfold State.setLa; rfl
@[simp] theorem State.setLa_evr (n : Nat) (x : LineAngle) : (s.setLa n x).evr = s.evr := by unfold State.setLa; rfl
@[simp] theorem State.setLa_pcie (n : Nat) (x : LineAngle) : (s.setLa n x).pcie = s.pcie := by unfold State.setLa; rfl
@[simp] theorem State.setLa_wks (n : Nat) (x : LineAngle) : (s.setLa n x).wks = s.wks := by unfold State.setLa; rfl
@[simp] theorem State.setLa_cap (n : Nat) (x : LineAngle) : (s.setLa n x).cap = s.cap := by unfold State.setLa; rfl
@[simp] theorem State.setLa_elg (n : Nat) (x : LineAngle) : (s.setLa n x).elg = s.elg := by unfold State.setLa; rfl
@[simp] theorem State.setLa_hlm (n : Nat) (x : LineAngle) : (s.setLa n x).hlm = s.hlm := by unfold State.setLa; rfl

/-! `State.unarmLink` -/

@[simp] theorem State.unarmLink_pending (a : Nat) : (s.unarmLink a).pending = s.pending := by unfold State.unarmLink; rfl
@[simp] theorem State.unarmLink_freeCtr (a : Nat) : (s.unarmLink a).freeCtr = s.freeCtr := by unfold State.unarmLink; rfl
@[simp] theorem State.unarmLink_wire (a : Nat) : (s.unarmLink a).wire = s.wire := by unfold State.unarmLink; rfl
@[simp] theorem State.unarmLink_clk (a : Nat) : (s.unarmLink a).clk = s.clk := by unfold State.unarmLink; rfl
@[simp] theorem State.unarmLink_ft (a : Nat) : (s.unarmLink a).ft = s.ft := by unfold State.unarmLink; rfl
@[simp] theorem State.unarmLink_regs (a : Nat) : (s.unarmLink a).regs = s.regs := by unfold State.unarmLink; rfl
@[simp] theorem State.unarmLink_dram (a : Nat) : (s.unarmLink a).dram = s.dram := by unfold State.unarmLink; rfl
@[simp] theorem State.unarmLink_gens (a : Nat) : (s.unarmLink a).gens = s.gens := by unfold State.unarmLink; rfl
@[simp] theorem State.unarmLink_sigs (a : Nat) : (s.unarmLink a).sigs = s.sigs := by unfold State.unarmLink; rfl
@[simp] theorem State.unarmLink_sigPrev (a : Nat) : (s.unarmLink a).sigPrev = s.sigPrev := by unfold State.unarmLink; rfl
@[simp] theorem State.unarmLink_remote (a : Nat) : (s.unarmLink a).remote = s.remote := by unfold State.unarmLink; rfl
@[simp] theorem State.unarmLink_remotePrev (a : Nat) : (s.unarmLink a).remotePrev = s.remotePrev := by unfold State.unarmLink; rfl
@[simp] theorem State.unarmLink_fuses (a : Nat) : (s.unarmLink a).fuses = s.fuses := by unfold State.unarmLink; rfl
@[simp] theorem State.unarmLink_glb (a : Nat) : (s.unarmLink a).glb = s.glb := by unfold State.unarmLink; rfl
@[simp] theorem State.unarmLink_pem (a : Nat) : (s.unarmLink a).pem = s.pem := by unfold State.unarmLink; rfl
@[simp] theorem State.unarmLink_lcu (a : Nat) : (s.unarmLink a).lcu = s.lcu := by unfold State.unarmLink; rfl
@[simp] theorem State.unarmLink_cfl (a : Nat) : (s.unarmLink a).cfl = s.cfl := by unfold State.unarmLink; rfl
@[simp] theorem State.unarmLink_tbu (a : Nat) : (s.unarmLink a).tbu = s.tbu := by unfold State.unarmLink; rfl
@[simp] theorem State.unarmLink_cyc (a : Nat) : (s.unarmLink a).cyc = s.cyc := by unfold State.unarmLink; rfl
@[simp] theorem State.unarmLink_axes (a : Nat) : (s.unarmLink a).axes = s.axes := by unfold State.unarmLink; rfl
@[simp] theorem State.unarmLink_axm (a : Nat) : (s.unarmLink a).axm = s.axm := by unfold State.unarmLink; rfl
@[simp] theorem State.unarmLink_eiu (a : Nat) : (s.unarmLink a).eiu = s.eiu := by unfold State.unarmLink; rfl
@[simp] theorem State.unarmLink_dio (a : Nat) : (s.unarmLink a).dio = s.dio := by unfold State.unarmLink; rfl
@[simp] theorem State.unarmLink_vms (a : Nat) : (s.unarmLink a).vms = s.vms := by unfold State.unarmLink; rfl
@[simp] theorem State.unarmLink_cea (a : Nat) : (s.unarmLink a).cea = s.cea := by unfold State.unarmLink; rfl
@[simp] theorem State.unarmLink_slc (a : Nat) : (s.unarmLink a).slc = s.slc := by unfold State.unarmLink; rfl
@[simp] theorem State.unarmLink_fbr (a : Nat) : (s.unarmLink a).fbr = s.fbr := by unfold State.unarmLink; rfl
@[simp] theorem State.unarmLink_twu (a : Nat) : (s.unarmLink a).twu = s.twu := by unfold State.unarmLink; rfl
@[simp] theorem State.unarmLink_sfi (a : Nat) : (s.unarmLink a).sfi = s.sfi := by unfold State.unarmLink; rfl
@[simp] theorem State.unarmLink_mbx (a : Nat) : (s.unarmLink a).mbx = s.mbx := by unfold State.unarmLink; rfl
@[simp] theorem State.unarmLink_evr (a : Nat) : (s.unarmLink a).evr = s.evr := by unfold State.unarmLink; rfl
@[simp] theorem State.unarmLink_pcie (a : Nat) : (s.unarmLink a).pcie = s.pcie := by unfold State.unarmLink; rfl
@[simp] theorem State.unarmLink_wks (a : Nat) : (s.unarmLink a).wks = s.wks := by unfold State.unarmLink; rfl
@[simp] theorem State.unarmLink_cap (a : Nat) : (s.unarmLink a).cap = s.cap := by unfold State.unarmLink; rfl
@[simp] theorem State.unarmLink_elg (a : Nat) : (s.unarmLink a).elg = s.elg := by unfold State.unarmLink; rfl
@[simp] theorem State.unarmLink_hlm (a : Nat) : (s.unarmLink a).hlm = s.hlm := by unfold State.unarmLink; rfl

/-! `State.setNode` -/

@[simp] theorem State.setNode_pending (n : Nat) (x : NodeRt) : (s.setNode n x).pending = s.pending := (State.wrFld_pending ..).trans ((State.wrFld_pending ..).trans ((State.wr_pending ..).trans ((State.wr_pending ..).trans (State.wr_pending ..))))
@[simp] theorem State.setNode_freeCtr (n : Nat) (x : NodeRt) : (s.setNode n x).freeCtr = s.freeCtr := (State.wrFld_freeCtr ..).trans ((State.wrFld_freeCtr ..).trans ((State.wr_freeCtr ..).trans ((State.wr_freeCtr ..).trans (State.wr_freeCtr ..))))
@[simp] theorem State.setNode_wire (n : Nat) (x : NodeRt) : (s.setNode n x).wire = s.wire := (State.wrFld_wire ..).trans ((State.wrFld_wire ..).trans ((State.wr_wire ..).trans ((State.wr_wire ..).trans (State.wr_wire ..))))
@[simp] theorem State.setNode_clk (n : Nat) (x : NodeRt) : (s.setNode n x).clk = s.clk := (State.wrFld_clk ..).trans ((State.wrFld_clk ..).trans ((State.wr_clk ..).trans ((State.wr_clk ..).trans (State.wr_clk ..))))
@[simp] theorem State.setNode_ft (n : Nat) (x : NodeRt) : (s.setNode n x).ft = s.ft := (State.wrFld_ft ..).trans ((State.wrFld_ft ..).trans ((State.wr_ft ..).trans ((State.wr_ft ..).trans (State.wr_ft ..))))
@[simp] theorem State.setNode_dram (n : Nat) (x : NodeRt) : (s.setNode n x).dram = s.dram := (State.wrFld_dram ..).trans ((State.wrFld_dram ..).trans ((State.wr_dram ..).trans ((State.wr_dram ..).trans (State.wr_dram ..))))
@[simp] theorem State.setNode_gens (n : Nat) (x : NodeRt) : (s.setNode n x).gens = s.gens := (State.wrFld_gens ..).trans ((State.wrFld_gens ..).trans ((State.wr_gens ..).trans ((State.wr_gens ..).trans (State.wr_gens ..))))
@[simp] theorem State.setNode_sigs (n : Nat) (x : NodeRt) : (s.setNode n x).sigs = s.sigs := (State.wrFld_sigs ..).trans ((State.wrFld_sigs ..).trans ((State.wr_sigs ..).trans ((State.wr_sigs ..).trans (State.wr_sigs ..))))
@[simp] theorem State.setNode_sigPrev (n : Nat) (x : NodeRt) : (s.setNode n x).sigPrev = s.sigPrev := (State.wrFld_sigPrev ..).trans ((State.wrFld_sigPrev ..).trans ((State.wr_sigPrev ..).trans ((State.wr_sigPrev ..).trans (State.wr_sigPrev ..))))
@[simp] theorem State.setNode_remote (n : Nat) (x : NodeRt) : (s.setNode n x).remote = s.remote := (State.wrFld_remote ..).trans ((State.wrFld_remote ..).trans ((State.wr_remote ..).trans ((State.wr_remote ..).trans (State.wr_remote ..))))
@[simp] theorem State.setNode_remotePrev (n : Nat) (x : NodeRt) : (s.setNode n x).remotePrev = s.remotePrev := (State.wrFld_remotePrev ..).trans ((State.wrFld_remotePrev ..).trans ((State.wr_remotePrev ..).trans ((State.wr_remotePrev ..).trans (State.wr_remotePrev ..))))
@[simp] theorem State.setNode_fuses (n : Nat) (x : NodeRt) : (s.setNode n x).fuses = s.fuses := (State.wrFld_fuses ..).trans ((State.wrFld_fuses ..).trans ((State.wr_fuses ..).trans ((State.wr_fuses ..).trans (State.wr_fuses ..))))
@[simp] theorem State.setNode_glb (n : Nat) (x : NodeRt) : (s.setNode n x).glb = s.glb := (State.wrFld_glb ..).trans ((State.wrFld_glb ..).trans ((State.wr_glb ..).trans ((State.wr_glb ..).trans (State.wr_glb ..))))
@[simp] theorem State.setNode_pem (n : Nat) (x : NodeRt) : (s.setNode n x).pem = s.pem := (State.wrFld_pem ..).trans ((State.wrFld_pem ..).trans ((State.wr_pem ..).trans ((State.wr_pem ..).trans (State.wr_pem ..))))
@[simp] theorem State.setNode_lcu (n : Nat) (x : NodeRt) : (s.setNode n x).lcu = s.lcu := (State.wrFld_lcu ..).trans ((State.wrFld_lcu ..).trans ((State.wr_lcu ..).trans ((State.wr_lcu ..).trans (State.wr_lcu ..))))
@[simp] theorem State.setNode_cfl (n : Nat) (x : NodeRt) : (s.setNode n x).cfl = s.cfl := (State.wrFld_cfl ..).trans ((State.wrFld_cfl ..).trans ((State.wr_cfl ..).trans ((State.wr_cfl ..).trans (State.wr_cfl ..))))
@[simp] theorem State.setNode_tbu (n : Nat) (x : NodeRt) : (s.setNode n x).tbu = s.tbu := (State.wrFld_tbu ..).trans ((State.wrFld_tbu ..).trans ((State.wr_tbu ..).trans ((State.wr_tbu ..).trans (State.wr_tbu ..))))
@[simp] theorem State.setNode_cyc (n : Nat) (x : NodeRt) : (s.setNode n x).cyc = s.cyc := (State.wrFld_cyc ..).trans ((State.wrFld_cyc ..).trans ((State.wr_cyc ..).trans ((State.wr_cyc ..).trans (State.wr_cyc ..))))
@[simp] theorem State.setNode_axes (n : Nat) (x : NodeRt) : (s.setNode n x).axes = s.axes := (State.wrFld_axes ..).trans ((State.wrFld_axes ..).trans ((State.wr_axes ..).trans ((State.wr_axes ..).trans (State.wr_axes ..))))
@[simp] theorem State.setNode_axm (n : Nat) (x : NodeRt) : (s.setNode n x).axm = s.axm := (State.wrFld_axm ..).trans ((State.wrFld_axm ..).trans ((State.wr_axm ..).trans ((State.wr_axm ..).trans (State.wr_axm ..))))
@[simp] theorem State.setNode_eiu (n : Nat) (x : NodeRt) : (s.setNode n x).eiu = s.eiu := (State.wrFld_eiu ..).trans ((State.wrFld_eiu ..).trans ((State.wr_eiu ..).trans ((State.wr_eiu ..).trans (State.wr_eiu ..))))
@[simp] theorem State.setNode_dio (n : Nat) (x : NodeRt) : (s.setNode n x).dio = s.dio := (State.wrFld_dio ..).trans ((State.wrFld_dio ..).trans ((State.wr_dio ..).trans ((State.wr_dio ..).trans (State.wr_dio ..))))
@[simp] theorem State.setNode_lau (n : Nat) (x : NodeRt) : (s.setNode n x).lau = s.lau := (State.wrFld_lau ..).trans ((State.wrFld_lau ..).trans ((State.wr_lau ..).trans ((State.wr_lau ..).trans (State.wr_lau ..))))
@[simp] theorem State.setNode_vms (n : Nat) (x : NodeRt) : (s.setNode n x).vms = s.vms := (State.wrFld_vms ..).trans ((State.wrFld_vms ..).trans ((State.wr_vms ..).trans ((State.wr_vms ..).trans (State.wr_vms ..))))
@[simp] theorem State.setNode_cea (n : Nat) (x : NodeRt) : (s.setNode n x).cea = s.cea := (State.wrFld_cea ..).trans ((State.wrFld_cea ..).trans ((State.wr_cea ..).trans ((State.wr_cea ..).trans (State.wr_cea ..))))
@[simp] theorem State.setNode_slc (n : Nat) (x : NodeRt) : (s.setNode n x).slc = { s.slc with nodes := Tab.set {} s.slc.nodes n x } := rfl
@[simp] theorem State.setNode_fbr (n : Nat) (x : NodeRt) : (s.setNode n x).fbr = s.fbr := (State.wrFld_fbr ..).trans ((State.wrFld_fbr ..).trans ((State.wr_fbr ..).trans ((State.wr_fbr ..).trans (State.wr_fbr ..))))
@[simp] theorem State.setNode_twu (n : Nat) (x : NodeRt) : (s.setNode n x).twu = s.twu := (State.wrFld_twu ..).trans ((State.wrFld_twu ..).trans ((State.wr_twu ..).trans ((State.wr_twu ..).trans (State.wr_twu ..))))
@[simp] theorem State.setNode_sfi (n : Nat) (x : NodeRt) : (s.setNode n x).sfi = s.sfi := (State.wrFld_sfi ..).trans ((State.wrFld_sfi ..).trans ((State.wr_sfi ..).trans ((State.wr_sfi ..).trans (State.wr_sfi ..))))
@[simp] theorem State.setNode_mbx (n : Nat) (x : NodeRt) : (s.setNode n x).mbx = s.mbx := (State.wrFld_mbx ..).trans ((State.wrFld_mbx ..).trans ((State.wr_mbx ..).trans ((State.wr_mbx ..).trans (State.wr_mbx ..))))
@[simp] theorem State.setNode_evr (n : Nat) (x : NodeRt) : (s.setNode n x).evr = s.evr := (State.wrFld_evr ..).trans ((State.wrFld_evr ..).trans ((State.wr_evr ..).trans ((State.wr_evr ..).trans (State.wr_evr ..))))
@[simp] theorem State.setNode_pcie (n : Nat) (x : NodeRt) : (s.setNode n x).pcie = s.pcie := (State.wrFld_pcie ..).trans ((State.wrFld_pcie ..).trans ((State.wr_pcie ..).trans ((State.wr_pcie ..).trans (State.wr_pcie ..))))
@[simp] theorem State.setNode_wks (n : Nat) (x : NodeRt) : (s.setNode n x).wks = s.wks := (State.wrFld_wks ..).trans ((State.wrFld_wks ..).trans ((State.wr_wks ..).trans ((State.wr_wks ..).trans (State.wr_wks ..))))
@[simp] theorem State.setNode_cap (n : Nat) (x : NodeRt) : (s.setNode n x).cap = s.cap := (State.wrFld_cap ..).trans ((State.wrFld_cap ..).trans ((State.wr_cap ..).trans ((State.wr_cap ..).trans (State.wr_cap ..))))
@[simp] theorem State.setNode_elg (n : Nat) (x : NodeRt) : (s.setNode n x).elg = s.elg := (State.wrFld_elg ..).trans ((State.wrFld_elg ..).trans ((State.wr_elg ..).trans ((State.wr_elg ..).trans (State.wr_elg ..))))
@[simp] theorem State.setNode_hlm (n : Nat) (x : NodeRt) : (s.setNode n x).hlm = s.hlm := (State.wrFld_hlm ..).trans ((State.wrFld_hlm ..).trans ((State.wr_hlm ..).trans ((State.wr_hlm ..).trans (State.wr_hlm ..))))

/-! `State.setPort` -/

@[simp] theorem State.setPort_pending (p : Nat) (x : Port) : (s.setPort p x).pending = s.pending := by unfold State.setPort; rfl
@[simp] theorem State.setPort_freeCtr (p : Nat) (x : Port) : (s.setPort p x).freeCtr = s.freeCtr := by unfold State.setPort; rfl
@[simp] theorem State.setPort_wire (p : Nat) (x : Port) : (s.setPort p x).wire = s.wire := by unfold State.setPort; rfl
@[simp] theorem State.setPort_clk (p : Nat) (x : Port) : (s.setPort p x).clk = s.clk := by unfold State.setPort; rfl
@[simp] theorem State.setPort_ft (p : Nat) (x : Port) : (s.setPort p x).ft = s.ft := by unfold State.setPort; rfl
@[simp] theorem State.setPort_regs (p : Nat) (x : Port) : (s.setPort p x).regs = s.regs := by unfold State.setPort; rfl
@[simp] theorem State.setPort_dram (p : Nat) (x : Port) : (s.setPort p x).dram = s.dram := by unfold State.setPort; rfl
@[simp] theorem State.setPort_gens (p : Nat) (x : Port) : (s.setPort p x).gens = s.gens := by unfold State.setPort; rfl
@[simp] theorem State.setPort_sigs (p : Nat) (x : Port) : (s.setPort p x).sigs = s.sigs := by unfold State.setPort; rfl
@[simp] theorem State.setPort_sigPrev (p : Nat) (x : Port) : (s.setPort p x).sigPrev = s.sigPrev := by unfold State.setPort; rfl
@[simp] theorem State.setPort_remote (p : Nat) (x : Port) : (s.setPort p x).remote = s.remote := by unfold State.setPort; rfl
@[simp] theorem State.setPort_remotePrev (p : Nat) (x : Port) : (s.setPort p x).remotePrev = s.remotePrev := by unfold State.setPort; rfl
@[simp] theorem State.setPort_fuses (p : Nat) (x : Port) : (s.setPort p x).fuses = s.fuses := by unfold State.setPort; rfl
@[simp] theorem State.setPort_glb (p : Nat) (x : Port) : (s.setPort p x).glb = s.glb := by unfold State.setPort; rfl
@[simp] theorem State.setPort_pem (p : Nat) (x : Port) : (s.setPort p x).pem = s.pem := by unfold State.setPort; rfl
@[simp] theorem State.setPort_lcu (p : Nat) (x : Port) : (s.setPort p x).lcu = s.lcu := by unfold State.setPort; rfl
@[simp] theorem State.setPort_cfl (p : Nat) (x : Port) : (s.setPort p x).cfl = s.cfl := by unfold State.setPort; rfl
@[simp] theorem State.setPort_tbu (p : Nat) (x : Port) : (s.setPort p x).tbu = s.tbu := by unfold State.setPort; rfl
@[simp] theorem State.setPort_cyc (p : Nat) (x : Port) : (s.setPort p x).cyc = s.cyc := by unfold State.setPort; rfl
@[simp] theorem State.setPort_axes (p : Nat) (x : Port) : (s.setPort p x).axes = s.axes := by unfold State.setPort; rfl
@[simp] theorem State.setPort_axm (p : Nat) (x : Port) : (s.setPort p x).axm = s.axm := by unfold State.setPort; rfl
@[simp] theorem State.setPort_eiu (p : Nat) (x : Port) : (s.setPort p x).eiu = s.eiu := by unfold State.setPort; rfl
@[simp] theorem State.setPort_dio (p : Nat) (x : Port) : (s.setPort p x).dio = s.dio := by unfold State.setPort; rfl
@[simp] theorem State.setPort_lau (p : Nat) (x : Port) : (s.setPort p x).lau = s.lau := by unfold State.setPort; rfl
@[simp] theorem State.setPort_vms (p : Nat) (x : Port) : (s.setPort p x).vms = s.vms := by unfold State.setPort; rfl
@[simp] theorem State.setPort_cea (p : Nat) (x : Port) : (s.setPort p x).cea = s.cea := by unfold State.setPort; rfl
@[simp] theorem State.setPort_slc (p : Nat) (x : Port) : (s.setPort p x).slc = { s.slc with ports := Tab.set {} s.slc.ports p x } := rfl
@[simp] theorem State.setPort_fbr (p : Nat) (x : Port) : (s.setPort p x).fbr = s.fbr := by unfold State.setPort; rfl
@[simp] theorem State.setPort_twu (p : Nat) (x : Port) : (s.setPort p x).twu = s.twu := by unfold State.setPort; rfl
@[simp] theorem State.setPort_sfi (p : Nat) (x : Port) : (s.setPort p x).sfi = s.sfi := by unfold State.setPort; rfl
@[simp] theorem State.setPort_mbx (p : Nat) (x : Port) : (s.setPort p x).mbx = s.mbx := by unfold State.setPort; rfl
@[simp] theorem State.setPort_evr (p : Nat) (x : Port) : (s.setPort p x).evr = s.evr := by unfold State.setPort; rfl
@[simp] theorem State.setPort_pcie (p : Nat) (x : Port) : (s.setPort p x).pcie = s.pcie := by unfold State.setPort; rfl
@[simp] theorem State.setPort_wks (p : Nat) (x : Port) : (s.setPort p x).wks = s.wks := by unfold State.setPort; rfl
@[simp] theorem State.setPort_cap (p : Nat) (x : Port) : (s.setPort p x).cap = s.cap := by unfold State.setPort; rfl
@[simp] theorem State.setPort_elg (p : Nat) (x : Port) : (s.setPort p x).elg = s.elg := by unfold State.setPort; rfl
@[simp] theorem State.setPort_hlm (p : Nat) (x : Port) : (s.setPort p x).hlm = s.hlm := by unfold State.setPort; rfl

/-! `State.setLanded` -/

@[simp] theorem State.setLanded_pending (r : Nat) (x : Landed) : (s.setLanded r x).pending = s.pending := by unfold State.setLanded; rfl
@[simp] theorem State.setLanded_freeCtr (r : Nat) (x : Landed) : (s.setLanded r x).freeCtr = s.freeCtr := by unfold State.setLanded; rfl
@[simp] theorem State.setLanded_wire (r : Nat) (x : Landed) : (s.setLanded r x).wire = s.wire := by unfold State.setLanded; rfl
@[simp] theorem State.setLanded_clk (r : Nat) (x : Landed) : (s.setLanded r x).clk = s.clk := by unfold State.setLanded; rfl
@[simp] theorem State.setLanded_ft (r : Nat) (x : Landed) : (s.setLanded r x).ft = s.ft := by unfold State.setLanded; rfl
@[simp] theorem State.setLanded_regs (r : Nat) (x : Landed) : (s.setLanded r x).regs = s.regs := by unfold State.setLanded; rfl
@[simp] theorem State.setLanded_dram (r : Nat) (x : Landed) : (s.setLanded r x).dram = s.dram := by unfold State.setLanded; rfl
@[simp] theorem State.setLanded_gens (r : Nat) (x : Landed) : (s.setLanded r x).gens = s.gens := by unfold State.setLanded; rfl
@[simp] theorem State.setLanded_sigs (r : Nat) (x : Landed) : (s.setLanded r x).sigs = s.sigs := by unfold State.setLanded; rfl
@[simp] theorem State.setLanded_sigPrev (r : Nat) (x : Landed) : (s.setLanded r x).sigPrev = s.sigPrev := by unfold State.setLanded; rfl
@[simp] theorem State.setLanded_remote (r : Nat) (x : Landed) : (s.setLanded r x).remote = s.remote := by unfold State.setLanded; rfl
@[simp] theorem State.setLanded_remotePrev (r : Nat) (x : Landed) : (s.setLanded r x).remotePrev = s.remotePrev := by unfold State.setLanded; rfl
@[simp] theorem State.setLanded_fuses (r : Nat) (x : Landed) : (s.setLanded r x).fuses = s.fuses := by unfold State.setLanded; rfl
@[simp] theorem State.setLanded_glb (r : Nat) (x : Landed) : (s.setLanded r x).glb = s.glb := by unfold State.setLanded; rfl
@[simp] theorem State.setLanded_pem (r : Nat) (x : Landed) : (s.setLanded r x).pem = s.pem := by unfold State.setLanded; rfl
@[simp] theorem State.setLanded_lcu (r : Nat) (x : Landed) : (s.setLanded r x).lcu = s.lcu := by unfold State.setLanded; rfl
@[simp] theorem State.setLanded_cfl (r : Nat) (x : Landed) : (s.setLanded r x).cfl = s.cfl := by unfold State.setLanded; rfl
@[simp] theorem State.setLanded_tbu (r : Nat) (x : Landed) : (s.setLanded r x).tbu = s.tbu := by unfold State.setLanded; rfl
@[simp] theorem State.setLanded_cyc (r : Nat) (x : Landed) : (s.setLanded r x).cyc = s.cyc := by unfold State.setLanded; rfl
@[simp] theorem State.setLanded_axes (r : Nat) (x : Landed) : (s.setLanded r x).axes = s.axes := by unfold State.setLanded; rfl
@[simp] theorem State.setLanded_axm (r : Nat) (x : Landed) : (s.setLanded r x).axm = s.axm := by unfold State.setLanded; rfl
@[simp] theorem State.setLanded_eiu (r : Nat) (x : Landed) : (s.setLanded r x).eiu = s.eiu := by unfold State.setLanded; rfl
@[simp] theorem State.setLanded_dio (r : Nat) (x : Landed) : (s.setLanded r x).dio = s.dio := by unfold State.setLanded; rfl
@[simp] theorem State.setLanded_lau (r : Nat) (x : Landed) : (s.setLanded r x).lau = s.lau := by unfold State.setLanded; rfl
@[simp] theorem State.setLanded_vms (r : Nat) (x : Landed) : (s.setLanded r x).vms = s.vms := by unfold State.setLanded; rfl
@[simp] theorem State.setLanded_cea (r : Nat) (x : Landed) : (s.setLanded r x).cea = s.cea := by unfold State.setLanded; rfl
@[simp] theorem State.setLanded_slc (r : Nat) (x : Landed) : (s.setLanded r x).slc = { s.slc with landed := Tab.set {} s.slc.landed r x } := rfl
@[simp] theorem State.setLanded_fbr (r : Nat) (x : Landed) : (s.setLanded r x).fbr = s.fbr := by unfold State.setLanded; rfl
@[simp] theorem State.setLanded_twu (r : Nat) (x : Landed) : (s.setLanded r x).twu = s.twu := by unfold State.setLanded; rfl
@[simp] theorem State.setLanded_sfi (r : Nat) (x : Landed) : (s.setLanded r x).sfi = s.sfi := by unfold State.setLanded; rfl
@[simp] theorem State.setLanded_mbx (r : Nat) (x : Landed) : (s.setLanded r x).mbx = s.mbx := by unfold State.setLanded; rfl
@[simp] theorem State.setLanded_evr (r : Nat) (x : Landed) : (s.setLanded r x).evr = s.evr := by unfold State.setLanded; rfl
@[simp] theorem State.setLanded_pcie (r : Nat) (x : Landed) : (s.setLanded r x).pcie = s.pcie := by unfold State.setLanded; rfl
@[simp] theorem State.setLanded_wks (r : Nat) (x : Landed) : (s.setLanded r x).wks = s.wks := by unfold State.setLanded; rfl
@[simp] theorem State.setLanded_cap (r : Nat) (x : Landed) : (s.setLanded r x).cap = s.cap := by unfold State.setLanded; rfl
@[simp] theorem State.setLanded_elg (r : Nat) (x : Landed) : (s.setLanded r x).elg = s.elg := by unfold State.setLanded; rfl
@[simp] theorem State.setLanded_hlm (r : Nat) (x : Landed) : (s.setLanded r x).hlm = s.hlm := by unfold State.setLanded; rfl

/-! `State.updTbu` -/

@[simp] theorem State.updTbu_pending (f : Tbu → Tbu) : (s.updTbu f).pending = s.pending := by unfold State.updTbu; rfl
@[simp] theorem State.updTbu_freeCtr (f : Tbu → Tbu) : (s.updTbu f).freeCtr = s.freeCtr := by unfold State.updTbu; rfl
@[simp] theorem State.updTbu_wire (f : Tbu → Tbu) : (s.updTbu f).wire = s.wire := by unfold State.updTbu; rfl
@[simp] theorem State.updTbu_clk (f : Tbu → Tbu) : (s.updTbu f).clk = s.clk := by unfold State.updTbu; rfl
@[simp] theorem State.updTbu_ft (f : Tbu → Tbu) : (s.updTbu f).ft = s.ft := by unfold State.updTbu; rfl
@[simp] theorem State.updTbu_regs (f : Tbu → Tbu) : (s.updTbu f).regs = s.regs := by unfold State.updTbu; rfl
@[simp] theorem State.updTbu_dram (f : Tbu → Tbu) : (s.updTbu f).dram = s.dram := by unfold State.updTbu; rfl
@[simp] theorem State.updTbu_gens (f : Tbu → Tbu) : (s.updTbu f).gens = s.gens := by unfold State.updTbu; rfl
@[simp] theorem State.updTbu_sigs (f : Tbu → Tbu) : (s.updTbu f).sigs = s.sigs := by unfold State.updTbu; rfl
@[simp] theorem State.updTbu_sigPrev (f : Tbu → Tbu) : (s.updTbu f).sigPrev = s.sigPrev := by unfold State.updTbu; rfl
@[simp] theorem State.updTbu_remote (f : Tbu → Tbu) : (s.updTbu f).remote = s.remote := by unfold State.updTbu; rfl
@[simp] theorem State.updTbu_remotePrev (f : Tbu → Tbu) : (s.updTbu f).remotePrev = s.remotePrev := by unfold State.updTbu; rfl
@[simp] theorem State.updTbu_fuses (f : Tbu → Tbu) : (s.updTbu f).fuses = s.fuses := by unfold State.updTbu; rfl
@[simp] theorem State.updTbu_glb (f : Tbu → Tbu) : (s.updTbu f).glb = s.glb := by unfold State.updTbu; rfl
@[simp] theorem State.updTbu_pem (f : Tbu → Tbu) : (s.updTbu f).pem = s.pem := by unfold State.updTbu; rfl
@[simp] theorem State.updTbu_lcu (f : Tbu → Tbu) : (s.updTbu f).lcu = s.lcu := by unfold State.updTbu; rfl
@[simp] theorem State.updTbu_cfl (f : Tbu → Tbu) : (s.updTbu f).cfl = s.cfl := by unfold State.updTbu; rfl
@[simp] theorem State.updTbu_tbu (f : Tbu → Tbu) : (s.updTbu f).tbu = f s.tbu := rfl
@[simp] theorem State.updTbu_cyc (f : Tbu → Tbu) : (s.updTbu f).cyc = s.cyc := by unfold State.updTbu; rfl
@[simp] theorem State.updTbu_axes (f : Tbu → Tbu) : (s.updTbu f).axes = s.axes := by unfold State.updTbu; rfl
@[simp] theorem State.updTbu_axm (f : Tbu → Tbu) : (s.updTbu f).axm = s.axm := by unfold State.updTbu; rfl
@[simp] theorem State.updTbu_eiu (f : Tbu → Tbu) : (s.updTbu f).eiu = s.eiu := by unfold State.updTbu; rfl
@[simp] theorem State.updTbu_dio (f : Tbu → Tbu) : (s.updTbu f).dio = s.dio := by unfold State.updTbu; rfl
@[simp] theorem State.updTbu_lau (f : Tbu → Tbu) : (s.updTbu f).lau = s.lau := by unfold State.updTbu; rfl
@[simp] theorem State.updTbu_vms (f : Tbu → Tbu) : (s.updTbu f).vms = s.vms := by unfold State.updTbu; rfl
@[simp] theorem State.updTbu_cea (f : Tbu → Tbu) : (s.updTbu f).cea = s.cea := by unfold State.updTbu; rfl
@[simp] theorem State.updTbu_slc (f : Tbu → Tbu) : (s.updTbu f).slc = s.slc := by unfold State.updTbu; rfl
@[simp] theorem State.updTbu_fbr (f : Tbu → Tbu) : (s.updTbu f).fbr = s.fbr := by unfold State.updTbu; rfl
@[simp] theorem State.updTbu_twu (f : Tbu → Tbu) : (s.updTbu f).twu = s.twu := by unfold State.updTbu; rfl
@[simp] theorem State.updTbu_sfi (f : Tbu → Tbu) : (s.updTbu f).sfi = s.sfi := by unfold State.updTbu; rfl
@[simp] theorem State.updTbu_mbx (f : Tbu → Tbu) : (s.updTbu f).mbx = s.mbx := by unfold State.updTbu; rfl
@[simp] theorem State.updTbu_evr (f : Tbu → Tbu) : (s.updTbu f).evr = s.evr := by unfold State.updTbu; rfl
@[simp] theorem State.updTbu_pcie (f : Tbu → Tbu) : (s.updTbu f).pcie = s.pcie := by unfold State.updTbu; rfl
@[simp] theorem State.updTbu_wks (f : Tbu → Tbu) : (s.updTbu f).wks = s.wks := by unfold State.updTbu; rfl
@[simp] theorem State.updTbu_cap (f : Tbu → Tbu) : (s.updTbu f).cap = s.cap := by unfold State.updTbu; rfl
@[simp] theorem State.updTbu_elg (f : Tbu → Tbu) : (s.updTbu f).elg = s.elg := by unfold State.updTbu; rfl
@[simp] theorem State.updTbu_hlm (f : Tbu → Tbu) : (s.updTbu f).hlm = s.hlm := by unfold State.updTbu; rfl

/-! `State.updFbr` -/

@[simp] theorem State.updFbr_pending (f : Fbr → Fbr) : (s.updFbr f).pending = s.pending := by unfold State.updFbr; rfl
@[simp] theorem State.updFbr_freeCtr (f : Fbr → Fbr) : (s.updFbr f).freeCtr = s.freeCtr := by unfold State.updFbr; rfl
@[simp] theorem State.updFbr_wire (f : Fbr → Fbr) : (s.updFbr f).wire = s.wire := by unfold State.updFbr; rfl
@[simp] theorem State.updFbr_clk (f : Fbr → Fbr) : (s.updFbr f).clk = s.clk := by unfold State.updFbr; rfl
@[simp] theorem State.updFbr_ft (f : Fbr → Fbr) : (s.updFbr f).ft = s.ft := by unfold State.updFbr; rfl
@[simp] theorem State.updFbr_regs (f : Fbr → Fbr) : (s.updFbr f).regs = s.regs := by unfold State.updFbr; rfl
@[simp] theorem State.updFbr_dram (f : Fbr → Fbr) : (s.updFbr f).dram = s.dram := by unfold State.updFbr; rfl
@[simp] theorem State.updFbr_gens (f : Fbr → Fbr) : (s.updFbr f).gens = s.gens := by unfold State.updFbr; rfl
@[simp] theorem State.updFbr_sigs (f : Fbr → Fbr) : (s.updFbr f).sigs = s.sigs := by unfold State.updFbr; rfl
@[simp] theorem State.updFbr_sigPrev (f : Fbr → Fbr) : (s.updFbr f).sigPrev = s.sigPrev := by unfold State.updFbr; rfl
@[simp] theorem State.updFbr_remote (f : Fbr → Fbr) : (s.updFbr f).remote = s.remote := by unfold State.updFbr; rfl
@[simp] theorem State.updFbr_remotePrev (f : Fbr → Fbr) : (s.updFbr f).remotePrev = s.remotePrev := by unfold State.updFbr; rfl
@[simp] theorem State.updFbr_fuses (f : Fbr → Fbr) : (s.updFbr f).fuses = s.fuses := by unfold State.updFbr; rfl
@[simp] theorem State.updFbr_glb (f : Fbr → Fbr) : (s.updFbr f).glb = s.glb := by unfold State.updFbr; rfl
@[simp] theorem State.updFbr_pem (f : Fbr → Fbr) : (s.updFbr f).pem = s.pem := by unfold State.updFbr; rfl
@[simp] theorem State.updFbr_lcu (f : Fbr → Fbr) : (s.updFbr f).lcu = s.lcu := by unfold State.updFbr; rfl
@[simp] theorem State.updFbr_cfl (f : Fbr → Fbr) : (s.updFbr f).cfl = s.cfl := by unfold State.updFbr; rfl
@[simp] theorem State.updFbr_tbu (f : Fbr → Fbr) : (s.updFbr f).tbu = s.tbu := by unfold State.updFbr; rfl
@[simp] theorem State.updFbr_cyc (f : Fbr → Fbr) : (s.updFbr f).cyc = s.cyc := by unfold State.updFbr; rfl
@[simp] theorem State.updFbr_axes (f : Fbr → Fbr) : (s.updFbr f).axes = s.axes := by unfold State.updFbr; rfl
@[simp] theorem State.updFbr_axm (f : Fbr → Fbr) : (s.updFbr f).axm = s.axm := by unfold State.updFbr; rfl
@[simp] theorem State.updFbr_eiu (f : Fbr → Fbr) : (s.updFbr f).eiu = s.eiu := by unfold State.updFbr; rfl
@[simp] theorem State.updFbr_dio (f : Fbr → Fbr) : (s.updFbr f).dio = s.dio := by unfold State.updFbr; rfl
@[simp] theorem State.updFbr_lau (f : Fbr → Fbr) : (s.updFbr f).lau = s.lau := by unfold State.updFbr; rfl
@[simp] theorem State.updFbr_vms (f : Fbr → Fbr) : (s.updFbr f).vms = s.vms := by unfold State.updFbr; rfl
@[simp] theorem State.updFbr_cea (f : Fbr → Fbr) : (s.updFbr f).cea = s.cea := by unfold State.updFbr; rfl
@[simp] theorem State.updFbr_slc (f : Fbr → Fbr) : (s.updFbr f).slc = s.slc := by unfold State.updFbr; rfl
@[simp] theorem State.updFbr_fbr (f : Fbr → Fbr) : (s.updFbr f).fbr = f s.fbr := rfl
@[simp] theorem State.updFbr_twu (f : Fbr → Fbr) : (s.updFbr f).twu = s.twu := by unfold State.updFbr; rfl
@[simp] theorem State.updFbr_sfi (f : Fbr → Fbr) : (s.updFbr f).sfi = s.sfi := by unfold State.updFbr; rfl
@[simp] theorem State.updFbr_mbx (f : Fbr → Fbr) : (s.updFbr f).mbx = s.mbx := by unfold State.updFbr; rfl
@[simp] theorem State.updFbr_evr (f : Fbr → Fbr) : (s.updFbr f).evr = s.evr := by unfold State.updFbr; rfl
@[simp] theorem State.updFbr_pcie (f : Fbr → Fbr) : (s.updFbr f).pcie = s.pcie := by unfold State.updFbr; rfl
@[simp] theorem State.updFbr_wks (f : Fbr → Fbr) : (s.updFbr f).wks = s.wks := by unfold State.updFbr; rfl
@[simp] theorem State.updFbr_cap (f : Fbr → Fbr) : (s.updFbr f).cap = s.cap := by unfold State.updFbr; rfl
@[simp] theorem State.updFbr_elg (f : Fbr → Fbr) : (s.updFbr f).elg = s.elg := by unfold State.updFbr; rfl
@[simp] theorem State.updFbr_hlm (f : Fbr → Fbr) : (s.updFbr f).hlm = s.hlm := by unfold State.updFbr; rfl

/-! `State.updCfl` -/

@[simp] theorem State.updCfl_pending (f : Cfl → Cfl) : (s.updCfl f).pending = s.pending := by unfold State.updCfl; rfl
@[simp] theorem State.updCfl_freeCtr (f : Cfl → Cfl) : (s.updCfl f).freeCtr = s.freeCtr := by unfold State.updCfl; rfl
@[simp] theorem State.updCfl_wire (f : Cfl → Cfl) : (s.updCfl f).wire = s.wire := by unfold State.updCfl; rfl
@[simp] theorem State.updCfl_clk (f : Cfl → Cfl) : (s.updCfl f).clk = s.clk := by unfold State.updCfl; rfl
@[simp] theorem State.updCfl_ft (f : Cfl → Cfl) : (s.updCfl f).ft = s.ft := by unfold State.updCfl; rfl
@[simp] theorem State.updCfl_regs (f : Cfl → Cfl) : (s.updCfl f).regs = s.regs := by unfold State.updCfl; rfl
@[simp] theorem State.updCfl_dram (f : Cfl → Cfl) : (s.updCfl f).dram = s.dram := by unfold State.updCfl; rfl
@[simp] theorem State.updCfl_gens (f : Cfl → Cfl) : (s.updCfl f).gens = s.gens := by unfold State.updCfl; rfl
@[simp] theorem State.updCfl_sigs (f : Cfl → Cfl) : (s.updCfl f).sigs = s.sigs := by unfold State.updCfl; rfl
@[simp] theorem State.updCfl_sigPrev (f : Cfl → Cfl) : (s.updCfl f).sigPrev = s.sigPrev := by unfold State.updCfl; rfl
@[simp] theorem State.updCfl_remote (f : Cfl → Cfl) : (s.updCfl f).remote = s.remote := by unfold State.updCfl; rfl
@[simp] theorem State.updCfl_remotePrev (f : Cfl → Cfl) : (s.updCfl f).remotePrev = s.remotePrev := by unfold State.updCfl; rfl
@[simp] theorem State.updCfl_fuses (f : Cfl → Cfl) : (s.updCfl f).fuses = s.fuses := by unfold State.updCfl; rfl
@[simp] theorem State.updCfl_glb (f : Cfl → Cfl) : (s.updCfl f).glb = s.glb := by unfold State.updCfl; rfl
@[simp] theorem State.updCfl_pem (f : Cfl → Cfl) : (s.updCfl f).pem = s.pem := by unfold State.updCfl; rfl
@[simp] theorem State.updCfl_lcu (f : Cfl → Cfl) : (s.updCfl f).lcu = s.lcu := by unfold State.updCfl; rfl
@[simp] theorem State.updCfl_cfl (f : Cfl → Cfl) : (s.updCfl f).cfl = f s.cfl := rfl
@[simp] theorem State.updCfl_tbu (f : Cfl → Cfl) : (s.updCfl f).tbu = s.tbu := by unfold State.updCfl; rfl
@[simp] theorem State.updCfl_cyc (f : Cfl → Cfl) : (s.updCfl f).cyc = s.cyc := by unfold State.updCfl; rfl
@[simp] theorem State.updCfl_axes (f : Cfl → Cfl) : (s.updCfl f).axes = s.axes := by unfold State.updCfl; rfl
@[simp] theorem State.updCfl_axm (f : Cfl → Cfl) : (s.updCfl f).axm = s.axm := by unfold State.updCfl; rfl
@[simp] theorem State.updCfl_eiu (f : Cfl → Cfl) : (s.updCfl f).eiu = s.eiu := by unfold State.updCfl; rfl
@[simp] theorem State.updCfl_dio (f : Cfl → Cfl) : (s.updCfl f).dio = s.dio := by unfold State.updCfl; rfl
@[simp] theorem State.updCfl_lau (f : Cfl → Cfl) : (s.updCfl f).lau = s.lau := by unfold State.updCfl; rfl
@[simp] theorem State.updCfl_vms (f : Cfl → Cfl) : (s.updCfl f).vms = s.vms := by unfold State.updCfl; rfl
@[simp] theorem State.updCfl_cea (f : Cfl → Cfl) : (s.updCfl f).cea = s.cea := by unfold State.updCfl; rfl
@[simp] theorem State.updCfl_slc (f : Cfl → Cfl) : (s.updCfl f).slc = s.slc := by unfold State.updCfl; rfl
@[simp] theorem State.updCfl_fbr (f : Cfl → Cfl) : (s.updCfl f).fbr = s.fbr := by unfold State.updCfl; rfl
@[simp] theorem State.updCfl_twu (f : Cfl → Cfl) : (s.updCfl f).twu = s.twu := by unfold State.updCfl; rfl
@[simp] theorem State.updCfl_sfi (f : Cfl → Cfl) : (s.updCfl f).sfi = s.sfi := by unfold State.updCfl; rfl
@[simp] theorem State.updCfl_mbx (f : Cfl → Cfl) : (s.updCfl f).mbx = s.mbx := by unfold State.updCfl; rfl
@[simp] theorem State.updCfl_evr (f : Cfl → Cfl) : (s.updCfl f).evr = s.evr := by unfold State.updCfl; rfl
@[simp] theorem State.updCfl_pcie (f : Cfl → Cfl) : (s.updCfl f).pcie = s.pcie := by unfold State.updCfl; rfl
@[simp] theorem State.updCfl_wks (f : Cfl → Cfl) : (s.updCfl f).wks = s.wks := by unfold State.updCfl; rfl
@[simp] theorem State.updCfl_cap (f : Cfl → Cfl) : (s.updCfl f).cap = s.cap := by unfold State.updCfl; rfl
@[simp] theorem State.updCfl_elg (f : Cfl → Cfl) : (s.updCfl f).elg = s.elg := by unfold State.updCfl; rfl
@[simp] theorem State.updCfl_hlm (f : Cfl → Cfl) : (s.updCfl f).hlm = s.hlm := by unfold State.updCfl; rfl

/-! `State.updTwu` -/

@[simp] theorem State.updTwu_pending (f : Twu → Twu) : (s.updTwu f).pending = s.pending := by unfold State.updTwu; rfl
@[simp] theorem State.updTwu_freeCtr (f : Twu → Twu) : (s.updTwu f).freeCtr = s.freeCtr := by unfold State.updTwu; rfl
@[simp] theorem State.updTwu_wire (f : Twu → Twu) : (s.updTwu f).wire = s.wire := by unfold State.updTwu; rfl
@[simp] theorem State.updTwu_clk (f : Twu → Twu) : (s.updTwu f).clk = s.clk := by unfold State.updTwu; rfl
@[simp] theorem State.updTwu_ft (f : Twu → Twu) : (s.updTwu f).ft = s.ft := by unfold State.updTwu; rfl
@[simp] theorem State.updTwu_regs (f : Twu → Twu) : (s.updTwu f).regs = s.regs := by unfold State.updTwu; rfl
@[simp] theorem State.updTwu_dram (f : Twu → Twu) : (s.updTwu f).dram = s.dram := by unfold State.updTwu; rfl
@[simp] theorem State.updTwu_gens (f : Twu → Twu) : (s.updTwu f).gens = s.gens := by unfold State.updTwu; rfl
@[simp] theorem State.updTwu_sigs (f : Twu → Twu) : (s.updTwu f).sigs = s.sigs := by unfold State.updTwu; rfl
@[simp] theorem State.updTwu_sigPrev (f : Twu → Twu) : (s.updTwu f).sigPrev = s.sigPrev := by unfold State.updTwu; rfl
@[simp] theorem State.updTwu_remote (f : Twu → Twu) : (s.updTwu f).remote = s.remote := by unfold State.updTwu; rfl
@[simp] theorem State.updTwu_remotePrev (f : Twu → Twu) : (s.updTwu f).remotePrev = s.remotePrev := by unfold State.updTwu; rfl
@[simp] theorem State.updTwu_fuses (f : Twu → Twu) : (s.updTwu f).fuses = s.fuses := by unfold State.updTwu; rfl
@[simp] theorem State.updTwu_glb (f : Twu → Twu) : (s.updTwu f).glb = s.glb := by unfold State.updTwu; rfl
@[simp] theorem State.updTwu_pem (f : Twu → Twu) : (s.updTwu f).pem = s.pem := by unfold State.updTwu; rfl
@[simp] theorem State.updTwu_lcu (f : Twu → Twu) : (s.updTwu f).lcu = s.lcu := by unfold State.updTwu; rfl
@[simp] theorem State.updTwu_cfl (f : Twu → Twu) : (s.updTwu f).cfl = s.cfl := by unfold State.updTwu; rfl
@[simp] theorem State.updTwu_tbu (f : Twu → Twu) : (s.updTwu f).tbu = s.tbu := by unfold State.updTwu; rfl
@[simp] theorem State.updTwu_cyc (f : Twu → Twu) : (s.updTwu f).cyc = s.cyc := by unfold State.updTwu; rfl
@[simp] theorem State.updTwu_axes (f : Twu → Twu) : (s.updTwu f).axes = s.axes := by unfold State.updTwu; rfl
@[simp] theorem State.updTwu_axm (f : Twu → Twu) : (s.updTwu f).axm = s.axm := by unfold State.updTwu; rfl
@[simp] theorem State.updTwu_eiu (f : Twu → Twu) : (s.updTwu f).eiu = s.eiu := by unfold State.updTwu; rfl
@[simp] theorem State.updTwu_dio (f : Twu → Twu) : (s.updTwu f).dio = s.dio := by unfold State.updTwu; rfl
@[simp] theorem State.updTwu_lau (f : Twu → Twu) : (s.updTwu f).lau = s.lau := by unfold State.updTwu; rfl
@[simp] theorem State.updTwu_vms (f : Twu → Twu) : (s.updTwu f).vms = s.vms := by unfold State.updTwu; rfl
@[simp] theorem State.updTwu_cea (f : Twu → Twu) : (s.updTwu f).cea = s.cea := by unfold State.updTwu; rfl
@[simp] theorem State.updTwu_slc (f : Twu → Twu) : (s.updTwu f).slc = s.slc := by unfold State.updTwu; rfl
@[simp] theorem State.updTwu_fbr (f : Twu → Twu) : (s.updTwu f).fbr = s.fbr := by unfold State.updTwu; rfl
@[simp] theorem State.updTwu_twu (f : Twu → Twu) : (s.updTwu f).twu = f s.twu := rfl
@[simp] theorem State.updTwu_sfi (f : Twu → Twu) : (s.updTwu f).sfi = s.sfi := by unfold State.updTwu; rfl
@[simp] theorem State.updTwu_mbx (f : Twu → Twu) : (s.updTwu f).mbx = s.mbx := by unfold State.updTwu; rfl
@[simp] theorem State.updTwu_evr (f : Twu → Twu) : (s.updTwu f).evr = s.evr := by unfold State.updTwu; rfl
@[simp] theorem State.updTwu_pcie (f : Twu → Twu) : (s.updTwu f).pcie = s.pcie := by unfold State.updTwu; rfl
@[simp] theorem State.updTwu_wks (f : Twu → Twu) : (s.updTwu f).wks = s.wks := by unfold State.updTwu; rfl
@[simp] theorem State.updTwu_cap (f : Twu → Twu) : (s.updTwu f).cap = s.cap := by unfold State.updTwu; rfl
@[simp] theorem State.updTwu_elg (f : Twu → Twu) : (s.updTwu f).elg = s.elg := by unfold State.updTwu; rfl
@[simp] theorem State.updTwu_hlm (f : Twu → Twu) : (s.updTwu f).hlm = s.hlm := by unfold State.updTwu; rfl

/-! `State.updHlm` -/

@[simp] theorem State.updHlm_pending (f : Hlm → Hlm) : (s.updHlm f).pending = s.pending := by unfold State.updHlm; rfl
@[simp] theorem State.updHlm_freeCtr (f : Hlm → Hlm) : (s.updHlm f).freeCtr = s.freeCtr := by unfold State.updHlm; rfl
@[simp] theorem State.updHlm_wire (f : Hlm → Hlm) : (s.updHlm f).wire = s.wire := by unfold State.updHlm; rfl
@[simp] theorem State.updHlm_clk (f : Hlm → Hlm) : (s.updHlm f).clk = s.clk := by unfold State.updHlm; rfl
@[simp] theorem State.updHlm_ft (f : Hlm → Hlm) : (s.updHlm f).ft = s.ft := by unfold State.updHlm; rfl
@[simp] theorem State.updHlm_regs (f : Hlm → Hlm) : (s.updHlm f).regs = s.regs := by unfold State.updHlm; rfl
@[simp] theorem State.updHlm_dram (f : Hlm → Hlm) : (s.updHlm f).dram = s.dram := by unfold State.updHlm; rfl
@[simp] theorem State.updHlm_gens (f : Hlm → Hlm) : (s.updHlm f).gens = s.gens := by unfold State.updHlm; rfl
@[simp] theorem State.updHlm_sigs (f : Hlm → Hlm) : (s.updHlm f).sigs = s.sigs := by unfold State.updHlm; rfl
@[simp] theorem State.updHlm_sigPrev (f : Hlm → Hlm) : (s.updHlm f).sigPrev = s.sigPrev := by unfold State.updHlm; rfl
@[simp] theorem State.updHlm_remote (f : Hlm → Hlm) : (s.updHlm f).remote = s.remote := by unfold State.updHlm; rfl
@[simp] theorem State.updHlm_remotePrev (f : Hlm → Hlm) : (s.updHlm f).remotePrev = s.remotePrev := by unfold State.updHlm; rfl
@[simp] theorem State.updHlm_fuses (f : Hlm → Hlm) : (s.updHlm f).fuses = s.fuses := by unfold State.updHlm; rfl
@[simp] theorem State.updHlm_glb (f : Hlm → Hlm) : (s.updHlm f).glb = s.glb := by unfold State.updHlm; rfl
@[simp] theorem State.updHlm_pem (f : Hlm → Hlm) : (s.updHlm f).pem = s.pem := by unfold State.updHlm; rfl
@[simp] theorem State.updHlm_lcu (f : Hlm → Hlm) : (s.updHlm f).lcu = s.lcu := by unfold State.updHlm; rfl
@[simp] theorem State.updHlm_cfl (f : Hlm → Hlm) : (s.updHlm f).cfl = s.cfl := by unfold State.updHlm; rfl
@[simp] theorem State.updHlm_tbu (f : Hlm → Hlm) : (s.updHlm f).tbu = s.tbu := by unfold State.updHlm; rfl
@[simp] theorem State.updHlm_cyc (f : Hlm → Hlm) : (s.updHlm f).cyc = s.cyc := by unfold State.updHlm; rfl
@[simp] theorem State.updHlm_axes (f : Hlm → Hlm) : (s.updHlm f).axes = s.axes := by unfold State.updHlm; rfl
@[simp] theorem State.updHlm_axm (f : Hlm → Hlm) : (s.updHlm f).axm = s.axm := by unfold State.updHlm; rfl
@[simp] theorem State.updHlm_eiu (f : Hlm → Hlm) : (s.updHlm f).eiu = s.eiu := by unfold State.updHlm; rfl
@[simp] theorem State.updHlm_dio (f : Hlm → Hlm) : (s.updHlm f).dio = s.dio := by unfold State.updHlm; rfl
@[simp] theorem State.updHlm_lau (f : Hlm → Hlm) : (s.updHlm f).lau = s.lau := by unfold State.updHlm; rfl
@[simp] theorem State.updHlm_vms (f : Hlm → Hlm) : (s.updHlm f).vms = s.vms := by unfold State.updHlm; rfl
@[simp] theorem State.updHlm_cea (f : Hlm → Hlm) : (s.updHlm f).cea = s.cea := by unfold State.updHlm; rfl
@[simp] theorem State.updHlm_slc (f : Hlm → Hlm) : (s.updHlm f).slc = s.slc := by unfold State.updHlm; rfl
@[simp] theorem State.updHlm_fbr (f : Hlm → Hlm) : (s.updHlm f).fbr = s.fbr := by unfold State.updHlm; rfl
@[simp] theorem State.updHlm_twu (f : Hlm → Hlm) : (s.updHlm f).twu = s.twu := by unfold State.updHlm; rfl
@[simp] theorem State.updHlm_sfi (f : Hlm → Hlm) : (s.updHlm f).sfi = s.sfi := by unfold State.updHlm; rfl
@[simp] theorem State.updHlm_mbx (f : Hlm → Hlm) : (s.updHlm f).mbx = s.mbx := by unfold State.updHlm; rfl
@[simp] theorem State.updHlm_evr (f : Hlm → Hlm) : (s.updHlm f).evr = s.evr := by unfold State.updHlm; rfl
@[simp] theorem State.updHlm_pcie (f : Hlm → Hlm) : (s.updHlm f).pcie = s.pcie := by unfold State.updHlm; rfl
@[simp] theorem State.updHlm_wks (f : Hlm → Hlm) : (s.updHlm f).wks = s.wks := by unfold State.updHlm; rfl
@[simp] theorem State.updHlm_cap (f : Hlm → Hlm) : (s.updHlm f).cap = s.cap := by unfold State.updHlm; rfl
@[simp] theorem State.updHlm_elg (f : Hlm → Hlm) : (s.updHlm f).elg = s.elg := by unfold State.updHlm; rfl
@[simp] theorem State.updHlm_hlm (f : Hlm → Hlm) : (s.updHlm f).hlm = f s.hlm := rfl

/-! `State.updSfi` -/

@[simp] theorem State.updSfi_pending (f : Sfi → Sfi) : (s.updSfi f).pending = s.pending := by unfold State.updSfi; rfl
@[simp] theorem State.updSfi_freeCtr (f : Sfi → Sfi) : (s.updSfi f).freeCtr = s.freeCtr := by unfold State.updSfi; rfl
@[simp] theorem State.updSfi_wire (f : Sfi → Sfi) : (s.updSfi f).wire = s.wire := by unfold State.updSfi; rfl
@[simp] theorem State.updSfi_clk (f : Sfi → Sfi) : (s.updSfi f).clk = s.clk := by unfold State.updSfi; rfl
@[simp] theorem State.updSfi_ft (f : Sfi → Sfi) : (s.updSfi f).ft = s.ft := by unfold State.updSfi; rfl
@[simp] theorem State.updSfi_regs (f : Sfi → Sfi) : (s.updSfi f).regs = s.regs := by unfold State.updSfi; rfl
@[simp] theorem State.updSfi_dram (f : Sfi → Sfi) : (s.updSfi f).dram = s.dram := by unfold State.updSfi; rfl
@[simp] theorem State.updSfi_gens (f : Sfi → Sfi) : (s.updSfi f).gens = s.gens := by unfold State.updSfi; rfl
@[simp] theorem State.updSfi_sigs (f : Sfi → Sfi) : (s.updSfi f).sigs = s.sigs := by unfold State.updSfi; rfl
@[simp] theorem State.updSfi_sigPrev (f : Sfi → Sfi) : (s.updSfi f).sigPrev = s.sigPrev := by unfold State.updSfi; rfl
@[simp] theorem State.updSfi_remote (f : Sfi → Sfi) : (s.updSfi f).remote = s.remote := by unfold State.updSfi; rfl
@[simp] theorem State.updSfi_remotePrev (f : Sfi → Sfi) : (s.updSfi f).remotePrev = s.remotePrev := by unfold State.updSfi; rfl
@[simp] theorem State.updSfi_fuses (f : Sfi → Sfi) : (s.updSfi f).fuses = s.fuses := by unfold State.updSfi; rfl
@[simp] theorem State.updSfi_glb (f : Sfi → Sfi) : (s.updSfi f).glb = s.glb := by unfold State.updSfi; rfl
@[simp] theorem State.updSfi_pem (f : Sfi → Sfi) : (s.updSfi f).pem = s.pem := by unfold State.updSfi; rfl
@[simp] theorem State.updSfi_lcu (f : Sfi → Sfi) : (s.updSfi f).lcu = s.lcu := by unfold State.updSfi; rfl
@[simp] theorem State.updSfi_cfl (f : Sfi → Sfi) : (s.updSfi f).cfl = s.cfl := by unfold State.updSfi; rfl
@[simp] theorem State.updSfi_tbu (f : Sfi → Sfi) : (s.updSfi f).tbu = s.tbu := by unfold State.updSfi; rfl
@[simp] theorem State.updSfi_cyc (f : Sfi → Sfi) : (s.updSfi f).cyc = s.cyc := by unfold State.updSfi; rfl
@[simp] theorem State.updSfi_axes (f : Sfi → Sfi) : (s.updSfi f).axes = s.axes := by unfold State.updSfi; rfl
@[simp] theorem State.updSfi_axm (f : Sfi → Sfi) : (s.updSfi f).axm = s.axm := by unfold State.updSfi; rfl
@[simp] theorem State.updSfi_eiu (f : Sfi → Sfi) : (s.updSfi f).eiu = s.eiu := by unfold State.updSfi; rfl
@[simp] theorem State.updSfi_dio (f : Sfi → Sfi) : (s.updSfi f).dio = s.dio := by unfold State.updSfi; rfl
@[simp] theorem State.updSfi_lau (f : Sfi → Sfi) : (s.updSfi f).lau = s.lau := by unfold State.updSfi; rfl
@[simp] theorem State.updSfi_vms (f : Sfi → Sfi) : (s.updSfi f).vms = s.vms := by unfold State.updSfi; rfl
@[simp] theorem State.updSfi_cea (f : Sfi → Sfi) : (s.updSfi f).cea = s.cea := by unfold State.updSfi; rfl
@[simp] theorem State.updSfi_slc (f : Sfi → Sfi) : (s.updSfi f).slc = s.slc := by unfold State.updSfi; rfl
@[simp] theorem State.updSfi_fbr (f : Sfi → Sfi) : (s.updSfi f).fbr = s.fbr := by unfold State.updSfi; rfl
@[simp] theorem State.updSfi_twu (f : Sfi → Sfi) : (s.updSfi f).twu = s.twu := by unfold State.updSfi; rfl
@[simp] theorem State.updSfi_sfi (f : Sfi → Sfi) : (s.updSfi f).sfi = f s.sfi := rfl
@[simp] theorem State.updSfi_mbx (f : Sfi → Sfi) : (s.updSfi f).mbx = s.mbx := by unfold State.updSfi; rfl
@[simp] theorem State.updSfi_evr (f : Sfi → Sfi) : (s.updSfi f).evr = s.evr := by unfold State.updSfi; rfl
@[simp] theorem State.updSfi_pcie (f : Sfi → Sfi) : (s.updSfi f).pcie = s.pcie := by unfold State.updSfi; rfl
@[simp] theorem State.updSfi_wks (f : Sfi → Sfi) : (s.updSfi f).wks = s.wks := by unfold State.updSfi; rfl
@[simp] theorem State.updSfi_cap (f : Sfi → Sfi) : (s.updSfi f).cap = s.cap := by unfold State.updSfi; rfl
@[simp] theorem State.updSfi_elg (f : Sfi → Sfi) : (s.updSfi f).elg = s.elg := by unfold State.updSfi; rfl
@[simp] theorem State.updSfi_hlm (f : Sfi → Sfi) : (s.updSfi f).hlm = s.hlm := by unfold State.updSfi; rfl

/-! `State.updPem` -/

@[simp] theorem State.updPem_pending (f : Pem → Pem) : (s.updPem f).pending = s.pending := by unfold State.updPem; rfl
@[simp] theorem State.updPem_freeCtr (f : Pem → Pem) : (s.updPem f).freeCtr = s.freeCtr := by unfold State.updPem; rfl
@[simp] theorem State.updPem_wire (f : Pem → Pem) : (s.updPem f).wire = s.wire := by unfold State.updPem; rfl
@[simp] theorem State.updPem_clk (f : Pem → Pem) : (s.updPem f).clk = s.clk := by unfold State.updPem; rfl
@[simp] theorem State.updPem_ft (f : Pem → Pem) : (s.updPem f).ft = s.ft := by unfold State.updPem; rfl
@[simp] theorem State.updPem_regs (f : Pem → Pem) : (s.updPem f).regs = s.regs := by unfold State.updPem; rfl
@[simp] theorem State.updPem_dram (f : Pem → Pem) : (s.updPem f).dram = s.dram := by unfold State.updPem; rfl
@[simp] theorem State.updPem_gens (f : Pem → Pem) : (s.updPem f).gens = s.gens := by unfold State.updPem; rfl
@[simp] theorem State.updPem_sigs (f : Pem → Pem) : (s.updPem f).sigs = s.sigs := by unfold State.updPem; rfl
@[simp] theorem State.updPem_sigPrev (f : Pem → Pem) : (s.updPem f).sigPrev = s.sigPrev := by unfold State.updPem; rfl
@[simp] theorem State.updPem_remote (f : Pem → Pem) : (s.updPem f).remote = s.remote := by unfold State.updPem; rfl
@[simp] theorem State.updPem_remotePrev (f : Pem → Pem) : (s.updPem f).remotePrev = s.remotePrev := by unfold State.updPem; rfl
@[simp] theorem State.updPem_fuses (f : Pem → Pem) : (s.updPem f).fuses = s.fuses := by unfold State.updPem; rfl
@[simp] theorem State.updPem_glb (f : Pem → Pem) : (s.updPem f).glb = s.glb := by unfold State.updPem; rfl
@[simp] theorem State.updPem_pem (f : Pem → Pem) : (s.updPem f).pem = f s.pem := rfl
@[simp] theorem State.updPem_lcu (f : Pem → Pem) : (s.updPem f).lcu = s.lcu := by unfold State.updPem; rfl
@[simp] theorem State.updPem_cfl (f : Pem → Pem) : (s.updPem f).cfl = s.cfl := by unfold State.updPem; rfl
@[simp] theorem State.updPem_tbu (f : Pem → Pem) : (s.updPem f).tbu = s.tbu := by unfold State.updPem; rfl
@[simp] theorem State.updPem_cyc (f : Pem → Pem) : (s.updPem f).cyc = s.cyc := by unfold State.updPem; rfl
@[simp] theorem State.updPem_axes (f : Pem → Pem) : (s.updPem f).axes = s.axes := by unfold State.updPem; rfl
@[simp] theorem State.updPem_axm (f : Pem → Pem) : (s.updPem f).axm = s.axm := by unfold State.updPem; rfl
@[simp] theorem State.updPem_eiu (f : Pem → Pem) : (s.updPem f).eiu = s.eiu := by unfold State.updPem; rfl
@[simp] theorem State.updPem_dio (f : Pem → Pem) : (s.updPem f).dio = s.dio := by unfold State.updPem; rfl
@[simp] theorem State.updPem_lau (f : Pem → Pem) : (s.updPem f).lau = s.lau := by unfold State.updPem; rfl
@[simp] theorem State.updPem_vms (f : Pem → Pem) : (s.updPem f).vms = s.vms := by unfold State.updPem; rfl
@[simp] theorem State.updPem_cea (f : Pem → Pem) : (s.updPem f).cea = s.cea := by unfold State.updPem; rfl
@[simp] theorem State.updPem_slc (f : Pem → Pem) : (s.updPem f).slc = s.slc := by unfold State.updPem; rfl
@[simp] theorem State.updPem_fbr (f : Pem → Pem) : (s.updPem f).fbr = s.fbr := by unfold State.updPem; rfl
@[simp] theorem State.updPem_twu (f : Pem → Pem) : (s.updPem f).twu = s.twu := by unfold State.updPem; rfl
@[simp] theorem State.updPem_sfi (f : Pem → Pem) : (s.updPem f).sfi = s.sfi := by unfold State.updPem; rfl
@[simp] theorem State.updPem_mbx (f : Pem → Pem) : (s.updPem f).mbx = s.mbx := by unfold State.updPem; rfl
@[simp] theorem State.updPem_evr (f : Pem → Pem) : (s.updPem f).evr = s.evr := by unfold State.updPem; rfl
@[simp] theorem State.updPem_pcie (f : Pem → Pem) : (s.updPem f).pcie = s.pcie := by unfold State.updPem; rfl
@[simp] theorem State.updPem_wks (f : Pem → Pem) : (s.updPem f).wks = s.wks := by unfold State.updPem; rfl
@[simp] theorem State.updPem_cap (f : Pem → Pem) : (s.updPem f).cap = s.cap := by unfold State.updPem; rfl
@[simp] theorem State.updPem_elg (f : Pem → Pem) : (s.updPem f).elg = s.elg := by unfold State.updPem; rfl
@[simp] theorem State.updPem_hlm (f : Pem → Pem) : (s.updPem f).hlm = s.hlm := by unfold State.updPem; rfl

/-! `State.putHold` -/

@[simp] theorem State.putHold_pending (k : Nat) (v : Word) : (s.putHold k v).pending = s.pending := by unfold State.putHold; rfl
@[simp] theorem State.putHold_freeCtr (k : Nat) (v : Word) : (s.putHold k v).freeCtr = s.freeCtr := by unfold State.putHold; rfl
@[simp] theorem State.putHold_wire (k : Nat) (v : Word) : (s.putHold k v).wire = s.wire := by unfold State.putHold; rfl
@[simp] theorem State.putHold_clk (k : Nat) (v : Word) : (s.putHold k v).clk = s.clk := by unfold State.putHold; rfl
@[simp] theorem State.putHold_ft (k : Nat) (v : Word) : (s.putHold k v).ft = s.ft := by unfold State.putHold; rfl
@[simp] theorem State.putHold_regs (k : Nat) (v : Word) : (s.putHold k v).regs = s.regs := by unfold State.putHold; rfl
@[simp] theorem State.putHold_dram (k : Nat) (v : Word) : (s.putHold k v).dram = s.dram := by unfold State.putHold; rfl
@[simp] theorem State.putHold_gens (k : Nat) (v : Word) : (s.putHold k v).gens = s.gens := by unfold State.putHold; rfl
@[simp] theorem State.putHold_sigs (k : Nat) (v : Word) : (s.putHold k v).sigs = s.sigs := by unfold State.putHold; rfl
@[simp] theorem State.putHold_sigPrev (k : Nat) (v : Word) : (s.putHold k v).sigPrev = s.sigPrev := by unfold State.putHold; rfl
@[simp] theorem State.putHold_remote (k : Nat) (v : Word) : (s.putHold k v).remote = s.remote := by unfold State.putHold; rfl
@[simp] theorem State.putHold_remotePrev (k : Nat) (v : Word) : (s.putHold k v).remotePrev = s.remotePrev := by unfold State.putHold; rfl
@[simp] theorem State.putHold_fuses (k : Nat) (v : Word) : (s.putHold k v).fuses = s.fuses := by unfold State.putHold; rfl
@[simp] theorem State.putHold_glb (k : Nat) (v : Word) : (s.putHold k v).glb = { s.glb with hold := Tab.set 0 s.glb.hold k v } := rfl
@[simp] theorem State.putHold_pem (k : Nat) (v : Word) : (s.putHold k v).pem = s.pem := by unfold State.putHold; rfl
@[simp] theorem State.putHold_lcu (k : Nat) (v : Word) : (s.putHold k v).lcu = s.lcu := by unfold State.putHold; rfl
@[simp] theorem State.putHold_cfl (k : Nat) (v : Word) : (s.putHold k v).cfl = s.cfl := by unfold State.putHold; rfl
@[simp] theorem State.putHold_tbu (k : Nat) (v : Word) : (s.putHold k v).tbu = s.tbu := by unfold State.putHold; rfl
@[simp] theorem State.putHold_cyc (k : Nat) (v : Word) : (s.putHold k v).cyc = s.cyc := by unfold State.putHold; rfl
@[simp] theorem State.putHold_axes (k : Nat) (v : Word) : (s.putHold k v).axes = s.axes := by unfold State.putHold; rfl
@[simp] theorem State.putHold_axm (k : Nat) (v : Word) : (s.putHold k v).axm = s.axm := by unfold State.putHold; rfl
@[simp] theorem State.putHold_eiu (k : Nat) (v : Word) : (s.putHold k v).eiu = s.eiu := by unfold State.putHold; rfl
@[simp] theorem State.putHold_dio (k : Nat) (v : Word) : (s.putHold k v).dio = s.dio := by unfold State.putHold; rfl
@[simp] theorem State.putHold_lau (k : Nat) (v : Word) : (s.putHold k v).lau = s.lau := by unfold State.putHold; rfl
@[simp] theorem State.putHold_vms (k : Nat) (v : Word) : (s.putHold k v).vms = s.vms := by unfold State.putHold; rfl
@[simp] theorem State.putHold_cea (k : Nat) (v : Word) : (s.putHold k v).cea = s.cea := by unfold State.putHold; rfl
@[simp] theorem State.putHold_slc (k : Nat) (v : Word) : (s.putHold k v).slc = s.slc := by unfold State.putHold; rfl
@[simp] theorem State.putHold_fbr (k : Nat) (v : Word) : (s.putHold k v).fbr = s.fbr := by unfold State.putHold; rfl
@[simp] theorem State.putHold_twu (k : Nat) (v : Word) : (s.putHold k v).twu = s.twu := by unfold State.putHold; rfl
@[simp] theorem State.putHold_sfi (k : Nat) (v : Word) : (s.putHold k v).sfi = s.sfi := by unfold State.putHold; rfl
@[simp] theorem State.putHold_mbx (k : Nat) (v : Word) : (s.putHold k v).mbx = s.mbx := by unfold State.putHold; rfl
@[simp] theorem State.putHold_evr (k : Nat) (v : Word) : (s.putHold k v).evr = s.evr := by unfold State.putHold; rfl
@[simp] theorem State.putHold_pcie (k : Nat) (v : Word) : (s.putHold k v).pcie = s.pcie := by unfold State.putHold; rfl
@[simp] theorem State.putHold_wks (k : Nat) (v : Word) : (s.putHold k v).wks = s.wks := by unfold State.putHold; rfl
@[simp] theorem State.putHold_cap (k : Nat) (v : Word) : (s.putHold k v).cap = s.cap := by unfold State.putHold; rfl
@[simp] theorem State.putHold_elg (k : Nat) (v : Word) : (s.putHold k v).elg = s.elg := by unfold State.putHold; rfl
@[simp] theorem State.putHold_hlm (k : Nat) (v : Word) : (s.putHold k v).hlm = s.hlm := by unfold State.putHold; rfl

end Sys2Proof.Machine
end

