-- ==== Sys2Proof/Laws/Touches.lean ====
section
/-! SUPPORT. Laws/Touches.lean: what a change of the block touches, as a relation that composes: the frames are stated with the same
words. -/

namespace Sys2Proof.Machine

/-- From `s` to `t` nothing changes but the parts `ps` and the registers `rs`; the register file stays in canonical form. -/
structure Touches (ps : List Part) (rs : List Nat) (s t : State) : Prop where
  queue : t.pending = s.pending
  same  : ∀ p, p ∉ ps → p.same rs s t
  canon : regsWf s.regs = true → regsWf t.regs = true

theorem Touches.refl (ps : List Part) (rs : List Nat) (s : State) : Touches ps rs s s :=
  ⟨rfl, fun p _ => by cases p <;> first | rfl | exact fun _ _ => rfl, id⟩

theorem Part.same_trans {rs : List Nat} {s t u : State} {p : Part} (h1 : p.same rs s t) (h2 : p.same rs t u) :
    p.same rs s u := by
  cases p
  case regs => exact fun a ha => (h2 a ha).trans (h1 a ha)
  all_goals exact Eq.trans h2 h1

theorem Touches.trans {ps : List Part} {rs : List Nat} {s t u : State} (h1 : Touches ps rs s t) (h2 : Touches ps rs t u) :
    Touches ps rs s u :=
  ⟨h2.queue.trans h1.queue, fun p hp => Part.same_trans (h1.same p hp) (h2.same p hp), h2.canon ∘ h1.canon⟩

theorem Part.same_mono {rs rs' : List Nat} {s t : State} {p : Part} (h : ∀ a ∈ rs, a ∈ rs') (h1 : p.same rs s t) :
    p.same rs' s t := by
  cases p
  case regs => exact fun a ha => h1 a (fun hm => ha (h a hm))
  all_goals exact h1

theorem Touches.mono {ps ps' : List Part} {rs rs' : List Nat} {s t : State} (h : Touches ps rs s t)
    (hp : ∀ p ∈ ps, p ∈ ps') (hr : ∀ a ∈ rs, a ∈ rs') : Touches ps' rs' s t :=
  ⟨h.queue, fun p hn => Part.same_mono hr (h.same p (fun hm => hn (hp p hm))), h.canon⟩

/-- A frame is the same relation between the states before and after. -/
theorem frame_of_touches {c : Instr} {ps : List Part} {rs : List Nat}
    (h : ∀ s t, exec c s = .next t → Touches ps rs s t) : Frame c ps rs :=
  fun s t he => ⟨(h s t he).queue, (h s t he).same⟩

/-- A fold touches what each of its steps touches. -/
theorem Touches.foldl {α : Type} {ps : List Part} {rs : List Nat} {f : State → α → State} (h : ∀ s x, Touches ps rs s (f s x))
    (l : List α) (s : State) : Touches ps rs s (l.foldl f s) := by
  induction l generalizing s with
  | nil => exact .refl ps rs s
  | cons x t ih => exact (h s x).trans (ih (f s x))

theorem Touches.forAll {α : Type} {ps : List Part} {rs : List Nat} {f : α → State → State} (h : ∀ x s, Touches ps rs s (f x s))
    (l : List α) (s : State) : Touches ps rs s (Machine.forAll l f s) := Touches.foldl (fun s x => h x s) l s

theorem touches_wr {rs : List Nat} (s : State) {a : Nat} (v : Word) (h : a ∈ rs) : Touches [] rs s (s.wr a v) := by
  refine ⟨State.wr_pending .., fun p _ => ?_, State.wr_wf s a v⟩
  cases p
  case regs => exact fun b hb => State.rd_wr_ne s v (fun e => hb (e ▸ h))
  case freeCtr => exact State.wr_freeCtr ..
  case wire => exact State.wr_wire ..
  case clk => exact State.wr_clk ..
  case ft => exact State.wr_ft ..
  case dram => exact State.wr_dram ..
  case gens => exact State.wr_gens ..
  case sigs => exact State.wr_sigs ..
  case sigPrev => exact State.wr_sigPrev ..
  case remote => exact State.wr_remote ..
  case remotePrev => exact State.wr_remotePrev ..
  case fuses => exact State.wr_fuses ..
  case glb => exact State.wr_glb ..
  case pem => exact State.wr_pem ..
  case lcu => exact State.wr_lcu ..
  case cfl => exact State.wr_cfl ..
  case tbu => exact State.wr_tbu ..
  case cyc => exact State.wr_cyc ..
  case axes => exact State.wr_axes ..
  case axm => exact State.wr_axm ..
  case eiu => exact State.wr_eiu ..
  case dio => exact State.wr_dio ..
  case lau => exact State.wr_lau ..
  case vms => exact State.wr_vms ..
  case cea => exact State.wr_cea ..
  case slc => exact State.wr_slc ..
  case fbr => exact State.wr_fbr ..
  case twu => exact State.wr_twu ..
  case sfi => exact State.wr_sfi ..
  case mbx => exact State.wr_mbx ..
  case evr => exact State.wr_evr ..
  case pcie => exact State.wr_pcie ..
  case wks => exact State.wr_wks ..
  case cap => exact State.wr_cap ..
  case elg => exact State.wr_elg ..
  case hlm => exact State.wr_hlm ..

theorem touches_wrFld {rs : List Nat} (s : State) {a : Nat} (hi lo v : Nat) (h : a ∈ rs) : Touches [] rs s (s.wrFld a hi lo v) :=
  touches_wr s _ h

theorem touches_wrBit {rs : List Nat} (s : State) {a : Nat} (i : Nat) (b : Bool) (h : a ∈ rs) : Touches [] rs s (s.wrBit a i b) :=
  touches_wr s _ h

theorem touches_countBy {rs : List Nat} (s : State) {a : Nat} (n : Nat) (h : a ∈ rs) : Touches [] rs s (s.countBy a n) :=
  touches_wr s _ h

theorem touches_count {rs : List Nat} (s : State) {a : Nat} (h : a ∈ rs) : Touches [] rs s (s.count a) := touches_wr s _ h

theorem touches_setMap {rs : List Nat} (s : State) {base i : Nat} (b : Bool) (h : base + 4 * (i / 32) ∈ rs) :
    Touches [] rs s (s.setMap base i b) := touches_wr s _ h

theorem touches_wr64 {rs : List Nat} (s : State) {lo hi : Nat} (v : DWord) (h1 : lo ∈ rs) (h2 : hi ∈ rs) :
    Touches [] rs s (s.wr64 lo hi v) := (touches_wr s _ h1).trans (touches_wr _ _ h2)

/-! A change of one part. -/

theorem touches_freeCtr {rs : List Nat} (s : State) (x) : Touches [.freeCtr] rs s { s with freeCtr := x } :=
  ⟨rfl, fun p hp => by cases p <;> first | exact rfl | exact fun _ _ => rfl | exact absurd (List.mem_singleton.2 rfl) hp, id⟩

theorem touches_wire {rs : List Nat} (s : State) (x) : Touches [.wire] rs s { s with wire := x } :=
  ⟨rfl, fun p hp => by cases p <;> first | exact rfl | exact fun _ _ => rfl | exact absurd (List.mem_singleton.2 rfl) hp, id⟩

theorem touches_clk {rs : List Nat} (s : State) (x) : Touches [.clk] rs s { s with clk := x } :=
  ⟨rfl, fun p hp => by cases p <;> first | exact rfl | exact fun _ _ => rfl | exact absurd (List.mem_singleton.2 rfl) hp, id⟩

theorem touches_ft {rs : List Nat} (s : State) (x) : Touches [.ft] rs s { s with ft := x } :=
  ⟨rfl, fun p hp => by cases p <;> first | exact rfl | exact fun _ _ => rfl | exact absurd (List.mem_singleton.2 rfl) hp, id⟩

theorem touches_dram {rs : List Nat} (s : State) (x) : Touches [.dram] rs s { s with dram := x } :=
  ⟨rfl, fun p hp => by cases p <;> first | exact rfl | exact fun _ _ => rfl | exact absurd (List.mem_singleton.2 rfl) hp, id⟩

theorem touches_gens {rs : List Nat} (s : State) (x) : Touches [.gens] rs s { s with gens := x } :=
  ⟨rfl, fun p hp => by cases p <;> first | exact rfl | exact fun _ _ => rfl | exact absurd (List.mem_singleton.2 rfl) hp, id⟩

theorem touches_sigs {rs : List Nat} (s : State) (x) : Touches [.sigs] rs s { s with sigs := x } :=
  ⟨rfl, fun p hp => by cases p <;> first | exact rfl | exact fun _ _ => rfl | exact absurd (List.mem_singleton.2 rfl) hp, id⟩

theorem touches_sigPrev {rs : List Nat} (s : State) (x) : Touches [.sigPrev] rs s { s with sigPrev := x } :=
  ⟨rfl, fun p hp => by cases p <;> first | exact rfl | exact fun _ _ => rfl | exact absurd (List.mem_singleton.2 rfl) hp, id⟩

theorem touches_remote {rs : List Nat} (s : State) (x) : Touches [.remote] rs s { s with remote := x } :=
  ⟨rfl, fun p hp => by cases p <;> first | exact rfl | exact fun _ _ => rfl | exact absurd (List.mem_singleton.2 rfl) hp, id⟩

theorem touches_remotePrev {rs : List Nat} (s : State) (x) : Touches [.remotePrev] rs s { s with remotePrev := x } :=
  ⟨rfl, fun p hp => by cases p <;> first | exact rfl | exact fun _ _ => rfl | exact absurd (List.mem_singleton.2 rfl) hp, id⟩

theorem touches_fuses {rs : List Nat} (s : State) (x) : Touches [.fuses] rs s { s with fuses := x } :=
  ⟨rfl, fun p hp => by cases p <;> first | exact rfl | exact fun _ _ => rfl | exact absurd (List.mem_singleton.2 rfl) hp, id⟩

theorem touches_glb {rs : List Nat} (s : State) (x) : Touches [.glb] rs s { s with glb := x } :=
  ⟨rfl, fun p hp => by cases p <;> first | exact rfl | exact fun _ _ => rfl | exact absurd (List.mem_singleton.2 rfl) hp, id⟩

theorem touches_pem {rs : List Nat} (s : State) (x) : Touches [.pem] rs s { s with pem := x } :=
  ⟨rfl, fun p hp => by cases p <;> first | exact rfl | exact fun _ _ => rfl | exact absurd (List.mem_singleton.2 rfl) hp, id⟩

theorem touches_lcu {rs : List Nat} (s : State) (x) : Touches [.lcu] rs s { s with lcu := x } :=
  ⟨rfl, fun p hp => by cases p <;> first | exact rfl | exact fun _ _ => rfl | exact absurd (List.mem_singleton.2 rfl) hp, id⟩

theorem touches_cfl {rs : List Nat} (s : State) (x) : Touches [.cfl] rs s { s with cfl := x } :=
  ⟨rfl, fun p hp => by cases p <;> first | exact rfl | exact fun _ _ => rfl | exact absurd (List.mem_singleton.2 rfl) hp, id⟩

theorem touches_tbu {rs : List Nat} (s : State) (x) : Touches [.tbu] rs s { s with tbu := x } :=
  ⟨rfl, fun p hp => by cases p <;> first | exact rfl | exact fun _ _ => rfl | exact absurd (List.mem_singleton.2 rfl) hp, id⟩

theorem touches_cyc {rs : List Nat} (s : State) (x) : Touches [.cyc] rs s { s with cyc := x } :=
  ⟨rfl, fun p hp => by cases p <;> first | exact rfl | exact fun _ _ => rfl | exact absurd (List.mem_singleton.2 rfl) hp, id⟩

theorem touches_axes {rs : List Nat} (s : State) (x) : Touches [.axes] rs s { s with axes := x } :=
  ⟨rfl, fun p hp => by cases p <;> first | exact rfl | exact fun _ _ => rfl | exact absurd (List.mem_singleton.2 rfl) hp, id⟩

theorem touches_axm {rs : List Nat} (s : State) (x) : Touches [.axm] rs s { s with axm := x } :=
  ⟨rfl, fun p hp => by cases p <;> first | exact rfl | exact fun _ _ => rfl | exact absurd (List.mem_singleton.2 rfl) hp, id⟩

theorem touches_eiu {rs : List Nat} (s : State) (x) : Touches [.eiu] rs s { s with eiu := x } :=
  ⟨rfl, fun p hp => by cases p <;> first | exact rfl | exact fun _ _ => rfl | exact absurd (List.mem_singleton.2 rfl) hp, id⟩

theorem touches_dio {rs : List Nat} (s : State) (x) : Touches [.dio] rs s { s with dio := x } :=
  ⟨rfl, fun p hp => by cases p <;> first | exact rfl | exact fun _ _ => rfl | exact absurd (List.mem_singleton.2 rfl) hp, id⟩

theorem touches_lau {rs : List Nat} (s : State) (x) : Touches [.lau] rs s { s with lau := x } :=
  ⟨rfl, fun p hp => by cases p <;> first | exact rfl | exact fun _ _ => rfl | exact absurd (List.mem_singleton.2 rfl) hp, id⟩

theorem touches_vms {rs : List Nat} (s : State) (x) : Touches [.vms] rs s { s with vms := x } :=
  ⟨rfl, fun p hp => by cases p <;> first | exact rfl | exact fun _ _ => rfl | exact absurd (List.mem_singleton.2 rfl) hp, id⟩

theorem touches_cea {rs : List Nat} (s : State) (x) : Touches [.cea] rs s { s with cea := x } :=
  ⟨rfl, fun p hp => by cases p <;> first | exact rfl | exact fun _ _ => rfl | exact absurd (List.mem_singleton.2 rfl) hp, id⟩

theorem touches_slc {rs : List Nat} (s : State) (x) : Touches [.slc] rs s { s with slc := x } :=
  ⟨rfl, fun p hp => by cases p <;> first | exact rfl | exact fun _ _ => rfl | exact absurd (List.mem_singleton.2 rfl) hp, id⟩

theorem touches_fbr {rs : List Nat} (s : State) (x) : Touches [.fbr] rs s { s with fbr := x } :=
  ⟨rfl, fun p hp => by cases p <;> first | exact rfl | exact fun _ _ => rfl | exact absurd (List.mem_singleton.2 rfl) hp, id⟩

theorem touches_twu {rs : List Nat} (s : State) (x) : Touches [.twu] rs s { s with twu := x } :=
  ⟨rfl, fun p hp => by cases p <;> first | exact rfl | exact fun _ _ => rfl | exact absurd (List.mem_singleton.2 rfl) hp, id⟩

theorem touches_sfi {rs : List Nat} (s : State) (x) : Touches [.sfi] rs s { s with sfi := x } :=
  ⟨rfl, fun p hp => by cases p <;> first | exact rfl | exact fun _ _ => rfl | exact absurd (List.mem_singleton.2 rfl) hp, id⟩

theorem touches_mbx {rs : List Nat} (s : State) (x) : Touches [.mbx] rs s { s with mbx := x } :=
  ⟨rfl, fun p hp => by cases p <;> first | exact rfl | exact fun _ _ => rfl | exact absurd (List.mem_singleton.2 rfl) hp, id⟩

theorem touches_evr {rs : List Nat} (s : State) (x) : Touches [.evr] rs s { s with evr := x } :=
  ⟨rfl, fun p hp => by cases p <;> first | exact rfl | exact fun _ _ => rfl | exact absurd (List.mem_singleton.2 rfl) hp, id⟩

theorem touches_pcie {rs : List Nat} (s : State) (x) : Touches [.pcie] rs s { s with pcie := x } :=
  ⟨rfl, fun p hp => by cases p <;> first | exact rfl | exact fun _ _ => rfl | exact absurd (List.mem_singleton.2 rfl) hp, id⟩

theorem touches_wks {rs : List Nat} (s : State) (x) : Touches [.wks] rs s { s with wks := x } :=
  ⟨rfl, fun p hp => by cases p <;> first | exact rfl | exact fun _ _ => rfl | exact absurd (List.mem_singleton.2 rfl) hp, id⟩

theorem touches_cap {rs : List Nat} (s : State) (x) : Touches [.cap] rs s { s with cap := x } :=
  ⟨rfl, fun p hp => by cases p <;> first | exact rfl | exact fun _ _ => rfl | exact absurd (List.mem_singleton.2 rfl) hp, id⟩

theorem touches_elg {rs : List Nat} (s : State) (x) : Touches [.elg] rs s { s with elg := x } :=
  ⟨rfl, fun p hp => by cases p <;> first | exact rfl | exact fun _ _ => rfl | exact absurd (List.mem_singleton.2 rfl) hp, id⟩

theorem touches_hlm {rs : List Nat} (s : State) (x) : Touches [.hlm] rs s { s with hlm := x } :=
  ⟨rfl, fun p hp => by cases p <;> first | exact rfl | exact fun _ _ => rfl | exact absurd (List.mem_singleton.2 rfl) hp, id⟩

end Sys2Proof.Machine
end

