-- ==== Sys2Proof/Laws/Events.lean ====
section
/-! SUPPORT. Laws/Events.lean: what the raising of an event can do, said once: the event router, the captures, the recorder and
their registers, and nothing else. -/

namespace Sys2Proof.Machine

/-- What the raising of an event may touch. -/
abbrev Noted (s t : State) : Prop := Touches [.evr, .cap, .elg] recorderRegs s t

theorem Noted.refl (s : State) : Noted s s := Touches.refl _ _ s

theorem Noted.of_evr (s : State) (x : Evr) : Noted s { s with evr := x } := (touches_evr s x).mono (by simp) (fun _ => id)

theorem Noted.of_elg (s : State) (x : Elg) : Noted s { s with elg := x } := (touches_elg s x).mono (by simp) (fun _ => id)

theorem Noted.of_wr (s : State) {a : Nat} (v : Word) (h : a ∈ recorderRegs) : Noted s (s.wr a v) :=
  (touches_wr s v h).mono (by simp) (fun _ => id)

theorem noted_msixDue (s : State) (v : Nat) : Noted s (s.msixDue v) := by
  unfold State.msixDue
  split
  · exact Noted.of_evr s _
  · exact Noted.of_evr s _

theorem noted_evrUpdate (s : State) : Noted s s.evrUpdate := by
  unfold State.evrUpdate
  exact ((Noted.of_evr s _).trans (Touches.foldl noted_msixDue _ _)).trans (Noted.of_evr _ _)

theorem noted_driveSrc (s : State) (n : Nat) (lvl : Bool) : Noted s (s.driveSrc n lvl).1 := by
  unfold State.driveSrc
  split
  · exact Noted.refl s
  · exact (Noted.of_evr s _).trans (noted_evrUpdate _)

theorem noted_pulseSrc (s : State) (n : Nat) : Noted s (s.pulseSrc n).1 :=
  (noted_driveSrc s n true).trans (noted_driveSrc _ n false)

theorem noted_enqueueEv (s : State) (q : EvReq) : Noted s (s.enqueueEv q) := by
  unfold State.enqueueEv
  dsimp only
  split
  · split
    · exact Noted.of_elg s _
    · exact (Noted.of_elg s _).trans (Noted.of_wr _ _ (by simp [recorderRegs]))
  · split
    · exact Noted.of_elg s _
    · exact Noted.of_wr _ _ (by simp [recorderRegs])

theorem capChStat_recorder {c : Nat} (h : ¬ 32 ≤ c) : Reg.capChStat c ∈ recorderRegs := by
  simp only [recorderRegs, List.mem_append, List.mem_map, List.mem_range]
  exact .inr ⟨c, by omega, rfl⟩

theorem noted_setCapCh (s : State) (c : Nat) (x : CapChan) : Noted s (s.setCapCh c x) := by
  unfold State.setCapCh
  split
  · exact Noted.refl s
  · rename_i h
    exact (((touches_cap s _).mono (by simp) (fun _ => id) : Noted s _).trans (Noted.of_wr _ _ (by simp [recorderRegs]))).trans
      ((Noted.of_wr _ _ (by simp [recorderRegs])).trans (Noted.of_wr _ _ (capChStat_recorder h)))

theorem noted_capTrig1 (s : State) (c : Nat) (grp forced : Bool) (at_ : Nat × Nat) : Noted s (s.capTrig1 c grp forced at_).1 := by
  have missed : Noted s (s.count Reg.capMissedCnt) := Noted.of_wr _ _ (by simp [recorderRegs])
  unfold State.capTrig1
  dsimp only
  split
  · split
    · exact missed
    · exact noted_setCapCh ..
  · exact missed
  · split
    · exact missed
    · exact Noted.refl s
  · exact Noted.refl s

theorem noted_capTrigger (f : Nat) (l : List (Nat × Bool)) (at_ : Nat × Nat) (s : State) : Noted s (State.capTrigger f l at_ s).1 := by
  induction f generalizing l s with
  | zero => exact Noted.refl s
  | succ f ih =>
    cases l with
    | nil => exact Noted.refl s
    | cons c t => exact (noted_capTrig1 s c.1 c.2 false at_).trans (ih _ _)

theorem noted_raiseAll (f : Nat) (l : List EvReq) (s : State) : Noted s (State.raiseAll f l s) := by
  induction f generalizing l s with
  | zero => exact Noted.refl s
  | succ f ih =>
    cases l with
    | nil => exact Noted.refl s
    | cons q t =>
      unfold State.raiseAll
      refine ((noted_enqueueEv s q).trans ?_).trans ((noted_capTrigger _ _ _ _).trans (ih _ _))
      split
      · exact noted_pulseSrc ..
      · exact Noted.refl _

/-- Raising an event touches the event router, the captures and the recorder, and nothing else. -/
theorem noted_event (s : State) (code : Nat) (args : List EvArg) : Noted s (s.event code args) := noted_raiseAll ..

theorem noted_eventAt (s : State) (code : Nat) (args : List EvArg) (co : Nat) : Noted s (s.eventAt code args co) :=
  noted_raiseAll ..

theorem noted_tick (s : State) (n : Nat) : Noted s (s.tick n) := by
  unfold State.tick
  dsimp only
  split
  · exact (noted_pulseSrc s n).trans (noted_event ..)
  · exact noted_pulseSrc s n

theorem noted_level (s : State) (n : Nat) (lvl : Bool) : Noted s (s.level n lvl) := by
  unfold State.level
  dsimp only
  split
  · exact (noted_driveSrc s n lvl).trans (noted_event ..)
  · exact noted_driveSrc s n lvl

theorem noted_trigger (s : State) (cs : List Nat) (at_ : Nat × Nat) : Noted s (s.trigger cs at_) :=
  (noted_capTrigger ..).trans (noted_raiseAll ..)

/-! The fields that an event leaves alone. -/

@[simp] theorem State.event_pending (s : State) (code : Nat) (args : List EvArg) : (s.event code args).pending = s.pending :=
  (noted_event s code args).queue

@[simp] theorem State.event_freeCtr (s : State) (code : Nat) (args : List EvArg) : (s.event code args).freeCtr = s.freeCtr :=
  (noted_event s code args).same .freeCtr (by simp)

@[simp] theorem State.event_wire (s : State) (code : Nat) (args : List EvArg) : (s.event code args).wire = s.wire :=
  (noted_event s code args).same .wire (by simp)

@[simp] theorem State.event_clk (s : State) (code : Nat) (args : List EvArg) : (s.event code args).clk = s.clk :=
  (noted_event s code args).same .clk (by simp)

@[simp] theorem State.event_ft (s : State) (code : Nat) (args : List EvArg) : (s.event code args).ft = s.ft :=
  (noted_event s code args).same .ft (by simp)

@[simp] theorem State.event_dram (s : State) (code : Nat) (args : List EvArg) : (s.event code args).dram = s.dram :=
  (noted_event s code args).same .dram (by simp)

@[simp] theorem State.event_gens (s : State) (code : Nat) (args : List EvArg) : (s.event code args).gens = s.gens :=
  (noted_event s code args).same .gens (by simp)

@[simp] theorem State.event_sigs (s : State) (code : Nat) (args : List EvArg) : (s.event code args).sigs = s.sigs :=
  (noted_event s code args).same .sigs (by simp)

@[simp] theorem State.event_sigPrev (s : State) (code : Nat) (args : List EvArg) : (s.event code args).sigPrev = s.sigPrev :=
  (noted_event s code args).same .sigPrev (by simp)

@[simp] theorem State.event_remote (s : State) (code : Nat) (args : List EvArg) : (s.event code args).remote = s.remote :=
  (noted_event s code args).same .remote (by simp)

@[simp] theorem State.event_remotePrev (s : State) (code : Nat) (args : List EvArg) : (s.event code args).remotePrev = s.remotePrev :=
  (noted_event s code args).same .remotePrev (by simp)

@[simp] theorem State.event_fuses (s : State) (code : Nat) (args : List EvArg) : (s.event code args).fuses = s.fuses :=
  (noted_event s code args).same .fuses (by simp)

@[simp] theorem State.event_glb (s : State) (code : Nat) (args : List EvArg) : (s.event code args).glb = s.glb :=
  (noted_event s code args).same .glb (by simp)

@[simp] theorem State.event_pem (s : State) (code : Nat) (args : List EvArg) : (s.event code args).pem = s.pem :=
  (noted_event s code args).same .pem (by simp)

@[simp] theorem State.event_lcu (s : State) (code : Nat) (args : List EvArg) : (s.event code args).lcu = s.lcu :=
  (noted_event s code args).same .lcu (by simp)

@[simp] theorem State.event_cfl (s : State) (code : Nat) (args : List EvArg) : (s.event code args).cfl = s.cfl :=
  (noted_event s code args).same .cfl (by simp)

@[simp] theorem State.event_tbu (s : State) (code : Nat) (args : List EvArg) : (s.event code args).tbu = s.tbu :=
  (noted_event s code args).same .tbu (by simp)

@[simp] theorem State.event_cyc (s : State) (code : Nat) (args : List EvArg) : (s.event code args).cyc = s.cyc :=
  (noted_event s code args).same .cyc (by simp)

@[simp] theorem State.event_axes (s : State) (code : Nat) (args : List EvArg) : (s.event code args).axes = s.axes :=
  (noted_event s code args).same .axes (by simp)

@[simp] theorem State.event_axm (s : State) (code : Nat) (args : List EvArg) : (s.event code args).axm = s.axm :=
  (noted_event s code args).same .axm (by simp)

@[simp] theorem State.event_eiu (s : State) (code : Nat) (args : List EvArg) : (s.event code args).eiu = s.eiu :=
  (noted_event s code args).same .eiu (by simp)

@[simp] theorem State.event_dio (s : State) (code : Nat) (args : List EvArg) : (s.event code args).dio = s.dio :=
  (noted_event s code args).same .dio (by simp)

@[simp] theorem State.event_lau (s : State) (code : Nat) (args : List EvArg) : (s.event code args).lau = s.lau :=
  (noted_event s code args).same .lau (by simp)

@[simp] theorem State.event_vms (s : State) (code : Nat) (args : List EvArg) : (s.event code args).vms = s.vms :=
  (noted_event s code args).same .vms (by simp)

@[simp] theorem State.event_cea (s : State) (code : Nat) (args : List EvArg) : (s.event code args).cea = s.cea :=
  (noted_event s code args).same .cea (by simp)

@[simp] theorem State.event_slc (s : State) (code : Nat) (args : List EvArg) : (s.event code args).slc = s.slc :=
  (noted_event s code args).same .slc (by simp)

@[simp] theorem State.event_fbr (s : State) (code : Nat) (args : List EvArg) : (s.event code args).fbr = s.fbr :=
  (noted_event s code args).same .fbr (by simp)

@[simp] theorem State.event_twu (s : State) (code : Nat) (args : List EvArg) : (s.event code args).twu = s.twu :=
  (noted_event s code args).same .twu (by simp)

@[simp] theorem State.event_sfi (s : State) (code : Nat) (args : List EvArg) : (s.event code args).sfi = s.sfi :=
  (noted_event s code args).same .sfi (by simp)

@[simp] theorem State.event_mbx (s : State) (code : Nat) (args : List EvArg) : (s.event code args).mbx = s.mbx :=
  (noted_event s code args).same .mbx (by simp)

@[simp] theorem State.event_pcie (s : State) (code : Nat) (args : List EvArg) : (s.event code args).pcie = s.pcie :=
  (noted_event s code args).same .pcie (by simp)

@[simp] theorem State.event_wks (s : State) (code : Nat) (args : List EvArg) : (s.event code args).wks = s.wks :=
  (noted_event s code args).same .wks (by simp)

@[simp] theorem State.event_hlm (s : State) (code : Nat) (args : List EvArg) : (s.event code args).hlm = s.hlm :=
  (noted_event s code args).same .hlm (by simp)

theorem State.rd_event (s : State) (code : Nat) (args : List EvArg) {a : Nat} (h : a ∉ recorderRegs) :
    (s.event code args).rd a = s.rd a := (noted_event s code args).same .regs (by simp) a h

/-- An event keeps DRAM and the register file canonical. -/
theorem State.event_wf (s : State) (code : Nat) (args : List EvArg) (h : s.wf) : (s.event code args).wf :=
  ⟨by rw [State.event_dram]; exact h.1, (noted_event s code args).canon h.2⟩

end Sys2Proof.Machine
end

