-- ==== Sys2Proof/Laws/Control.lean ====
section
/-! SUPPORT. Laws/Control.lean: what the shared operations of the controller state, of ACT, of error injection and of an axis can
touch, one lemma each. -/

namespace Sys2Proof.Machine

theorem hlmStatus_inj : Reg.hlmStatus ∈ injRegs := by simp [injRegs]

theorem injCtrl_inj {i : Nat} (h : i < 8) : Reg.hlmInjCtrl i ∈ injRegs := by
  simp only [injRegs, List.mem_cons, List.mem_flatMap, List.mem_range]
  exact .inr ⟨i, h, by simp⟩

theorem injHits_inj {i : Nat} (h : i < 8) : Reg.hlmInjHits i ∈ injRegs := by
  simp only [injRegs, List.mem_cons, List.mem_flatMap, List.mem_range]
  exact .inr ⟨i, h, by simp⟩

theorem touches_injDisarm (s : State) {i : Nat} (h : i < 8) (r : Option Nat) : Touches [.hlm] injRegs s (s.injDisarm i r) := by
  have w : ∀ (u : State) (v : Word) {a : Nat}, a ∈ injRegs → Touches [.hlm] injRegs u (u.wr a v) :=
    fun u v _ ha => (touches_wr u v ha).mono (by simp) (fun _ => id)
  unfold State.injDisarm
  cases r with
  | none => exact (touches_hlm s _).trans ((w _ _ (injCtrl_inj h)).trans (w _ _ hlmStatus_inj))
  | some r => exact (touches_hlm s _).trans ((w _ _ (injCtrl_inj h)).trans ((w _ _ hlmStatus_inj).trans (w _ _ (injCtrl_inj h))))

/-- What an injection may touch: the injection slots, and what the event it raises may touch. -/
abbrev Injected (s t : State) : Prop := Touches [.hlm, .evr, .cap, .elg] (injRegs ++ recorderRegs) s t

theorem Injected.of_noted {s t : State} (h : Noted s t) : Injected s t :=
  h.mono (by simp) (fun _ ha => List.mem_append_right _ ha)

theorem Injected.of_hlm {s t : State} (h : Touches [.hlm] injRegs s t) : Injected s t :=
  h.mono (by simp) (fun _ ha => List.mem_append_left _ ha)

theorem injected_injSlot (s : State) (det unit : Nat) {i : Nat} (h : i < 8) : Injected s (s.injSlot det unit i).2 := by
  unfold State.injSlot
  dsimp only
  split
  · exact Injected.of_hlm (touches_hlm s _)
  · refine Touches.trans ?_ (Injected.of_noted (noted_event ..))
    refine Touches.trans ?_ (Injected.of_hlm ((touches_count _ (injHits_inj h)).mono (by simp) (fun _ => id)))
    split
    · exact Injected.of_hlm ((touches_hlm s _).trans (touches_injDisarm _ h none))
    · exact Injected.of_hlm (touches_hlm s _)

theorem injected_inject (s : State) (det unit : Nat) : Injected s (s.inject det unit).2 := by
  have key : ∀ (l : List Nat) (acc : Bool × State), (∀ i ∈ l, i < 8) →
      Injected acc.2 (l.foldl (fun acc i =>
        let r := acc.2.injSlot det unit i
        (acc.1 || r.1, r.2)) acc).2 := by
    intro l
    induction l with
    | nil => exact fun acc _ => .refl ..
    | cons i t ih =>
      intro acc hl
      rw [List.foldl_cons]
      exact (injected_injSlot acc.2 det unit (hl i (by simp))).trans
        (ih (acc.1 || (acc.2.injSlot det unit i).1, (acc.2.injSlot det unit i).2) (fun j hj => hl j (List.mem_cons_of_mem _ hj)))
  exact key _ (false, s) (fun i hi => List.mem_range.1 (List.mem_filter.1 hi).1)

/-- With no slot armed for a detector, an operation is not made to fail and nothing changes. -/
theorem inject_of_unarmed (s : State) (det unit : Nat) (h : s.injSlots det unit = []) : s.inject det unit = (false, s) := by
  unfold State.inject; rw [h]; rfl

theorem touches_injRecheck (s : State) : Touches [.hlm] injRegs s s.injRecheck := by
  have key : ∀ (l : List Nat) (u : State), (∀ i ∈ l, i < 8) → Touches [.hlm] injRegs u (l.foldl (fun st i =>
      if (Tab.get {} st.hlm.injs i).armed &&
          !detAllowed st.glb.st (st.rdFld (Reg.hlmInjCtrl i) 7 0) (st.rdFld (Reg.hlmInjCtrl i) 23 16)
      then st.injDisarm i (some 2) else st) u) := by
    intro l
    induction l with
    | nil => exact fun u _ => .refl ..
    | cons i t ih =>
      intro u hl
      rw [List.foldl_cons]
      refine Touches.trans ?_ (ih _ (fun j hj => hl j (List.mem_cons_of_mem _ hj)))
      split
      · exact touches_injDisarm u (hl i (by simp)) _
      · exact .refl ..
  exact key _ s (fun i hi => List.mem_range.1 hi)

/-- What a change of the controller state may touch. -/
abbrev Steered (s t : State) : Prop := Touches [.glb, .hlm, .evr, .cap, .elg] (injRegs ++ recorderRegs) s t

theorem Steered.of_injected {s t : State} (h : Injected s t) : Steered s t :=
  h.mono (fun _ hp => List.mem_cons_of_mem _ hp) (fun _ => id)

theorem steered_setCtl (s : State) (st : CtlSt) (cause : Nat) : Steered s (s.setCtl st cause) := by
  unfold State.setCtl
  split
  · exact .refl ..
  · exact Touches.trans ((touches_glb s _).mono (by simp) (fun _ => id))
      (Steered.of_injected ((Injected.of_noted (noted_event ..)).trans (Injected.of_hlm (touches_injRecheck _))))

theorem touches_setRole (s : State) (r : Role) (cause : Nat) :
    Touches [.glb, .evr, .cap, .elg] recorderRegs s (s.setRole r cause) := by
  unfold State.setRole
  split
  · exact .refl ..
  · exact Touches.trans ((touches_glb s _).mono (by simp) (fun _ => id)) ((noted_event ..).mono (by simp) (fun _ => id))

theorem touches_setAct (s : State) (lvl : Bool) : Touches [.twu, .wire] [] s (s.setAct lvl) := by
  unfold State.setAct
  split
  · exact .refl ..
  · exact ((touches_twu s _).mono (by simp) (fun _ => id)).trans ((touches_wire _ _).mono (by simp) (fun _ => id))

theorem touches_actDrop (s : State) (cause : Nat) :
    Touches [.twu, .wire, .glb, .evr, .cap, .elg] recorderRegs s (s.actDrop cause) := by
  unfold State.actDrop
  split
  · exact .refl ..
  · refine Touches.trans (t := { ((s.setAct false).event 0x1002 [.h cause]) with
        twu := { ((s.setAct false).event 0x1002 [.h cause]).twu with inhibit := true } }) ?_ ?_
    · exact (((touches_setAct s false).mono (by simp) (by simp)).trans ((noted_event ..).mono (by simp) (fun _ => id))).trans
        ((touches_twu _ _).mono (by simp) (fun _ => id))
    · dsimp only
      split
      · exact (touches_setRole ..).mono (by simp) (fun _ => id)
      · exact .refl ..

/-- What the entry of SAFE or FAULT may touch. -/
abbrev Stopped (s t : State) : Prop :=
  Touches [.glb, .hlm, .twu, .wire, .cea, .dio, .evr, .cap, .elg] (injRegs ++ recorderRegs) s t

theorem stopped_halt (s : State) (st was : CtlSt) (cause : Nat) : Stopped s (((s.setCtl st cause).urgentAll).dropEdges was) :=
  (((steered_setCtl s st cause).mono (by simp) (fun _ => id)).trans ((touches_cea _ _).mono (by simp) (fun _ => id))).trans
    ((touches_dio _ _).mono (by simp) (fun _ => id))

theorem stopped_enterSafe (s : State) (cause : Nat) : Stopped s (s.enterSafe cause) := by
  unfold State.enterSafe
  split
  · exact stopped_halt ..
  · exact stopped_halt ..
  · exact .refl ..

theorem stopped_enterFault (s : State) (cause : Nat) : Stopped s (s.enterFault cause) := by
  unfold State.enterFault
  split
  · exact .refl ..
  · exact (stopped_halt ..).trans ((touches_actDrop ..).mono (by simp) (fun _ ha => List.mem_append_right _ ha))

theorem steered_degrade (s : State) (cause : Nat) : Steered s (s.degrade cause) := by
  have h : ∀ g : Glb, Steered s { s with glb := g } := fun g => (touches_glb s g).mono (by simp) (fun _ => id)
  unfold State.degrade
  extract_lets s1
  split
  · exact (h _).trans (steered_setCtl ..)
  · exact h _

theorem steered_undegrade (s : State) (cause : Nat) : Steered s (s.undegrade cause) := by
  have h : ∀ g : Glb, Steered s { s with glb := g } := fun g => (touches_glb s g).mono (by simp) (fun _ => id)
  unfold State.undegrade
  extract_lets s1
  split
  · exact (h _).trans (steered_setCtl ..)
  · exact h _

theorem steered_enterRun (s : State) : Steered s s.enterRun := by
  unfold State.enterRun
  dsimp only
  split
  · exact steered_setCtl ..
  · exact (steered_setCtl ..).trans (steered_setCtl ..)

/-! ### Axes -/

@[simp] theorem State.axis_setAxis_self (s : State) (a : Nat) (x : Axis) : (s.setAxis a x).axis a = x := by
  simp [State.axis, State.setAxis]

theorem State.axis_setAxis_ne (s : State) {a b : Nat} (x : Axis) (h : b ≠ a) : (s.setAxis a x).axis b = s.axis b := by
  simp [State.axis, State.setAxis, Tab.get_set, h]

@[simp] theorem State.axis_updAxis_self (s : State) (a : Nat) (f : Axis → Axis) : (s.updAxis a f).axis a = f (s.axis a) := by
  simp [State.updAxis]

theorem State.axis_updAxis_ne (s : State) {a b : Nat} (f : Axis → Axis) (h : b ≠ a) : (s.updAxis a f).axis b = s.axis b :=
  State.axis_setAxis_ne s _ h

@[simp] theorem State.axis_event (s : State) (code : Nat) (args : List EvArg) (a : Nat) :
    (s.event code args).axis a = s.axis a := by simp [State.axis]

theorem touches_updAxis (s : State) (a : Nat) (f : Axis → Axis) : Touches [.axes] [] s (s.updAxis a f) := touches_axes s _

/-- An event of an axis touches the axis and what an event touches; the axis keeps all but LAST_EVENT. -/
theorem touches_axEvent (s : State) (a code : Nat) (args : List EvArg) :
    Touches [.axes, .evr, .cap, .elg] recorderRegs s (s.axEvent a code args) :=
  ((touches_updAxis s a _).mono (by simp) (by simp)).trans ((noted_event ..).mono (by simp) (fun _ => id))

theorem State.axis_axEvent_self (s : State) (a code : Nat) (args : List EvArg) :
    (s.axEvent a code args).axis a = { s.axis a with lastEvent := code } := by simp [State.axEvent]

theorem State.axis_axEvent_ne (s : State) {a b : Nat} (code : Nat) (args : List EvArg) (h : b ≠ a) :
    (s.axEvent a code args).axis b = s.axis b := by
  simp [State.axEvent, State.axis_updAxis_ne s _ h]

/-- A fault condition that does not stand joins the others. -/
theorem State.conds_addCond (s : State) (a code : Nat) (h : (s.axis a).conds.contains code = false) :
    ((s.addCond a code).axis a).conds = (s.axis a).conds ++ [code] := by
  simp only [State.addCond, State.axis_updAxis_self, h]; rfl

/-! ### Objects of the other blocks -/

@[simp] theorem State.eng_setEng_self (s : State) (e : Nat) (x : Eng) : (s.setEng e x).eng e = x := by
  simp [State.eng, State.setEng]

theorem State.eng_setEng_ne (s : State) {e f : Nat} (x : Eng) (h : f ≠ e) : (s.setEng e x).eng f = s.eng f := by
  simp [State.eng, State.setEng, Tab.get_set, h]

@[simp] theorem State.enc_setEnc_self (s : State) (k : Nat) (x : EncCh) : (s.setEnc k x).enc k = x := by
  rw [State.enc, State.setEnc_eiu]; exact Tab.get_set_self ..

theorem State.enc_setEnc_ne (s : State) {k j : Nat} (x : EncCh) (h : j ≠ k) : (s.setEnc k x).enc j = s.enc j := by
  rw [State.enc, State.setEnc_eiu]; exact Tab.get_set_ne _ _ _ h

@[simp] theorem State.fin_setFin_self (s : State) (k : Nat) (x : FastIn) : (s.setFin k x).fin k = x := by
  rw [State.fin, State.setFin_dio]; exact Tab.get_set_self ..

theorem State.fin_setFin_ne (s : State) {k j : Nat} (x : FastIn) (h : j ≠ k) : (s.setFin k x).fin j = s.fin j := by
  rw [State.fin, State.setFin_dio]; exact Tab.get_set_ne _ _ _ h

@[simp] theorem State.fout_setFout_self (s : State) (k : Nat) (x : FastOut) : (s.setFout k x).fout k = x := by
  rw [State.fout, State.setFout_dio]; exact Tab.get_set_self ..

theorem State.fout_setFout_ne (s : State) {k j : Nat} (x : FastOut) (h : j ≠ k) : (s.setFout k x).fout j = s.fout j := by
  rw [State.fout, State.setFout_dio]; exact Tab.get_set_ne _ _ _ h

@[simp] theorem State.la_setLa_self (s : State) (n : Nat) (x : LineAngle) : (s.setLa n x).la n = x := by
  rw [State.la, State.setLa_lau]; exact Tab.get_set_self ..

theorem State.la_setLa_ne (s : State) {n j : Nat} (x : LineAngle) (h : j ≠ n) : (s.setLa n x).la j = s.la j := by
  rw [State.la, State.setLa_lau]; exact Tab.get_set_ne _ _ _ h

@[simp] theorem State.node_setNode_self (s : State) (n : Nat) (x : NodeRt) : (s.setNode n x).node n = x := by
  rw [State.node, State.setNode_slc]; exact Tab.get_set_self ..

theorem State.node_setNode_ne (s : State) {n j : Nat} (x : NodeRt) (h : j ≠ n) : (s.setNode n x).node j = s.node j := by
  rw [State.node, State.setNode_slc]; exact Tab.get_set_ne _ _ _ h

@[simp] theorem State.port_setPort_self (s : State) (p : Nat) (x : Port) : (s.setPort p x).port p = x := by
  rw [State.port, State.setPort_slc]; exact Tab.get_set_self ..

@[simp] theorem State.mbChan_setMbChan_self (s : State) (c : Nat) (x : MbChan) : (s.setMbChan c x).mbChan c = x := by
  rw [State.mbChan, State.setMbChan_mbx]; exact Tab.get_set_self ..

theorem State.mbChan_setMbChan_ne (s : State) {c j : Nat} (x : MbChan) (h : j ≠ c) : (s.setMbChan c x).mbChan j = s.mbChan j := by
  rw [State.mbChan, State.setMbChan_mbx]; exact Tab.get_set_ne _ _ _ h

@[simp] theorem State.src_setSrc_self (s : State) (n : Nat) (x : Src) : (s.setSrc n x).src n = x := by
  rw [State.src, State.setSrc_evr]; exact Tab.get_set_self ..

/-- A command completes where its meaning answers a state with the property. -/
theorem Completes.of_eq {c : Instr} {s t : State} {P : State → Prop} (h : exec c s = .next t) (hp : P t) : Completes c s P :=
  ⟨t, h, hp⟩

end Sys2Proof.Machine
end

