-- ==== Sys2Proof/WellFormed.lean ====
section
/-! DEFINITION. WellFormed.lean: which commands are well formed: every operand lies in the range its row gives it. -/

namespace Sys2Proof

open Sys2Proof.Machine

/-- An item is of the 64 bytes of a ring entry (R462), and from a ring, a mailbox or the partner. -/
def Item.sized (it : Item) : Bool :=
  decide (it.args.length = 44) && decide (it.opcode < 256 ∧ it.ctl < 256 ∧ it.tag < 2 ^ 16 ∧ it.due < 2 ^ 64) &&
    decide (it.origin < 16 ∨ (0x80 ≤ it.origin ∧ it.origin < 0x84) ∨ it.origin = 0x100)

/-- An item of an opcode. -/
def Item.wf (it : Item) (op : Nat) : Bool := it.sized && decide (it.opcode = op)

/-- The command's operands are in range. -/
def Instr.wf : Instr → Bool
  -- One of the 18 engines (R131).
  | .mov e | .mpy e | .mac e | .macr e | .mpyu e | .macs e | .mpym e | .macm e | .addOp e | .subOp e | .adda e
  | .suba e | .absOp e | .negOp e | .minOp e | .maxOp e | .andOp e | .orOp e | .xor e | .asl e | .asr e | .lsr e
  | .cmp e | .clr e | .asha e | .sta e | .stah e | .stal e | .rnd e | .mva e | .lda e | .ldh e | .ldl e | .movr e
  | .ldx e | .stx e | .ldy e | .jmp e | .jcc e | .jsr e | .rts e | .doLoop e | .dod e | .repOp e | .repd e | .enddo e
  | .exitJob e | .abortJob e | .rti e | .cycleOverrun e | .urgentStop e | .engineHalt e | .engineReset e
  | .jobWritebackEnd e => decide (e < 18)
  -- One of the 256 axes (R13).
  | .feedbackLost a | .cmdLost a | .admitTimeout a | .enableTimeout a | .followingError a | .rotorLost a
  | .recatchDue a | .recatchEnd a | .magTimeElapsed a | .alignStepEnd a | .startTimeout a | .retryWaitElapsed a
  | .holdCurrentTimeout a | .keWindowFilled a | .offsetFit a | .softLimit a | .homeDone a | .ss1Timeout a
  | .sbcEngage a => decide (a < 256)
  -- An axis and one of the halves of class C2.
  | .frameStage a half | .jobSkipped a half => decide (a < 256 ∧ half < 2)
  -- A profile: an axis, or 0x8000 plus one of the 16 line angles.
  | .segDone i => decide (i < 256 ∨ (0x8000 ≤ i ∧ i < 0x8010))
  -- An estimator: one of the 8 EIU channels, or 0x8000 plus an axis.
  | .standstillTimeout i => decide (i < 8 ∨ (0x8000 ≤ i ∧ i < 0x8100))
  -- One of the 8 EIU channels, and one of the halves.
  | .localSamplePost k half => decide (k < 8 ∧ half < 2)
  -- One of the 8 EIU channels (R69), whose encoder outputs have the same numbers.
  | .quadEdge k _ _ _ | .indexEvent k | .encSettle k | .sincosConversion k _ _ | .scSignal k | .fitCompleted k _ _ _ _
  | .serialReadStart k | .serialReadEnd k _ _ _ | .reread k | .bissTransactionEnd k _ _ | .encRampEnd k | .encCut k
  | .encRetryDue k => decide (k < 8)
  -- One of the two probes of an EIU channel (R85).
  | .probeArm k p | .probeAck k p => decide (k < 8 ∧ p < 2)
  -- A BiSS slave and a register of it (R83).
  | .bissRegisterRead k slave addr => decide (k < 8 ∧ slave < 8 ∧ addr < 128)
  -- The same, with a byte.
  | .bissRegisterWrite k slave addr data => decide (k < 8 ∧ slave < 8 ∧ addr < 128 ∧ data < 256)
  -- One of the 16 fast inputs or outputs (R94).
  | .fastInputTransition k _ | .inputStuck k | .inputReleased k | .chatterRelease k | .outputEdgeDue k => decide (k < 16)
  -- One of the 16 line angles (R217).
  | .coastExpiry n | .rejoinSlewEnd n | .periodicEdgeMissing n => decide (n < 16)
  -- One of the 256 cam tables (R13).
  | .camCopyDone i => decide (i < 256)
  -- One of the 8 trunk ports (R250): 0 to 3 of channel A, 4 to 7 of channel B.
  | .ulBundleFrame p _ _ | .babble p | .uplinkRecordLanded p _ | .joinReq p _ | .safeFrame p _ | .cplStat p _
  | .linkDown p | .linkUp p => decide (p < 8)
  -- One of the 1,024 slots (R263).
  | .downlinkSlot k => decide (k < 1024)
  -- One of the 256 node IDs (R250).
  | .joinTimeout n _ | .portFenced n _ | .trimAlarm n _ | .asymDisagree n => decide (n < 256)
  -- UL_END of the cycle, or of one of the halves.
  | .ulEnd h => decide (h < 3)
  -- FB0, FB1 or TW, the ports that speak PTP (R290).
  | .ptpSync p _ | .ptpFollowUp p _ | .ptpPdelayReq p _ | .ptpPdelayResp p _ | .ptpAnnounce p _ | .ptpManagement p
  | .ptpSyncSend p | .ptpAnnounceSend p | .ptpPdelaySend p | .pdelayTimeout p => decide (p < 3)
  -- FB0 or FB1 (R311).
  | .helloFrame p _ | .fabData p _ | .asyncFrameRelease p | .fabricLinkChange p _ _ _ => decide (p < 2)
  -- One of the 64 controller IDs (R317).
  | .memberLost c => decide (c < 64)
  -- The same.
  | .fabricMsg from_ _ _ _ | .adoptionRequest from_ | .epochNeed from_ _ => decide (from_ < 64)
  -- The same.
  | .epochReadyReceived e from_ _ | .epochFail e from_ _ => decide (e < 2 ^ 32 ∧ from_ < 64)
  -- An epoch.
  | .epochAbort e _ _ => decide (e < 2 ^ 32)
  -- An epoch and its initiator.
  | .epochOffer e init _ _ _ => decide (e < 2 ^ 32 ∧ init < 64)
  -- A fragment of an image, for one controller or, with 64, for all.
  | .cfgXfer dest k total _ => decide (dest ≤ 64 ∧ k < total)
  -- One of the 512 safe connections (R372).
  | .connLost c => decide (c < 512)
  -- One of the 8 safe inputs.
  | .safeInputChange k _ _ | .inputDisc k => decide (k < 8)
  -- One of the 4 safe outputs.
  | .outReadback k _ | .outputTestPulse k _ => decide (k < 4)
  -- One of the 64 monitored axes.
  | .posDisc k => decide (k < 64)
  -- A cause of a wick fault (R338).
  | .wickFault cause => decide (1 ≤ cause ∧ cause ≤ 3)
  -- A rail of R392: core, IO or AUX.
  | .railReset rail => decide (1 ≤ rail ∧ rail ≤ 3)
  -- BOOT_SEL has two bits (R420).
  | .powerOn _ _ sel | .clockReset sel | .pinReset _ sel | .pemReset _ sel | .lifecycleReset sel
  | .thermalResetRelease sel => decide (sel < 4)
  -- An aligned word of BAR0 (R3, R4).
  | .registerWrite a _ | .rcCounterRead a _ | .holdingRegisterRead a => decide (a % 4 = 0 ∧ a < 0x400000)
  -- An address of BAR0 (R22).
  | .bar0BadAccess _ off _ => decide (off < 0x400000)
  -- An address of BAR2 (R438).
  | .bar2Access off _ _ _ => decide (off < 2 ^ 28)
  -- One of the 8 mailbox channels (R443).
  | .postMsg c | .releaseMsg c | .mailboxTake c => decide (c < 8)
  -- One of the channels 0 to 3 of the supervisor.
  | .echoOp c | .workOp c | .signalRead c | .infoOp c => decide (c < 4)
  -- One of the 16 rings (R457).
  | .kickRing r | .prodWrite r _ | .consWrite r _ => decide (r < 16)
  -- One of the 512 sources (R449).
  | .sourceArrival n _ => decide (n < 512)
  -- One of the 4 targets.
  | .claimSrc k => decide (k < 4)
  -- The same.
  | .completeSrc k _ => decide (k < 4)
  -- A target and one of its 8 vectors.
  | .claimByVector k v => decide (k < 4 ∧ v < 8)
  -- A word of the maps of sources.
  | .maskSet w _ | .maskClr w _ | .pendSet w _ | .pendClr w _ => decide (w < 16)
  -- One of the 32 MSI-X vectors (R442).
  | .msixMessage v => decide (v < 32)
  -- One of the 5 supervisor cores (R504).
  | .itemPrepare c | .itemStage c | .coreFirmwareLoaded c => decide (c < 5)
  -- The same.
  | .coreWatchdog c _ => decide (c < 5)
  -- One of the 32 capture channels (R477).
  | .captureDone c | .captureForced c => decide (c < 32)
  -- One of the 64 limiters (R491).
  | .limiterToken l => decide (l < 64)
  -- An engine, or a core (R502).
  | .spareTestDone kind unit _ => decide ((kind = 1 ∧ unit < 18) ∨ (kind = 2 ∧ unit < 5))
  -- One of the 8 injection slots (R514).
  | .injectionArm i _ => decide (i < 8)
  -- The 8 sensors of R510.
  | .thermalRead temps => decide (temps.length ≤ 8)
  -- Words of BAR0 that the service port reads.
  | .diagRead _ n => decide (n < 256)
  -- A token of 208 bytes (R404).
  | .tokenCmd token => decide (token.length = 208)
  -- A flash and a target (R428).
  | .flashCmd fl tg _ => decide (fl < 2 ∧ tg < 3)
  -- FAIL of a flash operation: none, erase, program or read-back (R428).
  | .flashDone fail _ => decide (fail < 4)
  -- A work item of the row's opcode (R462, R466).
  | .axisCreate it => it.wf Opc.axisCreate
  | .axisDestroy it => it.wf Opc.axisDestroy
  | .axisEnable it => it.wf Opc.axisEnable
  | .axisDisable it => it.wf Opc.axisDisable
  | .coefWrite it => it.wf Opc.coefWrite
  | .coefSwap it => it.wf Opc.coefSwap
  | .moveAbs it => it.wf Opc.moveAbs
  | .moveRel it => it.wf Opc.moveRel
  | .moveVel it => it.wf Opc.moveVel
  | .stopItem it => it.wf Opc.stop
  | .homeItem it => it.wf Opc.home
  | .gearSet it => it.wf Opc.gearSet
  | .gearChangeAt it => it.wf Opc.gearChangeAt
  | .camSet it => it.wf Opc.camSet
  | .compareArm it => it.wf Opc.compareArm
  | .compareDisarm it => it.wf Opc.compareArm
  | .epochStage it => it.wf Opc.epochStage
  | .epochCommit it => it.wf Opc.epochCommit
  | .signalWrite it => it.wf Opc.signalWrite
  | .logMark it => it.wf Opc.logMark
  | .captureArm it => it.wf Opc.captureArm
  | .captureDisarm it => it.wf Opc.captureArm
  | .spareTestTest it => it.wf Opc.spareTest
  | .spareTestRotate it => it.wf Opc.spareTest
  | .spareTestReturn it => it.wf Opc.spareTest
  -- A work item that comes from the partner.
  | .forwardedWorkItem it => it.sized
  -- Commands whose operands have no bound in the spec.
  | .cycleBoundary | .jobDispatch | .actuationInstant | .loadRestart | .slackRestart | .dioOutSet _ | .dioOutClr _
  | .obsRestart | .lauPost | .timeSync | .timeUnsync | .holdoverEnter | .announceTimeout | .asymCheck | .ppsOutEdge
  | .ppsInEdge _ | .ppsLost | .plantPtpExchange _ | .helloSend | .idAssigned _ | .fabDataSend | .signalStale _
  | .stageDone _ _ _ | .commitReceived | .epochReadyTimeout | .epochOfferTimeout | .landMapSend | .landMap _
  | .dlCopy _ | .selfTestStart | .selfTest _ | .hb _ _ _ _ _ _ _ _ | .stateChunk _ | .twMsg _ _ _
  | .partnerActChange _ _ | .actRaise | .wickConflict | .cycStall | .hbLost | .twinLink _ _ _ | .startWait | .handover
  | .handoverActDrop | .requalify | .twuAccept _ | .peerAccepted _ | .imageAdopt _ _ _ | .peerWrite _ _ _
  | .islandStart _ _ _ | .sfiEvaluation | .sfiCrossCompare _ _ _ | .scaClock | .scbClock | .safeReset _ _
  | .resetStuck | .dramTrainingDone _ _ | .dramWipeDone _ _ | .imageReadDone | .imageVerifyDone _ _ | .vinLow _
  | .vinLowClear _ | .vinHigh _ | .brownout _ | .overvolt _ | .thermalReset | .ledgerEvaluation _ _ | .encOvervolt _
  | .encTotal _ | .encRetry _ | .tokenTransition | .tokenKeyAdd | .tokenKeyRevoke | .imageAdopted _ _ | .adoptTimeout
  | .flashProgramSlot _ _ _ | .flashErasePeer _ | .perstN | .pcieLink _ _ _ | .twinSend | .fabricSend | .demandReq _
  | .withdrawReq _ | .logRead _ | .dbOutSet _ | .dbOutClr _ | .itemTake | .completionWrite | .eventRecordWrite
  | .elgRestart | .cursorWrite _ | .windowRead | .spareRotation | .scrubPass _ | .wearMeasurement _ | .healthReport
  | .sfiSupplyTrip _ | .pcieConfigWrite _ => true

end Sys2Proof
end

