-- ==== Sys2Proof/Tests/Slice0.lean ====
section
/-! SUPPORT. Tests/Slice0.lean: a witness for every obligation with hypotheses (each conjunct shows a state and operands that
meet the hypotheses of one clause), well-formedness refused on one ill-formed term for each check, and a few tests on fixed values. -/

namespace Sys2Proof.Tests

open Sys2Proof Sys2Proof.Machine

/-- A register file that holds these values. -/
def regsOf (l : List (Nat × Word)) : Tab Word := l.foldl (fun t p => Tab.put t p.1 p.2) []

/-- A work item of an opcode for the object of a type and index, of the first generation. -/
def itm (op ty i : Nat) (args : List Byte) : Item :=
  { origin := 0, idx := 0, opcode := op, ctl := 0, tag := 7, handle := mkHandle ty 1 i, due := 0, dueLa := 0, args := args }

/-- The block runs cycles, the present one being number 16,000; axis 255 is in a state and described so. -/
def axS (d : AxisDesc) (x : Axis) : State :=
  { cyc := { running := true, n := 16000, c0 := 10 ^ 15 - 10 ^ 9 }, axes := [(255, x)], sfi := { permit := [255] }, ft := 10 ^ 15 * 2 ^ 32
    regs := regsOf [(Reg.cycPeriod, 16000000)]
    glb := { opened := true, st := .run }
    cfl := { applied := true, body := { ctrls := [{ axes := [(255, d)] }] } } }


/-- The command answers a next state. -/
def runs (c : Instr) (s : State) : Bool :=
  match exec c s with
  | .next _ => true
  | _ => false

theorem runs_of {l : List Instr} {s : State} (h : l.all (fun c => runs c s) = true) : ∀ c, c ∈ l → ∃ t, exec c s = .next t := by
  intro c hc
  have h1 := List.all_eq_true.mp h c hc
  unfold runs at h1
  split at h1
  · exact ⟨_, by assumption⟩
  · cases h1


/-- The hash of the public key of the image and of its firmware section: the base point of P-256, for the private key 1. -/
def keyH : Nat := 0xd875db7def232236aec738c6b0bb3e80142f5d0fd8f4df24fed6eef5cbb50d9f

/-- Coordinates of that key. -/
def keyXY : Nat × Nat := (0x6b17d1f2e12c4247f8bce6e563a440f277037d812deb33a0f4a13945d898c296, 0x4fe342e2fe1a7f9b8ee7eb4a7c0f9e162bce33576b315ececbb6406837bf51f5)

/-- A signed line image of four empty sections: firmware, line, controller 0 and its safety section. Signed outside Lean. -/
def img : List Byte :=
  leBytes 384 0x000000000000000055b852781b9995a44c939b64e441ae2724b96f99c8f4fb9a141cfc9842c4b0e3000000000000000000000000000000000000100000000204000000000000000055b852781b9995a44c939b64e441ae2724b96f99c8f4fb9a141cfc9842c4b0e3000000000000000000000000000000000000100000000103000000000000000055b852781b9995a44c939b64e441ae2724b96f99c8f4fb9a141cfc9842c4b0e30000000000000000000000000000000000001000ffff0002000000000000000055b852781b9995a44c939b64e441ae2724b96f99c8f4fb9a141cfc9842c4b0e30000000000000000000000000000000000001000ffff00010000000000000000000000000000000000000000000000000000000000000000000000000000000000000000000000000000000000000000000000000000000000000000000000003259a3d42a8406a56835fcfca6f229b45f04f9b64c62468dff21060407ccce3a0000000000000000000000010000020000040001514d4947
    ++ beBytes 32 keyXY.1 ++ beBytes 32 keyXY.2
    ++ beBytes 32 0x7cf27b188d034f7e8a52380304b51ac3c08969e277f21b35a60b48fc47669978
    ++ beBytes 32 0xb539e9a01608d0bd0338af09fae6415a326ae489927784480d2a311bade8ffdc ++ List.replicate 3584 0

/-- What its sections hold: a 1 ms timeline, a ledger budget and controller 0. -/
def imgBody : ImageBody :=
  { firm := { keyX := keyXY.1, keyY := keyXY.2
              sigR := 0x7cf27b188d034f7e8a52380304b51ac3c08969e277f21b35a60b48fc47669978
              sigS := 0x1bb548ec8e028fb3e5c9bc70b1319e73d9d2e86c3378fba6b3313ecd9e81c4ea
              digest := leBytes 32 0xad1500f261ff10b49c7a1796a36103b02322ae5dde404141eacf018fbf1678ba }
    line := { regs := [(Reg.cycConfig, 1), (Reg.cycPeriod, 1000000), (Reg.cycUlStart, 25600), (Reg.cycUlEnd, 32000), (Reg.cycDlStart, 96000)
      , (Reg.cycDlEnd, 96080), (Reg.cycAct, 160080), (Reg.pemLedgerCfg, 1000)
      , (Reg.axmAdmitCfg, 0x10010), (Reg.elgCfg, 1)] }
    ctrls := [{}] }

/-- Fuses that hold the key, in both kinds of slot. -/
def imgFuses : Fuses := { oem := [some keyH, none, none, none], quet := [some keyH, none] }


/-- Engine `e` with `x` runs a job and meets the word `w` at its program counter. -/
def engS (x : Eng) (w e : Nat) : State :=
  { cea := { engs := [(e, { x with job := some { axis := 255, frame := 0, kset := 0, start := 0 } })], p := [(x.pc, w32 w)] }
    regs := [(Reg.ceaCode, w32 ((x.pc + 1) * 65536))] }

/-- Some engine meets the operation in a state that the hypotheses allow. -/
def EngMet (op : Nat) (H : State → Eng → Nat → Prop) : Prop := ∃ s e w, EngineAt s e op w ∧ H s (s.eng e) w


/-- A plan of one downlink slot with one record, of axis 255, and a moment after it. -/
def jobS (c : Cea) : State :=
  { axS {} { st := .ready } with
    cea := c
    regs := regsOf [(Reg.slcPlan, 0x10000), (Reg.slcSlotTab 0, 0x8000FFFF), (Reg.slcSlotTab 1, 100), (Reg.slcSlotTab 2, 0x100),
      (Reg.slcRecMap 0, 0xFF00), (Reg.cycPeriod, 0x400), (Reg.ceaKsetInfo 0, 0x00400064)] }

/-- Engine 17 runs a job of axis 255. -/
def jobE (x : Eng) : State := jobS { engs := [(17, { x with job := some { axis := 255, frame := 23, kset := 0, start := 0 } })] }


/-- A profile description with one ramp set. -/
def rampD : PgnDesc :=
  { ramps := [{ vmax := 2 ^ 34, a1 := 2 ^ 26, a2 := 2 ^ 26, d1 := 2 ^ 26, d2 := 2 ^ 26 }]
    vlim := 2 ^ 35
    qd := 4
    posMin := -(2 ^ 50)
    posMax := 2 ^ 50 }

/-- Axis 255 with a profile description. -/
def moveS (x : Axis) : State := axS { pgn := rampD } x

/-- Line angle 7 is a virtual master. -/
def vmS : State :=
  { axS {} {} with lau := { angles := [(7, { decl := { src := .virtual, pgn := rampD } })] } }


/-- Encoder channel 7 in a mode, feeding axis 255. -/
def encS (mode : Nat) (c : EncCh) : State :=
  { axS { chan := some 7 } { st := .ready } with
    eiu := [(7, c)]
    regs := regsOf [(Reg.eiuMode 7, w32 (0xF0000 + mode)), (Reg.eiuSerCfg 7, 0x01400000), (Reg.cycPeriod, 16000000)] }


/-- Fast input 15, with its times set. -/
def finS (x : FastIn) : State :=
  { axS {} {} with dio := { ins := [(15, x)] }, regs := regsOf [(Reg.dioInTime 15, 0x10001)] }


/-- Line angle 15 as given, beside axis 255 in READY. -/
def laS (x : LineAngle) : State :=
  { axS {} { st := .ready, posValid := true } with lau := { angles := [(15, x)] } }

/-- Capture channel 31 as given, with its buffer described. -/
def capS (x : CapChan) : State :=
  { axS {} {} with
    cap := { chans := [(31, x)] }
    regs := regsOf [(Reg.capChCfg 31, 0x00080000)] }


/-- A plan of one uplink slot of trunk 3, open now, whose one record is an I/O record of node 255, and that node attached to the
trunk. -/
def upS (kind : Nat) (x : NodeRt) : State :=
  { axS {} {} with
    regs := regsOf [(Reg.cycPeriod, 16000000), (Reg.slcPlan, 0x10000), (Reg.slcSlotTab 0, w32 (0x6000FFFF + kind * 0x4000000)),
      (Reg.slcSlotTab 1, 976562), (Reg.slcSlotTab 2, 0x100100), (Reg.slcSlotTab 3, 255), (Reg.slcRecMap 0, 0xFF100000),
      (Reg.slcNodeTab 1020, 0x8C000000)]
    slc := { nodes := [(255, x)] }
    cfl := { applied := true, body := { ctrls := [{ safety := { conns := [{ connId := 5, node := 255, down := false, slot := 0, len := 16 }] } }] } } }

/-- A frame of controller 0 on channel B of trunk 3, for slot 0 and cycle 16,000. -/
def upFrame (ftype count : Nat) (body : List Byte) : List Byte :=
  macHdr (List.replicate 6 0) (macAddr false 0 true 0 0 3) 0x88B5 ++ bundleHdr ftype count true false 0 16000 ++ body

/-- A record of node 255 with its check. -/
def upRec : List Byte := sealRec 16000 true (255 :: List.replicate 43 0)


/-- The time base as given, with every link up. -/
def timeS (t : Tbu) : State :=
  { axS {} {} with tbu := t, fbr := { links := [true, true] }, twu := { link := true } }

/-- The same with TBU_PPS_CFG, no cycle running. -/
def ppsS (cfg : Word) (t : Tbu) : State :=
  { timeS t with cyc := {}, regs := regsOf [(Reg.tbuPpsCfg, cfg), (Reg.cycPeriod, 16000000)] }


/-- The fabric as given, with the EtherType of its frames set and a fabric slot of this controller. -/
def fabS (x : Fbr) : State :=
  { axS {} {} with
    fbr := x
    glb := { opened := true, st := .run, idValid := true }
    regs := regsOf [(Reg.cycPeriod, 16000000), (Reg.fbrCfg, 0x88B68110), (Reg.fbrFslotLen 0, 0x40FFFF), (Reg.fbrFslotStart 0, 10)] }

/-- A header of controller 5's frames. -/
def fabH (ftype len : Nat) : FabHdr :=
  { ftype := ftype, origin := 5, noId := false, hops := 0, ttl := 9, wrapped := false, dual := true, port := 0, links := 3, len := len, cycle := 16000 }

/-- A HELLO of device 77. -/
def helloB : List Byte := helloBody 77 0 5 true false 4 0 1 (List.replicate 32 1) 0 0

/-- A record of line angle 2, behind a candle prefix. -/
def angleB : List Byte := leBytes 4 0 ++ laRecordBytes 16000 2 1 3 4 5


/-- A fabric member in RUN with this epoch in progress, the lantern itself if told so. -/
def epoS (lantern : Bool) (e : Epoch) : State :=
  { axS {} {} with
    fbr := { epoch := e }
    fuses := imgFuses
    glb := { opened := true, st := .run, idValid := true }
    tbu := { hasLantern := lantern, lantern := 1 } }

/-- An image to stage lies in a host region: a header and a directory of one LINE entry of length 0. -/
def stageS : State :=
  { epoS false {} with
    cfl := { body := { line := { regions := [{ base := 0x5000000, len := 4096, host := true }] } } }
    dram := memPut (memPut [] 0x5000000 (leBytes 4 0x514D4947 ++ leBytes 2 1 ++ leBytes 2 1 ++ leBytes 4 320 ++ leBytes 12 0 ++ [1])) 0x5000080 [2]
    regs := regsOf [(Reg.cycPeriod, Config.linePeriod [])] }


/-- A paired twin in a role, its link up and cycles running. -/
def twS (r : Role) (t : Twu) : State :=
  { axS {} { st := .ready } with
    twu := { t with link := true }
    glb := { opened := true, st := .run, role := r, idValid := true }
    regs := regsOf [(Reg.cycPeriod, 16000000), (Reg.twuCfg, 0xC0010000), (Reg.fbrCfg, 0x88B68110)] }

/-- A header of the partner's frames. -/
def twH (ftype len : Nat) : FabHdr :=
  { ftype := ftype, origin := 0, noId := false, hops := 0, ttl := 0, wrapped := false, dual := false, port := 0, links := 0, len := len, cycle := 16000 }

/-- A copy of a downlink frame with a safety record of SEQ 9. -/
def copyB : List Byte := leBytes 4 0 ++ List.replicate 14 0 ++ [4] ++ List.replicate 9 0 ++ [9, 0, 1, 2] ++ List.replicate 4 0


/-- The safety island as given, under safety parameters. -/
def safS (y : SafetySec) (x : Sfi) : State :=
  { axS {} {} with sfi := x, cfl := { applied := true, body := { ctrls := [{ safety := y }] } } }


/-- Power and encoder supply as given, in a state of the controller. -/
def powS (st : CtlSt) (p : Pem) : State :=
  { axS {} {} with pem := p, glb := { opened := true, st := st }, fuses := imgFuses }

/-- A token of an operation and argument, signed by the OEM key of slot 0. -/
def tokenB (op arg r t : Nat) : List Byte :=
  leBytes 4 0x4C43544B ++ leBytes 4 (op + 256 * arg) ++ leBytes 8 1 ++ List.replicate 64 0 ++ beBytes 32 keyXY.1 ++ beBytes 32 keyXY.2
    ++ beBytes 32 r ++ beBytes 32 t

/-- READY with a token in its registers. -/
def tokS (b : List Byte) : State :=
  { powS .ready {} with regs := regsOf ((bytesWords 52 b).zipIdx.map (fun p => (Reg.lcuToken p.2, p.1))) }

/-- A token that takes the device to SERVICE, signed outside Lean. -/
def tokSvc : List Byte := tokenB 1 4 0x7cf27b188d034f7e8a52380304b51ac3c08969e277f21b35a60b48fc47669978
  0x3a3f86ae38bbe3b00c420e4ed0c73b539b3daa2894b151d6ce3e30be988bcfc8

/-- A token that revokes key slot 1, signed outside Lean. -/
def tokRev : List Byte := tokenB 3 1 0x7cf27b188d034f7e8a52380304b51ac3c08969e277f21b35a60b48fc47669978
  0xcf613c084638876ac3e56b5e103e2eb8a6ea9791522e9fbe3392012433054974


/-- The configuration loader as given, in a state of the controller, with the fuses of the signed image. -/
def cflS (st : CtlSt) (c : Cfl) : State :=
  { axS {} {} with cfl := c, fuses := imgFuses, glb := { st := st } }


/-- RUN with these registers. -/
def hostS (r : List (Nat × Word)) : State := { axS {} { st := .ready } with regs := regsOf ((Reg.cycPeriod, 16000000) :: r) }

/-- RUN with a mailbox channel in a state and bytes in its buffer. -/
def mbS (c : Nat) (x : MbChan) (b : List Byte) : State :=
  { hostS ((bytesWords 64 b).zipIdx.map (fun p => (Reg.mbxChBuf c p.2, p.1))) with mbx := { chans := [(c, x)] } }

/-- RUN with source 0x21 as given. -/
def srcS (x : Src) : State := { hostS [] with evr := { srcs := [(0x21, x)] } }

/-- A safety request: a function for axis 255. -/
def reqB (op f : Nat) : List Byte := leBytes 4 (op + 256 * f) ++ List.replicate 31 0 ++ [0x80]


/-- RUN, lit, with command ring 2 that answers in completion ring 3, each of four entries, and the scheduler as given. -/
def wksS (prod : Nat) (w : Wks) : State :=
  { hostS [(Reg.wksRingCfg 2, 0x22300000), (Reg.wksRingCfg 3, 0x42000000), (Reg.wksRingBaseLo 2, 0x5000000), (Reg.wksRingBaseLo 3, 0x6000000)
      , (Reg.wksRingProd 2, w32 prod), (Reg.wksRingProd 3, w32 prod), (Reg.mbxDbIn, 0x400)] with
    wks := w
    glb := { opened := true, st := .run, role := .lit } }

/-- An item of ring 2 in a stage. -/
def tkn (st : Stage) (it : Item) : Taken := { seq := 5, item := it, takeCycle := 16000, stage := st }

/-- A LOG_MARK. -/
def markI (ctl : Nat) (dueLa : Word) : Item :=
  { itm 0x14 0 0 [1, 2, 3, 4] with origin := 2, handle := 0, ctl := ctl, due := if ctl = 8 then 16100 else 0, dueLa := dueLa }

/-- A SIGNAL_WRITE of signal 7. -/
def sigI : Item := { itm 0x11 0 0 ([1, 0, 0, 0] ++ leBytes 4 7 ++ leBytes 4 0x55) with handle := 0 }

/-- RUN, lit, under a controller section. -/
def ctlS (c : CtrlSec) : State := { wksS 0 {} with cfl := { applied := true, body := { ctrls := [c] } } }


/-- RUN with the recorder as given and a log of 1,024 records. -/
def elgS (e : Elg) : State :=
  { hostS [(Reg.elgCfg, 1), (Reg.elgBaseLo, 0x5000000), (Reg.elgWrIdx, 5), (Reg.elgCursor, 4), (Reg.elgSeq, 9)] with elg := e }

/-- RUN with the health manager as given. -/
def hlmS (r : List (Nat × Word)) (h : Hlm) : State :=
  { hostS r with hlm := h, cyc := { running := true, n := 2 ^ 20, c0 := 10 ^ 15 - 10 ^ 9 }, fuses := { lc := 2 } }


/-- An item of an opcode as a ring holds it. -/
def itemN (op : Nat) : Item := { itm op 1 255 (List.replicate 44 0) with origin := 2 }


/-- States and operands that meet the hypotheses of `Obligations.EngineProductsLandInAccumulator`. -/
theorem witness_EngineProductsLandInAccumulator :
    (EngMet 0x01 (fun _ _ w => noMove w)) ∧
    (EngMet 0x02 (fun _ _ w => noMove w)) ∧
    (EngMet 0x03 (fun _ _ w => noMove w)) ∧
    (EngMet 0x04 (fun _ _ w => noMove w)) ∧
    (EngMet 0x05 (fun _ _ w => noMove w)) ∧
    (EngMet 0x06 (fun _ x w => x.memOk w)) ∧
    (EngMet 0x07 (fun _ x w => x.memOk w)) :=
  ⟨⟨engS ({ rf := [(0, 7), (1, 0xFFFFFFFD), (0x42, 0x123456789ABCDEF), (0x43, 5 * 2 ^ 64)] }) 0x7040000 17, 17, 0x7040000, by decide⟩,
   ⟨engS ({ rf := [(0, 7), (1, 0xFFFFFFFD), (0x42, 0x123456789ABCDEF), (0x43, 5 * 2 ^ 64)] }) 0xB040000 17, 17, 0xB040000, by decide⟩,
   ⟨engS ({ rf := [(0, 7), (1, 0xFFFFFFFD), (0x42, 0x123456789ABCDEF), (0x43, 5 * 2 ^ 64)] }) 0xF040000 17, 17, 0xF040000, by decide⟩,
   ⟨engS ({ rf := [(0, 7), (1, 0xFFFFFFFD), (0x42, 0x123456789ABCDEF), (0x43, 5 * 2 ^ 64)] }) 0x13040000 17, 17, 0x13040000, by decide⟩,
   ⟨engS ({ rf := [(0, 7), (1, 0xFFFFFFFD), (0x42, 0x123456789ABCDEF), (0x43, 5 * 2 ^ 64)] }) 0x17040000 17, 17, 0x17040000, by decide⟩,
   ⟨engS ({ rf := [(0x10, 3), (0x14, 4)], x := [(3, 9)] }) 0x18000000 17, 17, 0x18000000, by decide⟩,
   ⟨engS ({ rf := [(0x10, 3), (0x14, 4)], x := [(3, 9)] }) 0x1C000000 17, 17, 0x1C000000, by decide⟩⟩

/-- States and operands that meet the hypotheses of `Obligations.EngineResultsLandInDataRegisters`. -/
theorem witness_EngineResultsLandInDataRegisters :
    (EngMet 0x08 (fun _ _ w => noMove w)) ∧
    (EngMet 0x09 (fun _ _ w => noMove w)) ∧
    (EngMet 0x0C (fun _ _ w => noMove w)) ∧
    (EngMet 0x0D (fun _ _ w => noMove w)) ∧
    (EngMet 0x0E (fun _ _ w => noMove w)) ∧
    (EngMet 0x0F (fun _ _ w => noMove w)) ∧
    (EngMet 0x10 (fun _ _ w => noMove w)) ∧
    (EngMet 0x11 (fun _ _ w => noMove w)) ∧
    (EngMet 0x12 (fun _ _ w => noMove w)) ∧
    (EngMet 0x13 (fun _ _ w => noMove w)) ∧
    (EngMet 0x14 (fun _ _ w => noMove w)) ∧
    (EngMet 0x15 (fun _ _ w => noMove w)) :=
  ⟨⟨engS ({ rf := [(0, 7), (1, 0xFFFFFFFD), (0x42, 0x123456789ABCDEF), (0x43, 5 * 2 ^ 64)] }) 0x23900000 17, 17, 0x23900000, by decide⟩,
   ⟨engS ({ rf := [(0, 7), (1, 0xFFFFFFFD), (0x42, 0x123456789ABCDEF), (0x43, 5 * 2 ^ 64)] }) 0x27900000 17, 17, 0x27900000, by decide⟩,
   ⟨engS ({ rf := [(0, 7), (1, 0xFFFFFFFD), (0x42, 0x123456789ABCDEF), (0x43, 5 * 2 ^ 64)] }) 0x33900000 17, 17, 0x33900000, by decide⟩,
   ⟨engS ({ rf := [(0, 7), (1, 0xFFFFFFFD), (0x42, 0x123456789ABCDEF), (0x43, 5 * 2 ^ 64)] }) 0x37900000 17, 17, 0x37900000, by decide⟩,
   ⟨engS ({ rf := [(0, 7), (1, 0xFFFFFFFD), (0x42, 0x123456789ABCDEF), (0x43, 5 * 2 ^ 64)] }) 0x3B900000 17, 17, 0x3B900000, by decide⟩,
   ⟨engS ({ rf := [(0, 7), (1, 0xFFFFFFFD), (0x42, 0x123456789ABCDEF), (0x43, 5 * 2 ^ 64)] }) 0x3F900000 17, 17, 0x3F900000, by decide⟩,
   ⟨engS ({ rf := [(0, 7), (1, 0xFFFFFFFD), (0x42, 0x123456789ABCDEF), (0x43, 5 * 2 ^ 64)] }) 0x43900000 17, 17, 0x43900000, by decide⟩,
   ⟨engS ({ rf := [(0, 7), (1, 0xFFFFFFFD), (0x42, 0x123456789ABCDEF), (0x43, 5 * 2 ^ 64)] }) 0x47900000 17, 17, 0x47900000, by decide⟩,
   ⟨engS ({ rf := [(0, 7), (1, 0xFFFFFFFD), (0x42, 0x123456789ABCDEF), (0x43, 5 * 2 ^ 64)] }) 0x4B900000 17, 17, 0x4B900000, by decide⟩,
   ⟨engS ({ rf := [(0, 7), (1, 0xFFFFFFFD), (0x42, 0x123456789ABCDEF), (0x43, 5 * 2 ^ 64)] }) 0x4F900000 17, 17, 0x4F900000, by decide⟩,
   ⟨engS ({ rf := [(0, 7), (1, 0xFFFFFFFD), (0x42, 0x123456789ABCDEF), (0x43, 5 * 2 ^ 64)] }) 0x53900000 17, 17, 0x53900000, by decide⟩,
   ⟨engS ({ rf := [(0, 7), (1, 0xFFFFFFFD), (0x42, 0x123456789ABCDEF), (0x43, 5 * 2 ^ 64)] }) 0x57900000 17, 17, 0x57900000, by decide⟩⟩

/-- States and operands that meet the hypotheses of `Obligations.EngineAccumulatorOperations`. -/
theorem witness_EngineAccumulatorOperations :
    (EngMet 0x0A (fun _ _ w => noMove w)) ∧
    (EngMet 0x0B (fun _ _ w => noMove w)) ∧
    (EngMet 0x17 (fun _ _ w => noMove w)) ∧
    (EngMet 0x18 (fun _ _ w => noMove w)) ∧
    (EngMet 0x1C (fun _ _ w => noMove w)) ∧
    (EngMet 0x1D (fun _ _ w => noMove w)) ∧
    (EngMet 0x1E (fun _ _ w => noMove w)) ∧
    (EngMet 0x16 (fun _ _ w => noMove w)) ∧
    (EngMet 0x19 (fun _ _ w => noMove w)) ∧
    (EngMet 0x1A (fun _ _ w => noMove w)) ∧
    (EngMet 0x1B (fun _ _ w => noMove w)) :=
  ⟨⟨engS ({ rf := [(0, 7), (1, 0xFFFFFFFD), (0x42, 0x123456789ABCDEF), (0x43, 5 * 2 ^ 64)] }) 0x2B910000 17, 17, 0x2B910000, by decide⟩,
   ⟨engS ({ rf := [(0, 7), (1, 0xFFFFFFFD), (0x42, 0x123456789ABCDEF), (0x43, 5 * 2 ^ 64)] }) 0x2F910000 17, 17, 0x2F910000, by decide⟩,
   ⟨engS ({ rf := [(0, 7), (1, 0xFFFFFFFD), (0x42, 0x123456789ABCDEF), (0x43, 5 * 2 ^ 64)] }) 0x5F910000 17, 17, 0x5F910000, by decide⟩,
   ⟨engS ({ rf := [(0, 7), (1, 0xFFFFFFFD), (0x42, 0x123456789ABCDEF), (0x43, 5 * 2 ^ 64)] }) 0x63910000 17, 17, 0x63910000, by decide⟩,
   ⟨engS ({ rf := [(0, 7), (1, 0xFFFFFFFD), (0x42, 0x123456789ABCDEF), (0x43, 5 * 2 ^ 64)] }) 0x73910000 17, 17, 0x73910000, by decide⟩,
   ⟨engS ({ rf := [(0, 7), (1, 0xFFFFFFFD), (0x42, 0x123456789ABCDEF), (0x43, 5 * 2 ^ 64)] }) 0x77910000 17, 17, 0x77910000, by decide⟩,
   ⟨engS ({ rf := [(0, 7), (1, 0xFFFFFFFD), (0x42, 0x123456789ABCDEF), (0x43, 5 * 2 ^ 64)] }) 0x7B910000 17, 17, 0x7B910000, by decide⟩,
   ⟨engS ({ rf := [(0, 7), (1, 0xFFFFFFFD), (0x42, 0x123456789ABCDEF), (0x43, 5 * 2 ^ 64)] }) 0x5B910000 17, 17, 0x5B910000, by decide⟩,
   ⟨engS ({ rf := [(0, 7), (1, 0xFFFFFFFD), (0x42, 0x123456789ABCDEF), (0x43, 5 * 2 ^ 64)] }) 0x67910000 17, 17, 0x67910000, by decide⟩,
   ⟨engS ({ rf := [(0, 7), (1, 0xFFFFFFFD), (0x42, 0x123456789ABCDEF), (0x43, 5 * 2 ^ 64)] }) 0x6B910000 17, 17, 0x6B910000, by decide⟩,
   ⟨engS ({ rf := [(0, 7), (1, 0xFFFFFFFD), (0x42, 0x123456789ABCDEF), (0x43, 5 * 2 ^ 64)] }) 0x6F910000 17, 17, 0x6F910000, by decide⟩⟩

/-- States and operands that meet the hypotheses of `Obligations.EngineMovesAndLoads`. -/
theorem witness_EngineMovesAndLoads :
    (EngMet 0x00 (fun _ x w => wf w 15 14 = 1 ∧ wf w 8 7 = 0 ∧ accessOk x.slot (x.commit.reg (0x10 + wf w 13 12)) = true)) ∧
    (EngMet 0x00 (fun _ x w => wf w 15 14 = 0 ∧ wf w 8 7 = 1 ∧ accessOk x.slot (x.commit.reg (0x14 + wf w 6 5)) = true)) ∧
    (EngMet 0x00 (fun _ x w => wf w 15 14 = 2 ∧ wf w 8 7 = 0 ∧ x.commit.reg (0x10 + wf w 13 12) < 0x800)) ∧
    (EngMet 0x21 (fun _ x w => x.rep = 0 ∧ (wf w 25 20 < 8 ∨ (0x18 ≤ wf w 25 20 ∧ wf w 25 20 ≤ 0x1F)))) ∧
    (EngMet 0x20 (fun _ x w => x.rep = 0 ∧ (wf w 25 20 < 8 ∨ (0x18 ≤ wf w 25 20 ∧ wf w 25 20 ≤ 0x1F)))) ∧
    (EngMet 0x28 (fun _ x w => x.rep = 0 ∧ regWidth (wf w 19 14) ≠ none ∧ wf w 25 20 < 8)) ∧
    (EngMet 0x29 (fun _ x w => x.rep = 0 ∧ wf w 25 20 < 8 ∧ 
      accessOk x.slot (((x.commit.reg (0x10 + wf w 19 18) : Int) + sgn 14 w) % 8192).toNat = true)) ∧
    (EngMet 0x2B (fun _ x w => x.rep = 0 ∧ wf w 25 20 < 8 ∧ 
      accessOk x.slot (((x.commit.reg (0x14 + wf w 19 18) : Int) + sgn 14 w) % 8192).toNat = true)) ∧
    (EngMet 0x2A (fun _ x w => x.rep = 0 ∧ regWidth (wf w 25 20) ≠ none ∧ 
      (((x.commit.reg (0x10 + wf w 19 18) : Int) + sgn 14 w) % 8192).toNat < 0x800)) :=
  ⟨⟨engS ({ rf := [(0x13, 3), (0x1B, 2)], x := [(3, 9)] }) 0x7A00 17, 17, 0x7A00, by decide⟩,
   ⟨engS ({ rf := [(0x17, 0x7FF), (0x1F, 1)] }) 0xF4 17, 17, 0xF4, by decide⟩,
   ⟨engS ({ rf := [(0x10, 0x7FF), (0x18, 1), (5, 77)] }) 0x8A00 17, 17, 0x8A00, by decide⟩,
   ⟨engS ({}) 0x8470FFFF 17, 17, 0x8470FFFF, by decide⟩,
   ⟨engS ({}) 0x81F0FFFF 17, 17, 0x81F0FFFF, by decide⟩,
   ⟨engS ({ rf := [(3, 77)] }) 0xA070C000 17, 17, 0xA070C000, by decide⟩,
   ⟨engS ({ rf := [(0x10, 5)], x := [(4, 9)] }) 0xA4703FFF 17, 17, 0xA4703FFF, by decide⟩,
   ⟨engS ({ rf := [(0x14, 5)] }) 0xAC700001 17, 17, 0xAC700001, by decide⟩,
   ⟨engS ({ rf := [(0x10, 5), (2, 88)] }) 0xA8200001 17, 17, 0xA8200001, by decide⟩⟩

/-- States and operands that meet the hypotheses of `Obligations.EngineControlFlow`. -/
theorem witness_EngineControlFlow :
    (EngMet 0x30 (fun _ x _ => x.plain)) ∧
    (EngMet 0x31 (fun _ x w => x.plain ∧ condHolds x.commit (wf w 25 22) = some true)) ∧
    (EngMet 0x31 (fun _ x w => x.plain ∧ condHolds x.commit (wf w 25 22) = some false)) ∧
    (EngMet 0x32 (fun _ x _ => x.plain)) ∧
    (EngMet 0x33 (fun _ x _ => x.plain)) ∧
    (EngMet 0x34 (fun _ x w => x.plain ∧ x.commit.depth < 2 ∧ x.pc < wf w 13 0)) ∧
    (EngMet 0x35 (fun _ x w => x.plain ∧ x.commit.depth < 2 ∧ x.pc < wf w 13 0 ∧ dCount (x.commit.reg (wf w 25 23)) ≠ 0)) ∧
    (EngMet 0x35 (fun _ x w => x.plain ∧ x.commit.depth < 2 ∧ x.pc < wf w 13 0 ∧ dCount (x.commit.reg (wf w 25 23)) = 0)) ∧
    (EngMet 0x36 (fun _ x _ => x.plain)) ∧
    (EngMet 0x37 (fun _ x w => x.plain ∧ dCount (x.commit.reg (wf w 25 23)) ≠ 0)) ∧
    (EngMet 0x37 (fun _ x w => x.plain ∧ dCount (x.commit.reg (wf w 25 23)) = 0)) ∧
    (EngMet 0x38 (fun _ x _ => x.plain)) ∧
    (EngMet 0x00 (fun _ x w => noMove w ∧ x.rep = 0 ∧ x.commit.loopEnd = false ∧ x.urgPend = false ∧ x.ovrPend = false ∧ 
      ∃ t, x.branch = some (t, 1))) ∧
    (EngMet 0x00 (fun _ x w => noMove w ∧ x.rep = 0 ∧ x.branch = none ∧ x.commit.loopEnd = true ∧ x.urgPend = false ∧ 
      x.ovrPend = false ∧ x.commit.endDue = false ∧ 1 < x.commit.reg 0x20)) ∧
    (EngMet 0x00 (fun _ x w => noMove w ∧ x.rep = 0 ∧ x.branch = none ∧ x.slots = 0 ∧ x.commit.loopEnd = true ∧ x.urgPend = false ∧ 
      x.ovrPend = false ∧ (x.commit.endDue = true ∨ x.commit.reg 0x20 ≤ 1))) ∧
    (EngMet 0x00 (fun _ x w => noMove w ∧ 1 < x.rep ∧ x.urgPend = false ∧ x.ovrPend = false)) :=
  ⟨⟨engS ({}) 0xC0003FFF 17, 17, 0xC0003FFF, by decide⟩,
   ⟨engS ({}) 0xC4000009 17, 17, 0xC4000009, by decide⟩,
   ⟨engS ({}) 0xC4400009 17, 17, 0xC4400009, by decide⟩,
   ⟨engS ({}) 0xC8000009 17, 17, 0xC8000009, by decide⟩,
   ⟨engS ({ rf := [(0x2B, 9)] }) 0xCC000000 17, 17, 0xCC000000, by decide⟩,
   ⟨engS ({}) 0xD0030009 17, 17, 0xD0030009, by decide⟩,
   ⟨engS ({ rf := [(7, 4)] }) 0xD7800009 17, 17, 0xD7800009, by decide⟩,
   ⟨engS ({}) 0xD7800009 17, 17, 0xD7800009, by decide⟩,
   ⟨engS ({}) 0xD8030000 17, 17, 0xD8030000, by decide⟩,
   ⟨engS ({ rf := [(7, 4)] }) 0xDF800000 17, 17, 0xDF800000, by decide⟩,
   ⟨engS ({}) 0xDF800000 17, 17, 0xDF800000, by decide⟩,
   ⟨engS ({}) 0xE0000000 17, 17, 0xE0000000, by decide⟩,
   ⟨engS ({ branch := some (5, 1) }) 0x0 17, 17, 0x0, by decide, by decide, by decide, by decide, by decide, by decide, 5, by decide⟩,
   ⟨engS ({ pc := 4, rf := [(0x20, 3), (0x21, 2), (0x22, 4), (0x28, 0x100)] }) 0x0 17, 17, 0x0, by decide⟩,
   ⟨engS ({ pc := 4, rf := [(0x20, 1), (0x22, 4), (0x23, 9), (0x28, 0x100)] }) 0x0 17, 17, 0x0, by decide⟩,
   ⟨engS ({ rep := 2 }) 0x0 17, 17, 0x0, by decide⟩⟩

/-- States and operands that meet the hypotheses of `Obligations.EngineJobEndings`. -/
theorem witness_EngineJobEndings :
    (EngMet 0x3C (fun _ x _ => x.plain)) ∧
    (∃ s : State, ∃ e : Nat, ∃ w : Nat, EngineAt s e 0x3D w ∧ (s.eng e).plain ∧ (s.eng e).commit.sr 29 29 = 0) ∧
    (∃ s : State, ∃ e : Nat, ∃ w : Nat, EngineAt s e 0x3E w ∧ (s.eng e).plain ∧ (s.eng e).commit.sr 29 29 = 1) ∧
    (EngMet 0x3E (fun _ x _ => x.plain ∧ x.commit.sr 29 29 = 0 ∧ x.commit.reg 0x2A / 64 % 4 ≠ 3 ∧ x.commit.reg 0x2A / 256 % 4 ≠ 3)) :=
  ⟨⟨engS ({}) 0xF0000000 17, 17, 0xF0000000, by decide⟩,
   ⟨engS {} 0xF4000000 17, 17, 0xF4000000, by decide⟩,
   ⟨engS { rf := [(0x28, 0x20000000)] } 0xF8000000 17, 17, 0xF8000000, by decide⟩,
   ⟨engS ({ rf := [(0x29, 3), (0x2A, 3)] }) 0xF8000000 17, 17, 0xF8000000, by decide⟩⟩

/-- States and operands that meet the hypotheses of `Obligations.LateJobsAreEnded`. -/
theorem witness_LateJobsAreEnded :
    (∃ s : State, ∃ a : Nat, ∃ half : Nat, ∃ t0 : Nat, s.cea.ready.any (fun j => decide (j.axis = a ∧ j.half = half)) = true ∧ s.latestStart a half = some t0 ∧ t0 < s.now) ∧
    (∃ s : State, ∃ e : Nat, ∃ j : Job, ∃ t0 : Nat, (s.eng e).job = some j ∧ s.deadline j.axis j.half = some t0 ∧ (s.eng e).exited = false ∧ (s.eng e).ovrDone = false ∧ (s.eng e).ovrPend = false ∧ t0 ≤ s.now + 64 * clkU ∧ (s.eng e).branch = none ∧ (s.eng e).slots = 0 ∧ (s.eng e).rep = 0) ∧
    (∃ s : State, ∃ e : Nat, ∃ j : Job, (s.eng e).job = some j ∧ (s.eng e).urgPend = true ∧ (s.eng e).ovrPend = false ∧ (s.eng e).exited = false ∧ (s.eng e).sr 29 29 = 0 ∧ (s.eng e).branch = none ∧ (s.eng e).slots = 0 ∧ (s.eng e).rep = 0) ∧
    (∃ s : State, ∃ e : Nat, ∃ j : Job, ∃ t0 : Nat, (s.eng e).job = some j ∧ s.deadline j.axis j.half = some t0 ∧ t0 ≤ s.now ∧ ((s.eng e).exited = false ∨ (s.eng e).ovrDone = true)) ∧
    (∃ s : State, ∃ e : Nat, (s.eng e).resetting = true) :=
  ⟨⟨jobS { ready := [{ axis := 255, ready := 0 }] }, 255, 0, ((jobS {}).latestStart 255 0).getD 0, by decide⟩,
   ⟨jobE {}, 17, { axis := 255, frame := 23, kset := 0, start := 0 }, ((jobE {}).deadline 255 0).getD 0, by decide⟩,
   ⟨jobE { urgPend := true }, 17, { axis := 255, frame := 23, kset := 0, start := 0 }, by decide⟩,
   ⟨jobE {}, 17, { axis := 255, frame := 23, kset := 0, start := 0 }, ((jobE {}).deadline 255 0).getD 0, by decide⟩,
   ⟨jobE { resetting := true }, 17, by decide⟩⟩

/-- States and operands that meet the hypotheses of `Obligations.WritebackReleasesTheJob`. -/
theorem witness_WritebackReleasesTheJob :
    (∃ s : State, ∃ e : Nat, ∃ j : Job, (s.eng e).job = some j ∧ (s.eng e).resetting = false ∧ (s.eng e).ovrDone = false ∧ ((s.eng e).exited = true ∨ (s.isLibrary j.kset = true ∧ (s.eng e).ovrPend = false))) ∧
    (∃ s : State, ∃ e : Nat, ∃ j : Job, (s.eng e).job = some j ∧ (s.eng e).resetting = false ∧ (s.eng e).ovrDone = false ∧ (s.eng e).exited = true ∧ s.isLibrary j.kset = false ∧ (s.desc j.axis).kind ≠ .thin) :=
  ⟨⟨jobE { exited := true }, 17, { axis := 255, frame := 23, kset := 0, start := 0 }, by decide⟩,
   ⟨jobE { exited := true, fx := [(0x20, 5)] }, 17, { axis := 255, frame := 23, kset := 0, start := 0 }, by decide⟩⟩

/-- States and operands that meet the hypotheses of `Obligations.CyclesBeginAndJobsAreDispatched`. -/
theorem witness_CyclesBeginAndJobsAreDispatched :
    (∃ s : State, s.cyc.running = true ∧ s.cyc.c0 + s.per ≤ s.now) ∧
    (∃ s : State, ∃ a : Nat, ∃ half : Nat, ∃ f : Nat, s.stageable a half = true ∧ s.cea.ready.find? (fun j => decide (j.axis = a ∧ j.half = half)) = none ∧ s.stagedBefore a half = false ∧ s.freeSlot = some f) ∧
    (∃ s : State, ∃ j : ReadyJob, ∃ f : Nat, ∃ e : Nat, s.cyc.running = true ∧ s.nextJob = some (j, f) ∧ s.freeEngine = some e ∧ (∀ t, s.latestStart j.axis j.half = some t → s.now ≤ t)) :=
  ⟨⟨jobS {}, by decide⟩,
   ⟨jobS { frames := [(0, { axis := 3 })] }, 255, 0, 1, by decide⟩,
   ⟨{ jobS { ready := [{ axis := 255, ready := 0 }], frames := [(23, { axis := 255 })], engs := [(17, { st := .inService })] } with ft := 0 }, { axis := 255, ready := 0 }, 23, 17, by decide, by decide, by decide, fun _ _ => Nat.zero_le _⟩⟩

/-- States and operands that meet the hypotheses of `Obligations.AxisItemsTakeEffect`. -/
theorem witness_AxisItemsTakeEffect :
    (∃ s : State, ∃ it : Item, ∃ d : AxisDesc, let a := hIdx it.handle; ItemTaken s Opc.axisCreate it ∧ s.desc? a = some d ∧ (s.axis a).st = .unused ∧ s.epochTouches a = false ∧ (s.axis a).moved = false) ∧
    (∃ s : State, ∃ it : Item, let a := hIdx it.handle; ItemFresh s Opc.axisDestroy it ∧ (s.axis a).st = .created ∧ s.destroyBlocked a = false) ∧
    (∃ s : State, ∃ it : Item, let a := hIdx it.handle; ItemFresh s Opc.axisEnable it ∧ (s.axis a).st = .created ∧ (s.axis a).enSeq = none ∧ s.permit a = true) ∧
    (∃ s : State, ∃ it : Item, let a := hIdx it.handle; ItemFresh s Opc.axisDisable it ∧ (s.axis a).st = .ready ∧ (s.axis a).moved = false ∧ (s.axis a).planRest = true) ∧
    (∃ s : State, ∃ a : Nat, (s.axis a).st = .admitWait ∧ (s.axis a).enCycle + s.admitCyc (s.rdFld Reg.axmAdmitTimes 31 16) ≤ s.cyc.n + 1) ∧
    (∃ s : State, ∃ a : Nat, (s.axis a).admitDue = true ∧ (s.axis a).st = .admitWait ∧ (s.axis a).moved = false) ∧
    (∃ s : State, ∃ a : Nat, (s.axis a).st = .enabling ∧ (s.axis a).conds.contains 0x0706 = false ∧ (s.axis a).enStart + s.admitCyc (s.rdFld Reg.axmAdmitTimes 15 0) ≤ s.cyc.n + 1) ∧
    (∃ s : State, ∃ it : Item, let a := hIdx it.handle; ItemFresh s Opc.coefWrite it ∧ (s.axis a).st ≠ .unused ∧ (s.axis a).swapAt = none ∧ it.u 20 2 % 4 = 0 ∧ it.u 20 2 + 4 * it.u 22 1 ≤ 0x600) ∧
    (∃ s : State, ∃ it : Item, let a := hIdx it.handle; ItemFresh s Opc.coefSwap it ∧ (s.axis a).st ≠ .unused ∧ (s.axis a).swapAt = none ∧ (it.u 24 8 = 0 ∨ s.cyc.n ≤ it.u 24 8) ∧ it.u 24 8 ≤ s.cyc.n + 2 ^ 31 ∧ bankOk (s.axis a).other = true) :=
  ⟨⟨axS { bank0 := [(3, 7)] } {}, { itm 1 1 255 [] with handle := 0x100000FF }, { bank0 := [(3, 7)] }, by decide⟩,
   ⟨axS {} { st := .created }, itm 0x02 1 255 [], by decide⟩,
   ⟨axS {} { st := .created }, itm 0x03 1 255 [], by decide⟩,
   ⟨axS {} { st := .ready }, itm 0x04 1 255 [], by decide⟩,
   ⟨axS {} { st := .admitWait, enSeq := some 4 }, 255, by decide⟩,
   ⟨axS {} { admitDue := true, st := .admitWait, enSeq := some 4 }, 255, by decide⟩,
   ⟨axS {} { st := .enabling }, 255, by decide⟩,
   ⟨axS {} { st := .created }, itm 0x0F 1 255 (leBytes 2 0x5FC ++ [1, 0] ++ leBytes 4 77), by decide⟩,
   ⟨axS {} { st := .created, bank1 := [(0x52, 1)] }, itm 0x10 1 255 (leBytes 4 0 ++ leBytes 8 16000), by decide⟩⟩

/-- States and operands that meet the hypotheses of `Obligations.MotionItemsTakeEffect`. -/
theorem witness_MotionItemsTakeEffect :
    (∃ s : State, ∃ it : Item, ∃ v : Int, ∃ o : Int, let a := hIdx it.handle; let d := (s.desc a).pgn; let g := (s.axis a).pgn; let p := moveTarget g it v; ItemFresh s Opc.moveAbs it ∧ hType it.handle = 1 ∧ s.moveReady a ∧ (Opc.moveAbs = Opc.moveAbs → (s.axis a).posValid = true ∧ (d.reqHomed = false ∨ (s.axis a).homed = true)) ∧ itemVal d it 20 = some v ∧ itemVal d it 28 = some o ∧ 0 ≤ o ∧ o ≤ d.vlim ∧ s.latchRefuses a (p - g.sp.p) = none ∧ (s.softOn a = true → softSide d p = none) ∧ (d.blend = true → g.velRunning = false → g.segs.length < 8)) ∧
    (∃ s : State, ∃ it : Item, ∃ v : Int, ∃ o : Int, let a := hIdx it.handle; let d := (s.desc a).pgn; let g := (s.axis a).pgn; let p := moveTarget g it v; ItemFresh s Opc.moveRel it ∧ hType it.handle = 1 ∧ s.moveReady a ∧ (Opc.moveRel = Opc.moveAbs → (s.axis a).posValid = true ∧ (d.reqHomed = false ∨ (s.axis a).homed = true)) ∧ itemVal d it 20 = some v ∧ itemVal d it 28 = some o ∧ 0 ≤ o ∧ o ≤ d.vlim ∧ s.latchRefuses a (p - g.sp.p) = none ∧ (s.softOn a = true → softSide d p = none) ∧ (d.blend = true → g.velRunning = false → g.segs.length < 8)) ∧
    (∃ s : State, ∃ it : Item, let n := hIdx it.handle; let d := (s.la n).decl.pgn; let g := s.pgn (.vm n); ItemFresh s Opc.moveAbs it ∧ hType it.handle = 2 ∧ (s.la n).decl.src = .virtual ∧ it.u 36 1 / 4 % 2 = 0 ∧ 0 ≤ it.s64 28 ∧ (g.velRunning = false → g.segs.length < 8)) ∧
    (∃ s : State, ∃ it : Item, let n := hIdx it.handle; let d := (s.la n).decl.pgn; let g := s.pgn (.vm n); ItemFresh s Opc.moveRel it ∧ hType it.handle = 2 ∧ (s.la n).decl.src = .virtual ∧ it.u 36 1 / 4 % 2 = 0 ∧ 0 ≤ it.s64 28 ∧ (g.velRunning = false → g.segs.length < 8)) ∧
    (∃ s : State, ∃ it : Item, ∃ v : Int, let a := hIdx it.handle; let d := (s.desc a).pgn; let g := (s.axis a).pgn; ItemFresh s Opc.moveVel it ∧ hType it.handle = 1 ∧ s.moveReady a ∧ itemVal d it 20 = some v ∧ v.natAbs ≤ d.vlim ∧ s.latchRefuses a v = none) ∧
    (∃ s : State, ∃ it : Item, let n := hIdx it.handle; ItemFresh s Opc.moveVel it ∧ hType it.handle = 2 ∧ (s.la n).decl.src = .virtual ∧ it.u 36 1 / 4 % 2 = 0) ∧
    (∃ s : State, ∃ it : Item, let a := hIdx it.handle; ItemFresh s Opc.stop it ∧ hType it.handle = 1 ∧ ((s.axis a).st = .motion ∨ (s.axis a).st = .homing) ∧ (s.axis a).moved = false) ∧
    (∃ s : State, ∃ it : Item, let n := hIdx it.handle; ItemFresh s Opc.stop it ∧ hType it.handle = 2 ∧ (s.la n).decl.src = .virtual) ∧
    (∃ s : State, ∃ it : Item, let a := hIdx it.handle; let m := if it.u 20 1 = 0 then (s.desc a).pgn.homeMethod else it.u 20 1; ItemFresh s Opc.home it ∧ (s.axis a).st = .ready ∧ 1 ≤ m ∧ m ≤ 7 ∧ (m = 3 ∨ m = 4 ∨ m = 7 → (s.desc a).chan ≠ none) ∧ (s.axis a).moved = false ∧ (m ≤ 4 → (s.finsOf 3 a).all (fun k => !(s.fin k).masked) = true)) ∧
    (∃ s : State, ∃ it : Item, let a := hIdx it.handle; let m := if it.u 20 1 = 0 then (s.desc a).pgn.homeMethod else it.u 20 1; ItemFresh s Opc.home it ∧ (s.axis a).st = .ready ∧ m = 8) :=
  ⟨⟨moveS { st := .ready, posValid := true }, itm 0x05 1 255 (leBytes 8 (2 ^ 36) ++ leBytes 8 (2 ^ 33)), 2 ^ 36, 2 ^ 33, by decide⟩,
   ⟨moveS { st := .ready }, itm 0x06 1 255 (leBytes 8 (2 ^ 36) ++ leBytes 8 (2 ^ 33)), 2 ^ 36, 2 ^ 33, by decide⟩,
   ⟨vmS, itm 0x05 2 7 (leBytes 8 (2 ^ 36) ++ leBytes 8 (2 ^ 33)), by decide⟩,
   ⟨vmS, itm 0x06 2 7 (leBytes 8 (2 ^ 36) ++ leBytes 8 (2 ^ 33)), by decide⟩,
   ⟨moveS { st := .ready }, itm 0x07 1 255 (leBytes 8 (2 ^ 33)), 2 ^ 33, by decide⟩,
   ⟨vmS, itm 0x07 2 7 (leBytes 8 (2 ^ 33)), by decide⟩,
   ⟨moveS { st := .motion }, itm 0x08 1 255 [], by decide⟩,
   ⟨vmS, itm 0x08 2 7 [], by decide⟩,
   ⟨moveS { st := .ready }, itm 0x09 1 255 ([6]), by decide⟩,
   ⟨moveS { st := .ready }, itm 0x09 1 255 ([8]), by decide⟩⟩

/-- States and operands that meet the hypotheses of `Obligations.FaultConditionsArise`. -/
theorem witness_FaultConditionsArise :
    (∃ s : State, ∃ a : Nat, (fun s a => 3 ≤ (s.axis a).noFb ∧ (s.axis a).st.runsJobs = true) s a ∧ (s.axis a).conds.contains 0x0604 = false) ∧
    (∃ s : State, ∃ a : Nat, (fun s a => (s.desc a).lateLim ≤ (s.axis a).late ∧ (s.axis a).st.runsJobs = true) s a ∧ (s.axis a).conds.contains 0x0605 = false) ∧
    (∃ s : State, ∃ a : Nat, (fun s a => (s.axis a).feChecked = true ∧ (s.desc a).feN ≤ (s.axis a).loop.feCount) s a ∧ (s.axis a).conds.contains 0x0C01 = false) :=
  ⟨⟨axS {} { st := .ready, noFb := 3 }, 255, by decide⟩,
   ⟨axS {} { st := .ready, late := 3 }, 255, by decide⟩,
   ⟨axS {} { st := .ready, posValid := true, loop := { feCount := 4 } }, 255, by decide⟩⟩

/-- States and operands that meet the hypotheses of `Obligations.RestartsAndProfileEnds`. -/
theorem witness_RestartsAndProfileEnds :
    (∃ s : State, s.hostOpen = true) ∧
    (∃ s : State, s.hostOpen = true) ∧
    (∃ s : State, s.hostOpen = true) ∧
    (∃ s : State, ∃ i : Nat, ∃ tag : Nat, ∃ p : Int, ∃ rest : List (Nat × Int), (s.pgn (Who.ofIdx i)).ended = (tag, p) :: rest) ∧
    (∃ s : State, ∃ a : Nat, ∃ side : Nat, (s.axis a).pgn.softDue = some side) ∧
    (∃ s : State, ∃ a : Nat, (s.axis a).st = .homing ∧ (s.axis a).pgn.hStep = 4 ∧ (s.axis a).planRest = true) :=
  ⟨⟨axS {} {}, by decide⟩,
   ⟨axS {} {}, by decide⟩,
   ⟨axS {} {}, by decide⟩,
   ⟨axS {} { pgn := { ended := [(7, 3)] } }, 255, 7, 3, [], by decide⟩,
   ⟨axS {} { pgn := { softDue := some 1 } }, 255, 1, by decide⟩,
   ⟨axS {} { st := .homing, pgn := { hStep := 4 } }, 255, by decide⟩⟩

/-- States and operands that meet the hypotheses of `Obligations.ThinAndStepperEventsTakeEffect`. -/
theorem witness_ThinAndStepperEventsTakeEffect :
    (∃ s : State, ∃ a : Nat, ∃ n : Nat, (s.axis a).thin.lostAt = some n ∧ n < s.cyc.n) ∧
    (∃ s : State, ∃ a : Nat, (s.axis a).thin.cs = .lost ∧ (s.axis a).thin.left = 0 ∧ (s.axis a).thin.rec_ < fld (kw (s.desc a).ky 0x40) 15 8) ∧
    (∃ s : State, ∃ a : Nat, (s.axis a).thin.recRes = some true) ∧
    (∃ s : State, ∃ a : Nat, (s.axis a).thin.cs = .mag ∧ (s.axis a).thin.left = 0 ∧ magFails (s.axis a).thin = false) ∧
    (∃ s : State, ∃ a : Nat, (s.axis a).thin.cs = .align ∧ (s.axis a).thin.left = 0 ∧ (s.axis a).thin.curOk = true) ∧
    (∃ s : State, ∃ a : Nat, startFails (s.desc a).ky (s.thinPer a) (s.axis a).thin = true) ∧
    (∃ s : State, ∃ a : Nat, (s.axis a).thin.cs = .wait ∧ (s.axis a).thin.left = 0) ∧
    (∃ s : State, ∃ a : Nat, thinInduction (s.desc a).ky = false ∧ fld (kw (s.desc a).ky 0x44) 31 16 ≤ (s.axis a).thin.keN ∧ (s.axis a).thin.keN ≠ 0) ∧
    (∃ s : State, ∃ a : Nat, 64 ≤ (s.axis a).thin.ofsN) ∧
    (∃ s : State, ∃ a : Nat, (s.desc a).kind = .stepper ∧ (s.axis a).stepper.hold = false ∧ msCycles (s.rd Reg.cycPeriod).toNat (kw (s.desc a).ky 0x14).toNat ≤ (s.axis a).stepper.zeroV) :=
  ⟨⟨axS {} { thin := { lostAt := some 15 } }, 255, 15, by decide⟩,
   ⟨axS { ky := [(0x40 / 4, 0x100)] } { thin := { cs := .lost } }, 255, by decide⟩,
   ⟨axS {} { thin := { recRes := some true } }, 255, by decide⟩,
   ⟨axS {} { thin := { cs := .mag } }, 255, by decide⟩,
   ⟨axS {} { thin := { cs := .align, curOk := true } }, 255, by decide⟩,
   ⟨axS {} { thin := { cs := .ramp } }, 255, by decide⟩,
   ⟨axS {} { thin := { cs := .wait } }, 255, by decide⟩,
   ⟨axS { ky := [(0x44 / 4, 0x10000)] } { thin := { keN := 1 } }, 255, by decide⟩,
   ⟨axS {} { thin := { ofsN := 64 } }, 255, by decide⟩,
   ⟨axS { kind := .stepper } { stepper := { zeroV := 64 } }, 255, by decide⟩⟩

/-- States and operands that meet the hypotheses of `Obligations.EncodersCountAndInterpolate`. -/
theorem witness_EncodersCountAndInterpolate :
    (∃ s : State, ∃ k : Nat, ∃ a : Bool, ∃ b : Bool, ∃ d : Int, s.linesSettled k ∧ s.encMode k = 1 ∧ s.injSlots 0x13 k = [] ∧ s.injSlots 0x15 k = [] ∧ quadStep (s.enc k).a (s.enc k).b a b = some d ∧ d ≠ 0 ∧ ((s.enc k).counted = false ∨ 800 / max (s.rdFld (Reg.eiuQcfg k) 23 16) 1 ≤ s.clk - (s.enc k).edgeClk)) ∧
    (∃ s : State, ∃ k : Nat, ∃ a : Bool, ∃ b : Bool, s.linesSettled k ∧ encCounts (s.encMode k) = true ∧ s.injSlots 0x13 k = [] ∧ quadStep (s.enc k).a (s.enc k).b a b = none) ∧
    (∃ s : State, ∃ k : Nat, (s.enc k).gate = true ∧ (s.rdFld (Reg.eiuLines k) 23 0 = 0 ∨ (s.enc k).idxSeen = false)) ∧
    (∃ s : State, ∃ k : Nat, (s.encMode k = 1 ∨ s.encMode k = 2) ∧ (s.enc k).everSet = false ∧ s.cyc.running = true ∧ s.encSettled k = true) ∧
    (∃ s : State, ∃ k : Nat, encSc (s.encMode k) = true ∧ s.cyc.running = true ∧ s.convAt (s.enc k).convK ≤ s.now ∧ (s.enc k).convK < s.per / convU ∧ s.injSlots 0x17 k = []) ∧
    (∃ s : State, ∃ k : Nat, 4 ≤ (s.enc k).badRun ∧ (s.enc k).signal = false) ∧
    (∃ s : State, ∃ k : Nat, ∃ p : Int, (s.enc k).fitFrom = some p ∧ (s.encDecl k).lines * 4 * 2 ^ 32 ≤ ((s.enc k).pos - p).natAbs) :=
  ⟨⟨{ encS 1 { pos := 3 } with clk := 1000 }, 7, false, true, 1, by decide⟩,
   ⟨{ encS 1 { a := true } with clk := 1000 }, 7, false, true, by decide⟩,
   ⟨encS 1 { gate := true, count := -3 }, 7, by decide⟩,
   ⟨encS 2 {}, 7, by decide⟩,
   ⟨encS 2 { count := 3, scSeen := true, convs := [(5, 0)] }, 7, by decide⟩,
   ⟨encS 2 { badRun := 4 }, 7, by decide⟩,
   ⟨encS 2 { fitFrom := some 0, pos := 4398046511104 }, 7, 0, by decide⟩⟩

/-- States and operands that meet the hypotheses of `Obligations.SerialReadsComplete`. -/
theorem witness_SerialReadsComplete :
    (∃ s : State, ∃ k : Nat, ∃ next : Bool, let at_ := s.cyc.c0 + (if next then s.per else 0); s.cyc.running = true ∧ next = decide (s.cyc.c0 + s.per ≤ s.now + s.latchDelay k + clkU / 2) ∧ at_ ≤ s.now + s.latchDelay k + clkU / 2 ∧ s.now + s.latchDelay k < at_ + clkU ∧ s.readDue k (s.cyc.n + b2n next) = true ∧ (s.enc k).reading = false ∧ (s.enc k).readFor ≠ some at_ ∧ (encBiss (s.encMode k) = true ∨ (s.enc k).serEnd + s.rdFld (Reg.eiuSerTiming k) 31 22 * 100 * nsU ≤ s.now)) ∧
    (∃ s : State, ∃ k : Nat, ∃ frame : Nat, ∃ ack : Nat, ∃ delay : Nat, ∃ warn : Bool, (s.enc k).reading = true ∧ (s.enc k).readAt + s.frameTime k ack delay ≤ s.now ∧ s.injSlots 0x16 k = [] ∧ (s.serJudge k frame ack delay).2 = .good warn) ∧
    (∃ s : State, ∃ k : Nat, ∃ frame : Nat, ∃ ack : Nat, ∃ delay : Nat, ∃ kind : Nat, (s.enc k).reading = true ∧ (s.enc k).readAt + s.frameTime k ack delay ≤ s.now ∧ s.injSlots 0x16 k = [] ∧ (s.serJudge k frame ack delay).2 = .bad kind) ∧
    (∃ s : State, ∃ k : Nat, s.hostOpen = true ∧ (s.encMode k = 5 ∨ s.encMode k = 6)) ∧
    (∃ s : State, ∃ k : Nat, s.hostOpen = true ∧ (s.enc k).biss = false) ∧
    (∃ s : State, ∃ k : Nat, s.hostOpen = true ∧ (s.enc k).biss = false) ∧
    (∃ s : State, ∃ k : Nat, (s.enc k).biss = true ∧ 40 ≤ (s.enc k).bissFrames) :=
  ⟨⟨{ encS 4 {} with cyc := { running := true, n := 16000, c0 := 10 ^ 15 } }, 7, false, by decide⟩,
   ⟨encS 3 { reading := true }, 7, 0xFFFF, 1, 0, false, by decide⟩,
   ⟨encS 4 { reading := true }, 7, 0xFFFF, 255, 0, 3, by decide⟩,
   ⟨encS 6 {}, 7, by decide⟩,
   ⟨encS 4 {}, 7, by decide⟩,
   ⟨encS 4 {}, 7, by decide⟩,
   ⟨encS 4 { biss := true, bissFrames := 40 }, 7, by decide⟩⟩

/-- States and operands that meet the hypotheses of `Obligations.ProbesSamplesAndStandstill`. -/
theorem witness_ProbesSamplesAndStandstill :
    (∃ s : State, ∃ k : Nat, ∃ p : Nat, s.hostOpen = true ∧ p < (s.enc k).probes.length) ∧
    (∃ s : State, ∃ k : Nat, ∃ p : Nat, s.hostOpen = true ∧ p < (s.enc k).probes.length ∧ (((s.enc k).probe p).late = none ∨ ((s.enc k).probe p).full = false)) ∧
    (∃ s : State, ∃ k : Nat, ∃ p : Nat, ∃ u : Nat, s.hostOpen = true ∧ p < (s.enc k).probes.length ∧ ((s.enc k).probe p).late = some u ∧ ((s.enc k).probe p).full = true) ∧
    (∃ s : State, ∃ a : Nat, (s.axis a).est.standstill = false ∧ (s.axis a).est.edges.headD 0 + (s.desc a).speed.tSs * usU ≤ s.now) ∧
    (∃ s : State, ∃ k : Nat, k < 0x8000 ∧ (s.enc k).est.standstill = false ∧ (s.enc k).est.edges.headD 0 + (s.encCfg k).tSs * usU ≤ s.now) ∧
    (∃ s : State, ∃ k : Nat, s.cyc.running = true ∧ s.encMode k ≠ 0 ∧ (s.enc k).posted.contains 0 = false ∧ (s.enc k).sValid = true ∧ s.sampleAt 0 + s.postDelay k ≤ s.now) :=
  ⟨⟨encS 1 {}, 7, 1, by decide⟩,
   ⟨encS 1 { probes := [{}, { full := true, armed := true }] }, 7, 1, by decide⟩,
   ⟨encS 1 { probes := [{}, { full := true, armed := true, late := some (10 ^ 15) }] }, 7, 1, 10 ^ 15, by decide⟩,
   ⟨axS {} { st := .ready, est := { standstill := false } }, 255, by decide⟩,
   ⟨encS 1 { est := { standstill := false } }, 7, by decide⟩,
   ⟨encS 1 { sValid := true, sPos := 5 }, 7, by decide⟩⟩

/-- States and operands that meet the hypotheses of `Obligations.FastInputsAndOutputsAct`. -/
theorem witness_FastInputsAndOutputsAct :
    (∃ s : State, ∃ k : Nat, (s.fin k).eff = true ∧ (s.fin k).stuck = false ∧ s.rdFld (Reg.dioInTime k) 31 16 ≠ 0 ∧ (s.fin k).actSince + s.rdFld (Reg.dioInTime k) 31 16 * msU + clkU ≤ s.now) ∧
    (∃ s : State, ∃ k : Nat, (s.fin k).masked = true ∧ (s.fin k).filt = false ∧ max (s.fin k).maskedAt (s.fin k).acc + s.rdFld (Reg.dioInTime k) 15 0 * msU ≤ s.now) ∧
    (∃ s : State, ∃ k : Nat, (s.fin k).forced = true ∧ (s.fin k).filt = false ∧ (s.fin k).acc + s.finWin k ≤ s.now) ∧
    (∃ s : State, s.hostOpen = true) ∧
    (∃ s : State, s.hostOpen = true) ∧
    (∃ s : State, ∃ k : Nat, ∃ e : OutEdge, ∃ rest : List OutEdge, (s.fout k).queue = e :: rest ∧ e.t ≤ s.now) :=
  ⟨⟨finS { filt := true }, 15, by decide⟩,
   ⟨finS { masked := true }, 15, by decide⟩,
   ⟨finS { forced := true }, 15, by decide⟩,
   ⟨{ axS {} {} with regs := regsOf [(Reg.dioOutCfg 15, 0), (Reg.dioOutCfg 0, 0x40000000)] }, by decide⟩,
   ⟨{ axS {} {} with dio := { outs := [(0, { level := true }), (15, { level := true })] } }, by decide⟩,
   ⟨{ axS {} {} with dio := { outs := [(15, { queue := [{ t := 5, level := true }] })] } }, 15, { t := 5, level := true }, [], by decide⟩⟩

/-- States and operands that meet the hypotheses of `Obligations.LineAngleEventsTakeEffect`. -/
theorem witness_LineAngleEventsTakeEffect :
    (∃ s : State, ∃ n : Nat, (s.la n).st = .coast ∧ (s.la n).endAt ≤ s.now) ∧
    (∃ s : State, ∃ n : Nat, (s.la n).st = .rejoin ∧ (s.la n).endAt ≤ s.now) ∧
    (∃ s : State, ∃ n : Nat, ((s.la n).decl.src = .periodicFin ∨ (s.la n).decl.src = .periodicPps) ∧ (s.la n).freq ≠ 0 ∧ (s.la n).missRef + (s.la n).halfPeriods 3 ≤ s.now) ∧
    (∃ s : State, ∃ i : Nat, ∃ c : CamCopy, s.lau.copies.find? (fun x => decide (x.index = i)) = some c) ∧
    (∃ s : State, s.cyc.running = true ∧ s.lau.posted = false) ∧
    (∃ s : State, ∃ k : Nat, ∃ pin : Bool, let lvl := pin != s.rdBit (Reg.dioInCfg k) 31; k < 16 ∧ (s.fin k).filt = !lvl ∧ (s.fin k).acc + s.finFilt k ≤ s.now ∧ s.injSlots 0x18 k = []) :=
  ⟨⟨laS { st := .coast }, 15, by decide⟩,
   ⟨laS { st := .rejoin, corr := 5 }, 15, by decide⟩,
   ⟨laS { decl := { src := .periodicFin }, freq := 10 * 2 ^ 24 }, 15, by decide⟩,
   ⟨{ laS {} with lau := { copies := [{ seq := 3, index := 255, src := 0, hdr := { n := 2, span := 9, periodic := true } }] } }, 255, { seq := 3, index := 255, src := 0, hdr := { n := 2, span := 9, periodic := true } }, by decide⟩,
   ⟨laS {}, by decide⟩,
   ⟨laS {}, 15, true, by decide⟩⟩

/-- States and operands that meet the hypotheses of `Obligations.LinkAndCompareItemsTakeEffect`. -/
theorem witness_LinkAndCompareItemsTakeEffect :
    (∃ s : State, ∃ it : Item, let a := hIdx it.handle; let mh := w32 (it.u 20 4); let m : Master := if hType mh = 2 then .la (hIdx mh) else if it.u 52 1 % 2 = 1 then .axisSp (hIdx mh) else .axisFb (hIdx mh); ItemFresh s Opc.gearSet it ∧ hType it.handle = 1 ∧ s.handleCheck [1, 2] mh = none ∧ (it.u 52 1 / 2 % 2 = 1 → s.handleCheck [5] (w32 (it.u 24 4)) = none) ∧ (s.axis a).st = .ready ∧ (s.axis a).moved = false ∧ s.linked a = false ∧ gearBad it false = false ∧ s.chainBad a m = false ∧ s.masterOut m = false ∧ it.u 52 1 / 4 % 2 = 0) ∧
    (∃ s : State, ∃ it : Item, ∃ l : Link, let a := hIdx it.handle; ItemFresh s Opc.gearChangeAt it ∧ hType it.handle = 1 ∧ s.lau.links.find? (fun p => decide (p.1 = a)) = some (a, l) ∧ l.next = none ∧ (it.u 52 1 / 2 % 2 = 1 → s.handleCheck [5] (w32 (it.u 24 4)) = none) ∧ gearBad it true = false ∧ s.masterOut l.master = false) ∧
    (∃ s : State, ∃ it : Item, let i := it.u 20 2; ItemTaken s Opc.camSet it ∧ i < s.rdFld Reg.lauCfg 15 7 ∧ 2 ≤ it.u 32 4 ∧ it.u 32 4 ≤ 65536 ∧ it.u 36 8 ≠ 0 ∧ it.u 24 8 % 16 = 0 ∧ s.hostRegion (it.u 24 8) (16 * it.u 32 4) = true ∧ s.camUsed i = false) ∧
    (∃ s : State, ∃ it : Item, let u := it.u 20 1; ItemTaken s Opc.compareArm it ∧ it.u 21 1 % 4 ≠ 0 ∧ u ≤ 127 ∧ s.handleCheck [1, 2] (w32 (it.u 24 4)) = none ∧ it.u 21 1 / 4 % 4 ≠ 3 ∧ (it.u 21 1 / 4 % 4 = 2 → it.u 36 8 = 0) ∧ it.u 44 4 ≤ 1000000 ∧ s.armKindOk (armKind it) = true) ∧
    (∃ s : State, ∃ it : Item, let u := it.u 20 1; ItemTaken s Opc.compareArm it ∧ it.u 21 1 % 4 = 0 ∧ u ≤ 127) :=
  ⟨⟨laS { st := .valid, decl := { src := .virtual } }, itm 0x0A 1 255 (leBytes 4 (mkHandle 2 1 15).toNat ++ leBytes 8 3 ++ leBytes 4 5 ++ leBytes 8 0 ++ leBytes 8 0 ++ [0]), by decide⟩,
   ⟨{ laS {} with lau := { links := [(255, { master := .la 15, kind := .ratio 1 1, sp := 0, mPrev := none })], angles := [(15, { st := .valid })] } }, itm 0x0B 1 255 (leBytes 4 0 ++ leBytes 8 3 ++ leBytes 4 5 ++ leBytes 8 0 ++ leBytes 8 0 ++ [0]), { master := .la 15, kind := .ratio 1 1, sp := 0, mPrev := none }, by decide⟩,
   ⟨{ laS {} with regs := regsOf [(Reg.lauCfg, 0x80)], cfl := { body := { line := { regions := [{ base := 0, len := 4096, host := true }] } } } }, { itm 0x0C 0 0 (leBytes 2 0 ++ leBytes 2 0 ++ leBytes 8 16 ++ leBytes 4 2 ++ leBytes 8 9 ++ [1]) with handle := 0 }, by decide⟩,
   ⟨{ laS { decl := { src := .virtual } } with regs := regsOf [(Reg.dioOutCfg 15, 0xC0000000)] }, { itm 0x0D 0 0 ([127, 1] ++ leBytes 2 0 ++ leBytes 4 (mkHandle 2 1 15).toNat ++ leBytes 8 7 ++ leBytes 8 0 ++ leBytes 4 1000000 ++ [15, 0]) with handle := 0 }, by decide⟩,
   ⟨laS {}, { itm 0x0D 0 0 [127, 0] with handle := 0 }, by decide⟩⟩

/-- States and operands that meet the hypotheses of `Obligations.CapturesBeginAndEnd`. -/
theorem witness_CapturesBeginAndEnd :
    (∃ s : State, ∃ it : Item, let c := hIdx it.handle; ItemFresh s Opc.captureArm it ∧ it.u 20 1 % 4 ≠ 0 ∧ c < 32 ∧ armBad it c s.cycleNo = false ∧ (s.capCh c).st = .idle ∧ (s.capCh c).busy = []) ∧
    (∃ s : State, ∃ it : Item, let c := hIdx it.handle; ItemFresh s Opc.captureArm it ∧ it.u 20 1 % 4 = 0 ∧ it.u 20 1 / 4 = 0 ∧ c < 32 ∧ (s.capCh c).st = .pre) ∧
    (∃ s : State, ∃ c : Nat, c < 32 ∧ (s.capCh c).st = .post ∧ (s.capCh c).mode = 1 ∧ (s.capCh c).rearm = false ∧ (s.capCh c).trigCycle + (s.capCh c).post ≤ s.cycleNo) ∧
    (∃ s : State, ∃ c : Nat, c < 32 ∧ (s.capCh c).st = .pre ∧ (s.capCh c).mode = 3 ∧ (s.capCh c).armCycle + (s.capCh c).autoT ≤ s.cycleNo) :=
  ⟨⟨capS {}, itm 0x0E 3 31 ([1, 0] ++ leBytes 2 0 ++ leBytes 8 0 ++ leBytes 4 8 ++ leBytes 4 8), by decide +kernel⟩,
   ⟨capS { st := .pre, mode := 1 }, itm 0x0E 3 31 [0], by decide +kernel⟩,
   ⟨capS { st := .post, mode := 1 }, 31, by decide⟩,
   ⟨capS { st := .pre, mode := 3 }, 31, by decide⟩⟩

/-- States and operands that meet the hypotheses of `Obligations.UplinkFramesAndRecordsLand`. -/
theorem witness_UplinkFramesAndRecordsLand :
    (∃ s : State, ∃ p : Nat, ∃ fr : List Byte, ∃ e : SlotEnt, FrameAccepted s p 2 fr e ∧ s.injSlots 1 3 = [] ∧ s.injSlots 2 3 = [] ∧ s.injSlots 0x0B p = [] ∧ s.now + wireTime (1 + fr.length + 4) ≤
      s.cyc.c0 + e.start * 1024 + wireTime (frameOver + ((s.recsOf e).map (fun r => ulLen r.ext)).sum) + s.guard) ∧
    (∃ s : State, ∃ p : Nat, ∃ k : Nat, ∃ f : RxFrame, ∃ e : SlotEnt, ∃ r : RecEnt, ∃ rb : List Byte, RecordLands s p k f e r rb ∧ (s.landed (e.first + k)).on (decide (4 ≤ p)) = none ∧ s.cyc.ulEnd.contains (s.closeOf e r) = false) ∧
    (∃ s : State, ∃ h : Nat, s.cyc.running = true ∧ h < 3 ∧ s.cyc.ulEnd.contains h = false ∧ s.closeAt h ≤ s.now) ∧
    (∃ s : State, ∃ p : Nat, ∃ n : Nat, p < 8 ∧ ¬ s.windowOpen p ∧ s.directNode (p % 4) = some n) :=
  ⟨⟨upS 0 {}, 7, upFrame 2 1 [], (upS 0 {}).slotEnt 0, by decide +kernel⟩,
   ⟨{ upS 0 { b := { st := .joined } } with slc := { nodes := [(255, { b := { st := .joined } })], rx := [(7, { slot := 0, cycle := 16000, count := 1, arr := 0, body := upRec, start := 10 ^ 15 - 10 ^ 8 })] } }, 7, 0, { slot := 0, cycle := 16000, count := 1, arr := 0, body := upRec, start := 10 ^ 15 - 10 ^ 8 }, (upS 0 {}).slotEnt 0, (upS 0 {}).recEnt 0, upRec, by decide +kernel⟩,
   ⟨axS {} { st := .ready }, 0, by decide⟩,
   ⟨{ upS 0 {} with regs := regsOf [(Reg.slcNodeTab 1020, 0x8C000000)] }, 7, 255, by decide, (by rintro ⟨q, hq, -⟩; cases (show q ∈ ([] : List (Nat × SlotEnt)) from hq)), by decide +kernel⟩⟩

/-- States and operands that meet the hypotheses of `Obligations.SafeJoinAndStatusFramesAreTaken`. -/
theorem witness_SafeJoinAndStatusFramesAreTaken :
    (∃ s : State, ∃ p : Nat, ∃ fr : List Byte, ∃ e : SlotEnt, ∃ c : Nat, ∃ d : ConnDecl, ∃ q : Nat, FrameAccepted s p 4 fr e ∧ e.kind = 1 ∧ s.injSlots 0x1F 0 = [] ∧ s.safety.conns.zipIdx.find? (fun x => decide (x.1.down = false ∧ x.1.slot = (readHdr fr).slot ∧ x.1.node = e.pair)) = some (d, c) ∧ judgePdu d s.safety.seqWin (!(s.conn c).started || (s.conn c).lost) (s.conn c).last ((fr.drop 24).take e.body) = .ok q) ∧
    (∃ s : State, ∃ p : Nat, ∃ fr : List Byte, ∃ e : SlotEnt, FrameAccepted s p 5 fr e ∧ e.kind = 2 ∧ recOk (readHdr fr).cycle true ((fr.drop 24).take 48) = true ∧ s.joinResult (leAt (fr.drop 24) 0 1) (decide (4 ≤ p)) (leAt (fr.drop 24) 4 4) (p % 4) = 0) ∧
    (∃ s : State, ∃ p : Nat, ∃ fr : List Byte, ∃ e : SlotEnt, FrameAccepted s p 5 fr e ∧ e.kind = 2 ∧ recOk (readHdr fr).cycle true ((fr.drop 24).take 48) = true ∧ s.joinResult (leAt (fr.drop 24) 0 1) (decide (4 ≤ p)) (leAt (fr.drop 24) 4 4) (p % 4) ≠ 0) ∧
    (∃ s : State, ∃ p : Nat, ∃ fr : List Byte, ∃ e : SlotEnt, FrameAccepted s p 8 fr e ∧ e.kind = 2 ∧ recOk (readHdr fr).cycle true ((fr.drop 24).take 48) = true) :=
  ⟨⟨upS 1 {}, 7, upFrame 4 1 (mkPdu 5 9 10 0 [0, 0, 0, 0]), (upS 1 {}).slotEnt 0, 0, { connId := 5, node := 255, down := false, slot := 0, len := 16 }, 9, by decide +kernel⟩,
   ⟨upS 2 {}, 7, upFrame 5 1 upRec, (upS 2 {}).slotEnt 0, by decide +kernel⟩,
   ⟨upS 2 { b := { st := .joined } }, 7, upFrame 5 1 upRec, (upS 2 {}).slotEnt 0, by decide +kernel⟩,
   ⟨upS 2 {}, 7, upFrame 8 1 upRec, (upS 2 {}).slotEnt 0, by decide +kernel⟩⟩

/-- States and operands that meet the hypotheses of `Obligations.LinksChangeState`. -/
theorem witness_LinksChangeState :
    (∃ s : State, ∃ p : Nat, p < 8 ∧ (s.port p).link = true) ∧
    (∃ s : State, ∃ p : Nat, p < 8 ∧ (s.port p).link = false) ∧
    (∃ s : State, ∃ n : Nat, ∃ b : Bool, ((s.node n).link b).st = .joined ∧ ((s.node n).link b).fenceDue = 0 ∧ (8 ≤ ((s.node n).link b).viol ∨ s.nLost ≤ ((s.node n).link b).silent)) ∧
    (∃ s : State, ∃ n : Nat, ∃ b : Bool, ((s.node n).link b).st = .joining ∧ 16 ≤ ((s.node n).link b).waited) ∧
    (∃ s : State, ∃ n : Nat, ∃ b : Bool, 16 ≤ ((s.node n).link b).trimRun ∧ ((s.node n).link b).trimDone = false) ∧
    (∃ s : State, ∃ n : Nat, 16 ≤ (s.node n).asymRun ∧ (s.node n).asymDone = false) :=
  ⟨⟨{ slc := { ports := [(7, { link := true })] } }, 7, by decide⟩,
   ⟨{}, 7, by decide⟩,
   ⟨upS 0 { b := { st := .joined, viol := 8 } }, 255, true, by decide⟩,
   ⟨upS 0 { b := { st := .joining, waited := 16 } }, 255, true, by decide⟩,
   ⟨upS 0 { b := { trimRun := 16 } }, 255, true, by decide⟩,
   ⟨upS 0 { asymRun := 16 }, 255, by decide⟩⟩

/-- States and operands that meet the hypotheses of `Obligations.DownlinkAndActuation`. -/
theorem witness_DownlinkAndActuation :
    (∃ s : State, s.cyc.running = true ∧ s.cyc.atDone = false ∧ s.instant Reg.cycAct ≤ s.now) ∧
    (∃ s : State, ∃ k : Nat, s.cyc.running = true ∧ k < s.slotCount ∧ (s.slotEnt k).down = true ∧ (s.slotEnt k).active s.cyc.n = true ∧ s.slc.sent.contains k = false ∧ s.cyc.c0 + (s.slotEnt k).start * 1024 ≤ s.now) :=
  ⟨⟨axS {} {}, by decide⟩,
   ⟨jobS {}, 0, by decide⟩⟩

/-- States and operands that meet the hypotheses of `Obligations.SyncAndPeerDelayMessagesAct`. -/
theorem witness_SyncAndPeerDelayMessagesAct :
    (∃ s : State, ∃ p : Nat, ∃ m : SyncMsg, p < 3 ∧ s.syncFits p m = true ∧ s.injSlots 0x10 p = [] ∧ (s.tport p).ignore = 0 ∧ m.twoStep = false) ∧
    (∃ s : State, ∃ p : Nat, ∃ m : SyncMsg, p < 3 ∧ s.syncFits p m = true ∧ s.injSlots 0x10 p = [] ∧ (s.tport p).ignore = 0 ∧ m.twoStep = true) ∧
    (∃ s : State, ∃ p : Nat, ∃ m : SyncMsg, ∃ rx : Nat, ∃ c : Int, p < 3 ∧ s.syncFits p m = true ∧ (s.tport p).sync = some (m.seq, rx, c)) ∧
    (∃ s : State, ∃ p : Nat, s.pdOn p = true ∧ ptpDue (s.tport p).sentReq (s.ptpInterval 23 20) s.now = true) ∧
    (∃ s : State, ∃ p : Nat, s.pdOn p = true) ∧
    (∃ s : State, ∃ p : Nat, ∃ m : PdelayResp, ∃ t1 : Nat, s.pdOn p = true ∧ (s.tport p).reqAt = some t1 ∧ m.seq = (s.tport p).reqSeq ∧ m.domain = s.rdFld Reg.tbuPtpCfg 7 0 ∧ s.now < t1 + 10 * msU ∧ ((s.tport p).hist = [] ∨ ((meanDelay t1 s.now m.turn : Int) - meanOf (s.tport p).hist).natAbs ≤ 3200)) ∧
    (∃ s : State, ∃ p : Nat, ∃ t1 : Nat, p < 3 ∧ (s.tport p).reqAt = some t1 ∧ t1 + 10 * msU ≤ s.now) :=
  ⟨⟨timeS { st := .locked, slave := 2, lastSync := 10 ^ 15, ports := [(2, { pst := .slave, reqAt := some (10 ^ 15 - 99), ann := some { domain := 0, p1 := 1, cls := 6, acc := 3, var := 4, p2 := 5, id := 9, steps := 0, sender := 9 } })] }, 2, { domain := 0, sender := 9, seq := 4, twoStep := false, origin := 10 ^ 15, corr := -3 }, by decide⟩,
   ⟨timeS { st := .locked, slave := 2, lastSync := 10 ^ 15, ports := [(2, { pst := .slave, reqAt := some (10 ^ 15 - 99), ann := some { domain := 0, p1 := 1, cls := 6, acc := 3, var := 4, p2 := 5, id := 9, steps := 0, sender := 9 } })] }, 2, { domain := 0, sender := 9, seq := 4, twoStep := true, origin := 10 ^ 15, corr := -3 }, by decide⟩,
   ⟨timeS { st := .locked, slave := 2, ports := [(2, { pst := .slave, sync := some (4, 10 ^ 15 - 5, 2) })] }, 2, { domain := 0, sender := 9, seq := 4, twoStep := true, origin := 10 ^ 15, corr := -3 }, 10 ^ 15 - 5, 2, by decide⟩,
   ⟨timeS { st := .locked, slave := 2, lastSync := 10 ^ 15, ports := [(2, { pst := .slave, reqAt := some (10 ^ 15 - 99), ann := some { domain := 0, p1 := 1, cls := 6, acc := 3, var := 4, p2 := 5, id := 9, steps := 0, sender := 9 } })] }, 2, by decide⟩,
   ⟨timeS { st := .locked, slave := 2, lastSync := 10 ^ 15, ports := [(2, { pst := .slave, reqAt := some (10 ^ 15 - 99), ann := some { domain := 0, p1 := 1, cls := 6, acc := 3, var := 4, p2 := 5, id := 9, steps := 0, sender := 9 } })] }, 2, by decide⟩,
   ⟨timeS { st := .locked, slave := 2, lastSync := 10 ^ 15, ports := [(2, { pst := .slave, reqAt := some (10 ^ 15 - 99), ann := some { domain := 0, p1 := 1, cls := 6, acc := 3, var := 4, p2 := 5, id := 9, steps := 0, sender := 9 } })] }, 2, { domain := 0, seq := 0, turn := 9, tlv := none }, 10 ^ 15 - 99, by decide⟩,
   ⟨timeS { ports := [(2, { reqAt := some 0 })] }, 2, 0, by decide⟩⟩

/-- States and operands that meet the hypotheses of `Obligations.ServoStatesAndAnnounces`. -/
theorem witness_ServoStatesAndAnnounces :
    (∃ s : State, ∃ p : Nat, ∃ a : Announce, p < 3 ∧ s.portLink p = true ∧ a.domain = s.rdFld Reg.tbuPtpCfg 7 0 ∧ a.sender ≠ s.fuses.serial.toNat) ∧
    (∃ s : State, s.tbu.st = .listen ∧ s.pilotish = false ∧ s.tbu.listenAt + s.annTimeout ≤ s.now ∧ s.bmcaPick = none) ∧
    (∃ s : State, (s.tbu.st = .locking ∨ s.tbu.st = .unsync) ∧ 16 ≤ s.tbu.good) ∧
    (∃ s : State, (s.tbu.st = .locking ∨ s.tbu.st = .locked) ∧ 8 ≤ s.tbu.bad ∧ s.cyc.running = true) ∧
    (∃ s : State, s.holdCause ≠ none) ∧
    (∃ s : State, 64 ≤ s.tbu.asymRun ∧ s.tbu.asymDone = false) ∧
    (∃ s : State, ∃ p : Nat, p < 3 ∧ (s.tport p).pst = .master ∧ ptpDue (s.tport p).sentSync (s.ptpInterval 19 16) s.now = true) ∧
    (∃ s : State, ∃ p : Nat, p < 3 ∧ (s.tport p).pst = .master ∧ ptpDue (s.tport p).sentAnn (s.ptpInterval 27 24) s.now = true) ∧
    (∃ s : State, ∃ p : Nat, s.portLink p = true) :=
  ⟨⟨timeS { st := .locked, slave := 2, lastSync := 10 ^ 15, ports := [(2, { pst := .slave, reqAt := some (10 ^ 15 - 99), ann := some { domain := 0, p1 := 1, cls := 6, acc := 3, var := 4, p2 := 5, id := 9, steps := 0, sender := 9 } })] }, 2, { domain := 0, p1 := 1, cls := 6, acc := 3, var := 4, p2 := 5, id := 9, steps := 0, sender := 9 }, by decide⟩,
   ⟨timeS { st := .listen }, by decide⟩,
   ⟨timeS { st := .locking, good := 16, slave := 2 }, by decide⟩,
   ⟨timeS { st := .locked, bad := 8, slave := 2, offset := -700 }, by decide⟩,
   ⟨timeS { st := .locked, slave := 2 }, by decide⟩,
   ⟨timeS { asymRun := 64 }, by decide⟩,
   ⟨timeS { ports := [(2, { pst := .master })] }, 2, by decide⟩,
   ⟨timeS { ports := [(2, { pst := .master })] }, 2, by decide⟩,
   ⟨timeS { st := .locked, slave := 2, lastSync := 10 ^ 15, ports := [(2, { pst := .slave, reqAt := some (10 ^ 15 - 99), ann := some { domain := 0, p1 := 1, cls := 6, acc := 3, var := 4, p2 := 5, id := 9, steps := 0, sender := 9 } })] }, 2, by decide⟩⟩

/-- States and operands that meet the hypotheses of `Obligations.PpsAndPlantTimeAct`. -/
theorem witness_PpsAndPlantTimeAct :
    (∃ s : State, ∃ h : Nat, s.tbu.ppsHigh = some h ∧ h + s.rdFld Reg.tbuPpsCfg 18 0 * usU ≤ s.now) ∧
    (∃ s : State, ∃ h : Nat, s.tbu.ppsHigh = none ∧ s.ppsInstant = some h ∧ s.tbu.ppsLast ≠ some h ∧ (s.tbu.st = .locked ∨ s.tbu.st = .unsync ∨ s.tbu.st = .holdover ∨ s.tbu.st = .lantern)) ∧
    (∃ s : State, s.rdFld Reg.tbuPpsCfg 24 23 = 1) ∧
    (∃ s : State, s.ppsRules = true ∧ s.cyc.running = false ∧ s.tbu.ppsStep = false) ∧
    (∃ s : State, ∃ h : Nat, s.ppsRules = true ∧ s.tbu.ppsOk = some h ∧ s.tbu.ppsLost = false ∧ h + 2 * secTicks ≤ s.now) :=
  ⟨⟨ppsS 5 { ppsHigh := some 0 }, 0, by decide⟩,
   ⟨{ ppsS 0x40000005 { st := .locked } with ft := 5 * secTicks * 2 ^ 32 }, 5 * secTicks, by decide⟩,
   ⟨ppsS 0x800000 {}, by decide⟩,
   ⟨ppsS 0x1000000 { st := .lantern }, by decide⟩,
   ⟨ppsS 0x1000000 { st := .lantern, ppsOk := some 0 }, 0, by decide⟩⟩

/-- States and operands that meet the hypotheses of `Obligations.FabricMembersAndData`. -/
theorem witness_FabricMembersAndData :
    (∃ s : State, s.glb.opened = true ∧ s.glb.st ≠ .off ∧ (s.fbr.sentAt = none ∨ ∃ u, s.fbr.sentAt = some u ∧
      u + (if s.glb.st = .discover ∨ s.glb.st = .sync then msU else 1024 * s.per) ≤ s.now)) ∧
    (∃ s : State, ∃ p : Nat, ∃ fr : List Byte, ∃ h : FabHdr, ∃ body : List Byte, FabArrives s p fr h body ∧ h.ftype = 0x11 ∧ body.length = 64 ∧ leAt body 0 8 ≠ s.fuses.serial.toNat) ∧
    (∃ s : State, ∃ i : Nat, ∃ auto : Nat, s.glb.st = .discover ∧ s.glb.idValid = false ∧ s.idNow = some (some (i, auto))) ∧
    (∃ s : State, ∃ c : Nat, s.fbr.known.contains c = true ∧ 16 ≤ Tab.get 0 s.fbr.noRoute c) ∧
    (∃ s : State, ∃ p : Nat, ∃ up : Bool, p < 2 ∧ p < s.fbr.links.length ∧ s.fabUp p = !up ∧ (up = true → s.pem.lanes.contains (16 * 3 + p) = true)) ∧
    (∃ s : State, s.cyc.running = true ∧ s.glb.idValid = true ∧ s.fabOrigin = true ∧ s.fbr.conflict = false ∧ s.rdFld (Reg.fbrFslotLen s.glb.id) 31 16 ≠ 0 ∧ (s.rdFld (Reg.fbrFslotLen s.glb.id) 15 0).testBit (s.cyc.n % 16) = true ∧ s.fbr.sentData ≠ some s.cyc.n ∧ s.cyc.c0 + (s.rd (Reg.fbrFslotStart s.glb.id)).toNat * 1024 ≤ s.now) ∧
    (∃ s : State, ∃ p : Nat, ∃ fr : List Byte, ∃ h : FabHdr, ∃ body : List Byte, FabArrives s p fr h body ∧ h.ftype = 0x12 ∧ h.noId = false ∧ (h.origin ≠ s.glb.id ∨ s.glb.idValid = false) ∧ s.fbr.taken.contains (0x12, h.origin, h.cycle, 0) = false) ∧
    (∃ s : State, ∃ p : Nat, ∃ h : HeldFrame, s.fbr.held.find? (fun x => decide (x.port = p)) = some h ∧ s.fabBlocked h.bytes.length = false) ∧
    (∃ s : State, ∃ i : Nat, ∃ x : Import, s.ctrl.imports[i]? = some x ∧ x.src < 64 ∧ max 1 (s.rdFld Reg.fbrCfg 11 8) ≤ Tab.get 0 s.fbr.stale i ∧ s.mapBit Reg.fbrStaleMapLo x.src = false) :=
  ⟨⟨fabS {}, by decide, by decide, .inl rfl⟩,
   ⟨fabS { links := [true, true] }, 0, fabFrame 0x88B6 (fabH 0x11 64) 0 helloB, fabH 0x11 64, helloB, by decide +kernel⟩,
   ⟨{ fabS { links := [true, true] } with glb := { st := .discover }, cfl := { body := { line := { plan := { table := [(5, [1])] } } } } }, 5, 0, by decide⟩,
   ⟨fabS { known := [5], noRoute := [(5, 16)] }, 5, by decide⟩,
   ⟨{ fabS {} with pem := { lanes := [48] } }, 0, true, by decide⟩,
   ⟨fabS { links := [true, true] }, by decide⟩,
   ⟨{ fabS { links := [true, true] } with lau := { angles := [(3, { decl := { src := .remote, srcCtrl := 5, srcIndex := 2 } })] } }, 0, fabFrame 0x88B6 (fabH 0x12 44) 0 angleB, fabH 0x12 44, angleB, by decide +kernel⟩,
   ⟨fabS { links := [true, true], held := [{ port := 0, bytes := [1] }] }, 0, { port := 0, bytes := [1] }, by decide⟩,
   ⟨{ fabS { stale := [(0, 1)] } with cfl := { applied := true, body := { ctrls := [{ imports := [{ src := 5, first := 0, count := 1 }] }] } } }, 0, { src := 5, first := 0, count := 1 }, by decide⟩⟩

/-- States and operands that meet the hypotheses of `Obligations.EpochsAreStaged`. -/
theorem witness_EpochsAreStaged :
    (∃ s : State, ∃ it : Item, let bs := s.dramRead (it.u 24 8) (it.u 32 4); ItemTaken s Opc.epochStage it ∧ (s.glb.st = .ready ∨ s.glb.st = .run ∨ s.glb.st = .degraded) ∧ s.fbr.mismatch = false ∧ s.fbr.epoch.phase = .idle ∧ s.fbr.away = none ∧ s.ownEpoch < it.u 20 4 ∧ 0 < it.u 32 4 ∧ it.u 32 4 ≤ imgMax ∧ s.hostRegion (it.u 24 8) (it.u 32 4) = true ∧ imgHeaderOk bs = true ∧ imgCandle bs ≠ s.ownCandle ∧ ((imgEntries bs).find? (fun x => decide (entType x = 2))).map (fun x => Config.linePeriod (imgSection bs x)) =
      some (s.rd Reg.cycPeriod)) ∧
    (∃ s : State, ∃ it : Item, let x := s.fbr.epoch; ItemTaken s Opc.epochCommit it ∧ x.phase ≠ .idle ∧ x.initiator = true ∧ it.u 20 4 = x.e ∧ it.u 24 8 ≤ s.cyc.n + 2 ^ 31 ∧ x.members.all x.ready.contains = true) ∧
    (∃ s : State, ∃ init : Nat, ∃ members : List Nat, s.fbr.epoch.phase = .idle ∧ s.glb.idValid = true ∧ s.fbr.conflict = false ∧ members.contains s.glb.id = true ∧ init ≠ s.glb.id) ∧
    (∃ s : State, ∃ k : Nat, ∃ total : Nat, ∃ bytes : List Byte, k < total ∧ fragLen * k + bytes.length ≤ imgMax ∧ s.fbr.epoch.phase = .staging ∧ s.fbr.epoch.initiator = false ∧ s.fbr.epoch.got.any (fun p => decide (p.1 = k)) = false) ∧
    (∃ s : State, ∃ from_ : Nat, ∃ bs : List Byte, s.fbr.epoch.phase ≠ .idle ∧ s.fbr.epoch.initiator = true ∧ s.fbr.epoch.members.contains from_ = true ∧ joinFrags s.fbr.epoch.total s.fbr.epoch.got = some bs) ∧
    (∃ s : State, ∃ body : ImageBody, ∃ told : List Refused, ∃ bs : List Byte, s.fbr.epoch.phase = .staging ∧ s.cfl.staged = none ∧ joinFrags s.fbr.epoch.total s.fbr.epoch.got = some bs ∧ s.stageChecks bs body told = none ∧ s.couplerMissing s.fbr.epoch.candle = none ∧ s.pilotReady = true) :=
  ⟨⟨stageS, { itm 0x12 0 0 (leBytes 4 7 ++ leBytes 8 0x5000000 ++ leBytes 4 320 ++ leBytes 4 0) with handle := 0 }, by decide +kernel, by decide +kernel, by decide +kernel, by decide +kernel, by decide +kernel, by decide +kernel, by decide +kernel, by decide +kernel, by decide +kernel, by decide +kernel, by decide +kernel, rfl⟩,
   ⟨epoS true { phase := .ready, e := 7, initiator := true, members := [0, 5], ready := [0, 5], readyAt := 0 }, { itm 0x13 0 0 (leBytes 4 7 ++ leBytes 8 20000) with handle := 0 }, by decide⟩,
   ⟨epoS false {}, 5, [0, 5], by decide⟩,
   ⟨epoS false { phase := .staging, e := 7 }, 0, 2, [1, 2], by decide⟩,
   ⟨epoS false { phase := .staging, e := 7, initiator := true, members := [0, 5], total := 1, got := [(0, [1, 2])] }, 5, [1, 2], by decide⟩,
   ⟨{ epoS false { phase := .staging, e := 7, total := 1, got := [(0, img)] } with cfl := { body := imgBody, image := img }, twu := {} }, imgBody, [], img, by decide, by decide, rfl, by decide +kernel, by decide, by decide⟩⟩

/-- States and operands that meet the hypotheses of `Obligations.EpochsCommitOrAbort`. -/
theorem witness_EpochsCommitOrAbort :
    (∃ s : State, ∃ e : Nat, ∃ from_ : Nat, (s.fbr.epoch.phase = .staging ∨ s.fbr.epoch.phase = .ready) ∧ s.fbr.epoch.e = e ∧ (s.isLantern = true ∨ s.fbr.epoch.initiator = true) ∧ s.fbr.epoch.members.contains from_ = true) ∧
    (∃ s : State, ∃ e : Nat, (s.fbr.epoch.phase = .staging ∨ s.fbr.epoch.phase = .ready) ∧ s.fbr.epoch.e = e ∧ s.isLantern = true) ∧
    (∃ s : State, ∃ n : Nat, s.fbr.epoch.commitIn = some (s.fbr.epoch.e, candlePrefix s.fbr.epoch.candle, n) ∧ s.fbr.epoch.phase = .ready ∧ s.cyc.n < n) ∧
    (∃ s : State, ∃ e : Nat, (s.fbr.epoch.phase = .staging ∨ s.fbr.epoch.phase = .ready) ∧ s.fbr.epoch.e = e) ∧
    (∃ s : State, s.fbr.epoch.phase = .ready ∧ s.fbr.epoch.readyAt + s.epochTimeout ≤ s.now) ∧
    (∃ s : State, (s.fbr.epoch.phase = .staging ∨ s.fbr.epoch.phase = .ready) ∧ s.isLantern = true ∧ s.fbr.epoch.offerAt + s.epochTimeout ≤ s.now) :=
  ⟨⟨epoS true { phase := .staging, e := 7, initiator := true, members := [0, 5], total := 1, got := [(0, [1, 2])] }, 7, 5, by decide⟩,
   ⟨epoS true { phase := .staging, e := 7, initiator := true, members := [0, 5], total := 1, got := [(0, [1, 2])] }, 7, by decide⟩,
   ⟨epoS false { phase := .ready, e := 7, commitIn := some (7, 0, 16100) }, 16100, by decide⟩,
   ⟨epoS false { phase := .staging, e := 7, initiator := true, members := [0, 5], total := 1, got := [(0, [1, 2])] }, 7, by decide⟩,
   ⟨epoS false { phase := .ready, e := 7, initiator := true, members := [0, 5], ready := [0, 5], readyAt := 0 }, by decide⟩,
   ⟨epoS true { phase := .ready, e := 7, initiator := true, members := [0, 5], ready := [0, 5], readyAt := 0 }, by decide⟩⟩

/-- States and operands that meet the hypotheses of `Obligations.WickAndTakeover`. -/
theorem witness_WickAndTakeover :
    (∃ s : State, ∃ cause : Nat, s.paired = true ∧ s.twu.wickBad = false ∧ (cause = 2 ∨ (cause = 3 ∧ 3 ≤ s.twu.disagree) ∨ (cause = 1 ∧ ∃ u, s.twu.badAt = some u ∧ u + 100 * nsU ≤ s.now))) ∧
    (∃ s : State, ∃ u : Nat, s.twu.bothAt = some u ∧ s.twu.act = true ∧ u + 200 * nsU ≤ s.now ∧ s.twu.partner.serial < s.fuses.serial.toNat) ∧
    (∃ s : State, ∃ u : Nat, s.twu.bothAt = some u ∧ s.twu.act = true ∧ u + 200 * nsU ≤ s.now ∧ s.fuses.serial.toNat < s.twu.partner.serial) ∧
    (∃ s : State, s.twu.act = false ∧ s.twu.inhibit = false ∧ s.twu.pAct = false ∧ s.twu.badAt = none ∧ s.twu.pActAt + 2000 * nsU ≤ s.now ∧ s.glb.st ≠ .off ∧ (s.glb.role = .pilot ∨ (s.glb.role = .alone ∧ s.glb.st = .ready ∧ (s.paired = false ∨ s.twu.claim = true)))) ∧
    (∃ s : State, s.cyc.running = true ∧ s.cyc.stall = false ∧ s.cyc.c0 + s.per + 2000 * nsU ≤ s.now ∧ s.glb.st ≠ .off) ∧
    (∃ s : State, s.paired = true ∧ s.twu.hbOk = true) ∧
    (∃ s : State, s.paired = true ∧ s.glb.role = .alone ∧ s.glb.st = .ready ∧ s.twu.link = false ∧ s.twu.pAct = false ∧ s.twu.badAt = none ∧ s.twu.wickBad = false ∧ max s.twu.downAt s.twu.pActAt + 5 * secTicks ≤ s.now) ∧
    (∃ s : State, s.hostOpen = true ∧ s.glb.role = .lit ∧ s.twu.partner.seen = true ∧ s.twu.partner.role = 1 ∧ s.twu.link = true ∧ s.twu.xfer = false ∧ s.twu.wickOk = true ∧ s.twu.hand = false) ∧
    (∃ s : State, s.twu.hand = true ∧ s.twu.act = true ∧ (s.cyc.n ≠ s.twu.handCycle ∨ s.instant Reg.cycDlEnd + 100 * nsU ≤ s.now)) :=
  ⟨⟨twS .lit { badAt := some 0 }, 1, by decide, by decide, .inr (.inr ⟨rfl, 0, rfl, by decide⟩)⟩,
   ⟨{ twS .lit { act := true, bothAt := some 0, partner := { serial := 77 } } with fuses := { serial := 78 } }, 0, by decide⟩,
   ⟨{ twS .lit { act := true, bothAt := some 0, partner := { serial := 77 } } with fuses := { serial := 76 } }, 0, by decide⟩,
   ⟨twS .pilot { inhibit := false }, by decide⟩,
   ⟨{ twS .lit {} with cyc := { running := true, n := 5, c0 := 0 } }, by decide⟩,
   ⟨twS .lit { hbOk := true }, by decide⟩,
   ⟨{ twS .alone {} with twu := {}, glb := { st := .ready, role := .alone } }, by decide⟩,
   ⟨twS .lit { wickOk := true, partner := { seen := true, role := 1, serial := 77 } }, by decide⟩,
   ⟨twS .lit { act := true, hand := true, handCycle := 15999 }, by decide⟩⟩

/-- States and operands that meet the hypotheses of `Obligations.ShadowAndTransfer`. -/
theorem witness_ShadowAndTransfer :
    (∃ s : State, s.cyc.running = true ∧ s.glb.role = .lit ∧ s.twu.landSent ≠ some s.cyc.n ∧ s.instant Reg.cycUlEnd + 200 * nsU ≤ s.now) ∧
    (∃ s : State, ∃ fr : List Byte, ∃ h : FabHdr, ∃ body : List Byte, TwPasses s ∧ readFab s.fabEther fr = some (h, body) ∧ h.ftype = 0x22 ∧ s.compares = true ∧ h.cycle = s.cyc.n) ∧
    (∃ s : State, ∃ fr : List Byte, ∃ h : FabHdr, ∃ body : List Byte, ∃ c : Nat, ∃ d : ConnDecl, TwPasses s ∧ readFab s.fabEther fr = some (h, body) ∧ h.ftype = 0x21 ∧ s.pilotish = true ∧ leAt (body.drop 4) 14 1 = 4 ∧ s.downConns (leAt body 0 4 % 1024) = [(c, d)]) ∧
    (∃ s : State, s.paired = true ∧ s.twu.test = none ∧ (s.compares = true ∧ max 1 (s.rdFld Reg.twuCfg 23 16) ≤ s.twu.mm.length ∨ s.glb.role = .lit ∧ s.twu.partner.test = 1)) ∧
    (∃ s : State, ∃ c : Nat, s.twu.test = some c ∧ s.twu.testOwn = none ∧ (s.twu.partner.test = 2 ∨ s.twu.partner.test = 3 ∨ c + 256 ≤ s.cyc.n)) ∧
    (∃ s : State, TwPasses s) ∧
    (∃ s : State, TwPasses s ∧ s.glb.role ≠ .lit) ∧
    (∃ s : State, TwPasses s ∧ (s.mbChan 4).waitSend = true ∧ (s.mbChan 4).st = .busy) ∧
    (∃ s : State, ∃ bytes : List Byte, TwPasses s ∧ bytes.length = 64 ∧ leAt bytes 0 1 = 0xE0) ∧
    (∃ s : State, ∃ up : Bool, s.twu.link = (!up) ∧ (up = true → s.pem.lanes.contains (16 * 3 + 2) = true)) :=
  ⟨⟨twS .lit {}, by decide⟩,
   ⟨twS .pilot { shadow := true }, fabFrame 0x88B6 (twH 0x22 8) 0 [1, 2, 3, 4, 0, 0, 0, 0], twH 0x22 8, [1, 2, 3, 4, 0, 0, 0, 0], by decide +kernel⟩,
   ⟨{ twS .pilot {} with cfl := { applied := true, body := { ctrls := [{ safety := { conns := [{ connId := 5, node := 255, down := true, slot := 0, len := 16 }] } }] } } }, fabFrame 0x88B6 (twH 0x21 36) 0 copyB, twH 0x21 36, copyB, 0, { connId := 5, node := 255, down := true, slot := 0, len := 16 }, by decide +kernel⟩,
   ⟨twS .pilot { shadow := true, mm := [1] }, by decide⟩,
   ⟨twS .lit { test := some 5 }, 5, by decide⟩,
   ⟨twS .lit {}, by decide⟩,
   ⟨twS .pilot {}, by decide⟩,
   ⟨{ twS .pilot {} with mbx := { chans := [(4, { waitSend := true, st := .busy })] } }, by decide⟩,
   ⟨twS .lit {}, 0xE0 :: List.replicate 63 7, by decide⟩,
   ⟨{ twS .lit {} with twu := {}, pem := { lanes := [50] } }, true, by decide⟩⟩

/-- States and operands that meet the hypotheses of `Obligations.TwinRolesAndPeers`. -/
theorem witness_TwinRolesAndPeers :
    (∃ s : State, s.hostOpen = true ∧ s.glb.role = .unfit) ∧
    (∃ s : State, ∃ v : Word, s.hostOpen = true ∧ s.glb.role = .lit ∧ s.twu.partner.seen = true ∧ s.twu.partner.role = 2 ∧ s.twu.partner.prefix_ = candlePrefix s.ownCandle ∧ v.toNat = s.twu.partner.serial % 2 ^ 32 ∧ s.twu.peerPend = none) ∧
    (∃ s : State, ∃ h : Bool, s.paired = true ∧ s.twu.partner.seen = true ∧ s.twu.partner.prefix_ = candlePrefix s.ownCandle ∧ s.twu.peerPend = none ∧ (s.glb.role = .lit ∧ s.twu.partner.role = 2 ∨ s.glb.role = .probation ∧ s.twu.partner.role = 0 ∧
      (h = true ∨ 65536 ≤ s.twu.clean ∧ (s.rdBit Reg.twuCfg 30 = true ∨ s.peerNamed = true)))) ∧
    (∃ s : State, ∃ ok0 : Bool, ∃ ok1 : Bool, ∃ serial : Nat, ∃ cycle : Nat, ∃ h : Bool, s.twu.peerPend = some (serial, cycle, h) ∧ (ok0 = true ∨ ok1 = true)) ∧
    (∃ s : State, ∃ serial : Nat, ∃ cycle : Nat, ∃ h : Bool, s.twu.peerPend = some (serial, cycle, h)) ∧
    (∃ s : State, s.twu.adopt = true ∧ s.pilotish = true) :=
  ⟨⟨twS .unfit {}, by decide⟩,
   ⟨twS .lit { partner := { seen := true, role := 2, serial := 77 } }, 77, by decide⟩,
   ⟨twS .lit { partner := { seen := true, role := 2, serial := 77 } }, false, by decide⟩,
   ⟨twS .probation { peerPend := some (77, 5, true) }, true, false, 77, 5, true, by decide⟩,
   ⟨twS .probation { peerPend := some (77, 5, true) }, 77, 5, true, by decide⟩,
   ⟨{ twS .pilot { adopt := true } with fuses := imgFuses }, by decide⟩⟩

/-- States and operands that meet the hypotheses of `Obligations.IslandEvaluatesAndFaults`. -/
theorem witness_IslandEvaluatesAndFaults :
    (∃ s : State, s.sfi.st = .init ∧ s.cyc.running = true) ∧
    (∃ s : State, ∃ ca : Word, ∃ cb : Word, s.sfi.st = .init ∧ s.cyc.running = true ∧ s.safety.present = true ∧ (ca ≠ s.safety.crc ∨ cb ≠ s.safety.crc)) ∧
    (∃ s : State, s.sfi.st = .normal ∧ s.cyc.running = true ∧ s.sfi.evalCycle ≠ some s.cyc.n ∧ s.instant Reg.cycUlEnd ≤ s.now ∧ s.injSlots 1 4 = [] ∧ s.injSlots 2 4 = [] ∧ s.injSlots 1 5 = [] ∧ s.injSlots 2 5 = []) ∧
    (∃ s : State, ∃ k : Nat, ∃ m : MonAxis, s.safety.mons[k]? = some m ∧ s.sfi.st = .normal ∧ (s.mon k).disc = false ∧ (s.mon k).discNow m = true) ∧
    (∃ s : State, s.sfi.st = .normal ∧ s.sfi.evalCycle = some s.cyc.n ∧ s.sfi.xcmpCycle ≠ some s.cyc.n ∧ s.injSlots 0x1D 0 = [] ∧ s.injSlots 0x1E 0 = [] ∧ s.injSlots 0x1E 1 = []) ∧
    (∃ s : State, ∃ agree : Bool, ∃ delivered : Bool, s.sfi.st = .normal ∧ s.sfi.evalCycle = some s.cyc.n ∧ s.sfi.xcmpCycle ≠ some s.cyc.n ∧ s.injSlots 0x1D 0 = [] ∧ s.injSlots 0x1E 0 = [] ∧ s.injSlots 0x1E 1 = [] ∧ (agree = false ∨ delivered = false)) ∧
    (∃ s : State, s.sfi.st = .normal ∧ s.sfi.scaTick + 3 * s.per ≤ s.now) ∧
    (∃ s : State, s.sfi.st = .normal ∧ s.sfi.scbTick + 3 * s.per ≤ s.now) ∧
    (∃ s : State, s.sfi.st = .normal) ∧
    (∃ s : State, ∃ a : Nat, ∃ r : StopRun, s.sfi.st = .normal ∧ r ∈ s.sfi.stops ∧ r.axis = a ∧ r.done = false ∧ r.since + r.limit * msU ≤ s.now) ∧
    (∃ s : State, ∃ a : Nat, a ∈ s.sfi.brakeOff ∧ a ∉ s.sfi.permit ∧ Tab.get 0 s.sfi.permitOff a + (s.safeAxis a).tSbc * msU ≤ s.now) :=
  ⟨⟨safS { present := true, axes := [{ axis := 255 }] } { st := .init }, by decide⟩,
   ⟨safS { present := true } { st := .init }, 1, 0, by decide⟩,
   ⟨safS { ins := [{ used := true }], maps := [{ src := .input 0, func := .sto, axes := [255] }] } { st := .normal, ins := [(0, { a := true })] }, by decide⟩,
   ⟨safS { mons := [{ axis := 255, p1 := .feedback, p2 := .feedback }] } { st := .normal, mons := [(0, { discRun := 1 })] }, 0, { axis := 255, p1 := .feedback, p2 := .feedback }, by decide⟩,
   ⟨safS { axes := [{ axis := 255 }, { axis := 3 }] } { st := .normal, evalCycle := some 16000, demands := [{ axis := 3, func := .sto, src := .start }] }, by decide⟩,
   ⟨safS {} { st := .normal, evalCycle := some 16000 }, false, true, by decide⟩,
   ⟨safS {} { st := .normal, scaTick := 0 }, by decide⟩,
   ⟨safS {} { st := .normal, scbTick := 0 }, by decide⟩,
   ⟨safS {} { st := .normal }, by decide⟩,
   ⟨safS {} { st := .normal, permit := [255], stops := [{ axis := 255, func := .ss1t, since := 0, limit := 5 }] }, 255, { axis := 255, func := .ss1t, since := 0, limit := 5 }, by decide⟩,
   ⟨safS {} { st := .normal, brakeOff := [255] }, 255, by decide⟩⟩

/-- States and operands that meet the hypotheses of `Obligations.SafeInputsOutputsAndReset`. -/
theorem witness_SafeInputsOutputsAndReset :
    (∃ s : State, ∃ c : Nat, ∃ d : ConnDecl, s.safety.conns[c]? = some d ∧ d.down = false ∧ (s.conn c).started = true ∧ (s.conn c).lost = false ∧ (s.conn c).okAt + d.wd * 10 * usU ≤ s.now) ∧
    (∃ s : State, ∃ k : Nat, ∃ b : Bool, k < 8 ∧ (if b = true then (s.safeIn k).bAt else (s.safeIn k).aAt) + (s.safeInDecl k).fIn * (msU / 10) ≤ s.now) ∧
    (∃ s : State, ∃ k : Nat, ∃ u : Nat, (s.safeIn k).diffAt = some u ∧ (s.safeInDecl k).used = true ∧ (s.safeIn k).disc = false ∧ s.sfi.st = .normal ∧ u + (s.safeInDecl k).tDisc * msU < s.now) ∧
    (∃ s : State, ∃ k : Nat, k < 4 ∧ s.sfi.st = .normal ∧ (s.safety.outs.getD k {}).used = true ∧ (Tab.get {} s.sfi.outs k).on = true) ∧
    (∃ s : State, ∃ k : Nat, k < 4 ∧ s.sfi.st = .normal ∧ (s.safety.outs.getD k {}).used = true ∧ (Tab.get {} s.sfi.outs k).on = false) ∧
    (∃ s : State, ∃ k : Nat, (Tab.get {} s.sfi.outs k).on = true ∧ (Tab.get {} s.sfi.outs k).testAt + (s.safety.outs.getD k {}).testT * secTicks ≤ s.now) ∧
    (∃ s : State, s.sfi.rstA.level = false ∧ s.sfi.rstA.since + msU ≤ s.now ∧ s.sfi.rstB.level = true ∧ s.sfi.rstB.idleOk = true ∧ s.now ≤ s.sfi.rstB.since + 10 * msU ∧ s.sfi.stuck = false ∧ s.sfi.st = .normal ∧ s.sfi.demands.any (fun d => !s.srcActive d) = true) ∧
    (∃ s : State, s.sfi.rstA.level = false ∧ s.sfi.rstA.since + msU ≤ s.now ∧ s.sfi.rstB.level = true ∧ s.sfi.rstB.since + 10 * msU < s.now ∧ s.sfi.stuck = false) ∧
    (∃ s : State, ∃ u : Nat, s.sfi.resetAt = some u ∧ u + 2000 * msU ≤ s.now ∧ s.sfi.rstA.level = true) :=
  ⟨⟨safS { conns := [{ connId := 5, node := 255, down := false, slot := 0 }] } { st := .normal, conns := [(0, { started := true })] }, 0, { connId := 5, node := 255, down := false, slot := 0 }, by decide⟩,
   ⟨safS {} { st := .normal }, 0, true, by decide⟩,
   ⟨safS { ins := [{ used := true }] } { st := .normal, ins := [(0, { diffAt := some 0 })] }, 0, 0, by decide⟩,
   ⟨safS { outs := [{ used := true, axes := [255] }] } { st := .normal, outs := [(0, { on := true })] }, 0, by decide⟩,
   ⟨safS { outs := [{ used := true, axes := [255] }] } { st := .normal }, 0, by decide⟩,
   ⟨safS { outs := [{ used := true, axes := [255] }] } { st := .normal, outs := [(0, { on := true })] }, 0, by decide⟩,
   ⟨safS {} { st := .normal, rstB := { level := true, since := 10 ^ 15, idleOk := true }, demands := [{ axis := 255, func := .sto, src := .start }, { axis := 3, func := .sto, src := .input 0 }] }, by decide⟩,
   ⟨safS {} { st := .normal, rstB := { level := true, since := 0, idleOk := true } }, by decide⟩,
   ⟨safS {} { st := .normal, resetAt := some 0, rstA := { level := true } }, 0, by decide⟩⟩

/-- States and operands that meet the hypotheses of `Obligations.ResetsLeaveTheBlockClean`. -/
theorem witness_ResetsLeaveTheBlockClean :
    (∃ s : State, ∃ mv : Nat, s.glb.st = .off ∧ s.pem.tHeld = false ∧ 4350 ≤ mv ∧ mv ≤ 19000) ∧
    (∃ s : State, ∃ mv : Nat, s.glb.st ≠ .off ∧ mv < 4200) ∧
    (∃ s : State, ∃ mv : Nat, s.glb.st ≠ .off ∧ 20000 < mv) ∧
    (∃ s : State, ∃ r : Nat, s.glb.st ≠ .off ∧ 1 ≤ r ∧ r ≤ 3) ∧
    (∃ s : State, s.glb.st ≠ .off) ∧
    (∃ s : State, s.pem.tHeld = true) ∧
    (∃ s : State, s.glb.st ≠ .off) ∧
    (∃ s : State, ∃ ns : Nat, s.glb.st ≠ .off ∧ 1000 ≤ ns) ∧
    (∃ ns : Nat, ns < 200) ∧
    (∃ s : State, ∃ v : Word, s.hostUp = true ∧ fld v 31 16 = 0xA5C3 ∧ bit v 0 = true) ∧
    (∃ s : State, ∃ u : Nat, s.lcu.resetAt = some u ∧ u ≤ s.now) :=
  ⟨⟨powS .off {  }, 12000, by decide⟩,
   ⟨powS .run {  }, 4100, by decide⟩,
   ⟨powS .run {  }, 21000, by decide⟩,
   ⟨powS .run {  }, 2, by decide⟩,
   ⟨powS .run {  }, by decide⟩,
   ⟨powS .off { tHeld := true }, by decide⟩,
   ⟨powS .run {  }, by decide⟩,
   ⟨powS .run {  }, 1500, by decide⟩,
   ⟨100, by decide⟩,
   ⟨powS .run {  }, 0xA5C30001, by decide⟩,
   ⟨{ axS {} {} with lcu := { resetAt := some 7 } }, 7, by decide⟩⟩

/-- States and operands that meet the hypotheses of `Obligations.BootSuppliesAndLedger`. -/
theorem witness_BootSuppliesAndLedger :
    (∃ s : State, s.glb.st = .boot ∧ s.fuses.state ≠ 0 ∧ s.fuses.state ≠ 6 ∧ s.fuses.ok = true) ∧
    (∃ s : State, s.glb.st = .boot ∧ s.fuses.state ≠ 0 ∧ s.fuses.state ≠ 6 ∧ s.fuses.ok = false) ∧
    (∃ s : State, s.glb.st = .wipe) ∧
    (∃ s : State, ∃ mv : Nat, s.glb.st ≠ .off ∧ mv < 4400 ∧ s.pem.vinLow = false) ∧
    (∃ s : State, ∃ mv : Nat, s.pem.vinLow = true ∧ 4450 ≤ mv ∧ s.pem.vinBadTill ≤ s.now) ∧
    (∃ s : State, ∃ mv : Nat, s.glb.st ≠ .off ∧ 18500 < mv) ∧
    (∃ s : State, ∃ l : Load, ∃ rest : List Load, s.glb.st ≠ .off ∧ s.pem.evalAt + 10 * usU ≤ s.now ∧ s.pem.ledgerOn = true ∧ (∀ u, s.injSlots 0x1A u = []) ∧ (∀ u, s.injSlots 0x19 u = []) ∧ (∀ u, s.injSlots 0x1B u = []) ∧ s.pem.queue = l :: rest) :=
  ⟨⟨powS .boot {  }, by decide⟩,
   ⟨{ powS .boot {} with fuses := { ok := false } }, by decide⟩,
   ⟨{ powS .wipe {} with cfl := { flash := [[], img, [], []] } }, by decide⟩,
   ⟨powS .run {  }, 4300, by decide⟩,
   ⟨{ powS .degraded { vinLow := true } with glb := { st := .degraded, degr := [0x0201] } }, 4460, by decide⟩,
   ⟨powS .run {  }, 18600, by decide⟩,
   ⟨powS .ready { ledgerOn := true, evalAt := 0, queue := [{ row := 2, index := 3, energy := 10, charge := 100, at_ := 0 }] }, { row := 2, index := 3, energy := 10, charge := 100, at_ := 0 }, [], by decide, by decide, by decide, fun _ => rfl, fun _ => rfl, fun _ => rfl, rfl⟩⟩

/-- States and operands that meet the hypotheses of `Obligations.EncoderOutputsAndTokens`. -/
theorem witness_EncoderOutputsAndTokens :
    (∃ s : State, ∃ k : Nat, ∃ u : Nat, (s.encOut k).ramp = some u ∧ u + msU ≤ s.now) ∧
    (∃ s : State, ∃ k : Nat, k < 8 ∧ ((s.encOut k).on = true ∨ (s.encOut k).ramp.isSome = true)) ∧
    (∃ s : State, ∃ k : Nat, ∃ u : Nat, (s.encOut k).retryAt = some u ∧ u ≤ s.now) ∧
    (∃ s : State, ∃ mv : Nat, s.glb.st ≠ .off ∧ 5900 < mv) ∧
    (∃ s : State, ∃ ma : Nat, s.glb.st ≠ .off ∧ 1200 < ma) ∧
    (∃ s : State, ∃ v : Word, ∃ k : Nat, s.hostUp = true ∧ k < 8 ∧ bit v k = true ∧ s.encLatched k = true ∧ (s.encOut k).enabled = true) ∧
    (∃ s : State, s.hostUp = true ∧ leAt s.token 4 1 = 1) ∧
    (∃ s : State, ∃ op : Nat, s.hostUp = true ∧ (op = 2 ∨ op = 3) ∧ leAt s.token 4 1 = op) :=
  ⟨⟨powS .run { outs := [(3, { enabled := true, ramp := some 0 })] }, 3, 0, by decide⟩,
   ⟨powS .run { outs := [(3, { enabled := true, on := true })] }, 3, by decide⟩,
   ⟨powS .run { outs := [(3, { enabled := true, retryAt := some 0 })] }, 3, 0, by decide⟩,
   ⟨powS .run { outs := [(3, { enabled := true, on := true })] }, 6000, by decide⟩,
   ⟨powS .run {  }, 1300, by decide⟩,
   ⟨{ powS .run { outs := [(3, { enabled := true })] } with regs := regsOf [(Reg.pemEncStatus, 0x8000000)] }, 0xFF, 3, by decide⟩,
   ⟨tokS tokSvc, by decide⟩,
   ⟨tokS tokRev, 3, by decide⟩⟩

/-- States and operands that meet the hypotheses of `Obligations.CandidatesAreReadAndVerified`. -/
theorem witness_CandidatesAreReadAndVerified :
    (∃ s : State, ∃ c : Candidate, s.cfl.cand = some c ∧ s.glb.st = .load ∧ c.read = false) ∧
    (∃ s : State, ∃ c : Candidate, s.cfl.cand = some c ∧ c.slot ≤ 5 ∧ s.glb.st = .verify ∧ s.fuses.noConfig = false) :=
  ⟨⟨cflS .load { cand := some { slot := 1, bytes := [1, 2] } }, { slot := 1, bytes := [1, 2] }, by decide⟩,
   ⟨cflS .verify { cand := some { slot := 1, bytes := img, read := true } }, { slot := 1, bytes := img, read := true }, rfl, by decide, by decide, by decide⟩⟩

/-- States and operands that meet the hypotheses of `Obligations.AdoptionAndFlash`. -/
theorem witness_AdoptionAndFlash :
    (∃ s : State, ∃ bs : List Byte, s.cfl.adopting = true ∧ s.glb.st = .sync ∧ joinFrags s.cfl.adoptTotal s.cfl.adoptGot = some bs) ∧
    (∃ s : State, s.cfl.adopting = true ∧ s.cfl.adoptAt + 10 * secTicks ≤ s.now) ∧
    (∃ s : State, s.isLantern = true ∧ s.cfl.loaded = true) ∧
    (∃ s : State, s.hostUp = true ∧ s.cfl.flashOp = none) ∧
    (∃ s : State, s.hostUp = true ∧ s.cfl.flashOp = none) ∧
    (∃ s : State, ∃ xb : Bool, ∃ slotB : Bool, s.cfl.flashOp = some 0 ∧ s.cfl.flashTo = b2n xb * 4 + b2n slotB ∧ s.cfl.flash.length = 4) ∧
    (∃ s : State, ∃ r : Nat, s.cfl.flashOp = some r ∧ r ≠ 0 ∧ r ≤ 6) :=
  ⟨⟨cflS .sync { adopting := true, adoptTotal := 1, adoptGot := [(0, img)] }, img, rfl, rfl, rfl⟩,
   ⟨cflS .sync { adopting := true }, by decide⟩,
   ⟨{ cflS .run { loaded := true, image := [1, 2, 3] } with tbu := { hasLantern := true, lantern := 1 } }, by decide⟩,
   ⟨cflS .run {}, by decide⟩,
   ⟨cflS .run {}, by decide⟩,
   ⟨cflS .fault { flashOp := some 0, flashTo := 4 }, true, false, by decide⟩,
   ⟨cflS .run { flashOp := some 3 }, 3, by decide⟩⟩

/-- States and operands that meet the hypotheses of `Obligations.BarsAreReadAndWritten`. -/
theorem witness_BarsAreReadAndWritten :
    (∃ s : State, ∃ a : Nat, ∃ v : Word, ∃ b : Bank, a % 4 = 0 ∧ a < 0x400000 ∧ s.reach a = true ∧ s.plainlyWritten a v ∧ bankOf a = some b ∧ b.wo = 0) ∧
    (∃ s : State, ∃ a : Nat, a % 4 = 0 ∧ a < 0x400000 ∧ s.reach a = false) ∧
    (∃ s : State, ∃ a : Nat, a % 4 = 0 ∧ a < 0x400000 ∧ s.reach a = true ∧ s.plainRead a) ∧
    (∃ s : State, ∃ a : Nat, a % 4 = 0 ∧ a < 0x400000 ∧ s.reach a = true ∧ holdLo a = true ∧ s.claimRead a = none ∧ s.rcRead a 0 = none) ∧
    (∃ s : State, s.hostUp = true) ∧
    (∃ s : State, ∃ a : Nat, ∃ b : Bank, a % 4 = 0 ∧ a < 0x400000 ∧ s.reach a = true ∧ s.claimRead a = none ∧ regIdx a (Reg.evrSrcCnt 0) 8 512 = none ∧ bankOf a = some b ∧ b.rc ≠ 0) ∧
    (∃ s : State, ∃ off : Nat, ∃ size : Nat, bar0Good off size = false ∧ off < 0x400000 ∧ s.hostUp = true) ∧
    (∃ s : State, ∃ off : Nat, ∃ len : Nat, s.hostUp = true ∧ off + len ≤ 2 ^ 28 ∧ s.bar2Closed = false ∧ s.bar2Bad off len = false ∧ s.injSlots 3 0 = [] ∧ s.injSlots 4 0 = [] ∧ s.hlm.badWords = []) ∧
    (∃ s : State, ∃ off : Nat, ∃ bs : List Byte, s.hostUp = true ∧ off + bs.length ≤ 2 ^ 28 ∧ s.bar2Closed = false ∧ s.bar2Bad off bs.length = false) ∧
    (∃ s : State, ∃ off : Nat, ∃ len : Nat, s.hostUp = true ∧ off + len ≤ 2 ^ 28 ∧ s.bar2Closed = false ∧ s.bar2Bad off len = true) :=
  ⟨⟨hostS [], 28, 0x12345678, (bankOf 28).get (by decide), by decide +kernel⟩,
   ⟨{ hostS [] with glb := { st := .off } }, 0x60000, by decide⟩,
   ⟨hostS [], 28, by decide +kernel⟩,
   ⟨hostS [], Reg.twuPartnerLo, by decide +kernel⟩,
   ⟨hostS [], by decide⟩,
   ⟨hostS [(65568, 7)], 65568, (bankOf 65568).get (by decide), by decide +kernel⟩,
   ⟨{ hostS [] with elg := { running := true } }, 0x23FFE, 4, by decide⟩,
   ⟨{ hostS [] with dram := [(0x5000001, 9)], regs := regsOf [(Reg.mbxBar2BaseLo, 0x5000000)] }, 0, 4, by decide⟩,
   ⟨{ hostS [] with regs := regsOf [(Reg.mbxBar2BaseLo, 0x5000000)] }, 0, [1, 2], by decide⟩,
   ⟨hostS [(Reg.mbxBar2BaseLo, 0)], 0, 4, by decide⟩⟩

/-- States and operands that meet the hypotheses of `Obligations.SourcesAreClaimedAndCompleted`. -/
theorem witness_SourcesAreClaimedAndCompleted :
    (∃ s : State, ∃ n : Nat, srcDriven n = true ∧ (s.src n).input = false ∧ (s.src n).sense ≠ .falling ∧ (s.src n).arrivals < 254) ∧
    (∃ s : State, ∃ w : Nat, s.hostOpen = true ∧ w < 16) ∧
    (∃ s : State, ∃ k : Nat, ∃ n : Nat, ∃ x : Src, s.hostOpen = true ∧ k < 4 ∧ (n, x) ∈ s.evr.srcs ∧ x.eligible k = true ∧ (∀ p, p ∈ s.evr.srcs → p.2.eligible k = true → n ≤ p.1)) ∧
    (∃ s : State, ∃ k : Nat, s.hostOpen = true ∧ k < 4 ∧ (∀ p, p ∈ s.evr.srcs → p.2.eligible k = false)) ∧
    (∃ s : State, ∃ k : Nat, ∃ v : Nat, ∃ n : Nat, ∃ x : Src, s.hostOpen = true ∧ k < 4 ∧ v < 8 ∧ (n, x) ∈ s.evr.srcs ∧ x.eligible k = true ∧ x.vec = v ∧ (∀ p, p ∈ s.evr.srcs → p.2.eligible k = true → p.2.vec = v → n ≤ p.1)) ∧
    (∃ s : State, ∃ k : Nat, s.hostOpen = true ∧ k < 4) ∧
    (∃ s : State, ∃ v : Nat, s.evr.due.contains v = true) ∧
    (∃ s : State, ∃ v : Nat, s.evr.due.contains v = false ∧ s.evr.pba.contains v = true ∧ s.msixHeld v = false) ∧
    (∃ s : State, ∃ up : Bool, s.glb.st ≠ .off ∧ s.pcie.linkUp = (!up)) ∧
    (∃ s : State, s.glb.st ≠ .off) :=
  ⟨⟨srcS {}, 0x21, by decide⟩,
   ⟨srcS {}, 1, by decide⟩,
   ⟨srcS { pending := true, masked := false, targets := 2, vec := 5 }, 1, 0x21, { pending := true, masked := false, targets := 2, vec := 5 }, by decide⟩,
   ⟨srcS {}, 1, by decide⟩,
   ⟨srcS { pending := true, masked := false, targets := 2, vec := 5 }, 1, 5, 0x21, { pending := true, masked := false, targets := 2, vec := 5 }, by decide⟩,
   ⟨srcS { active := true, owner := 1, sense := .level, input := true }, 1, by decide⟩,
   ⟨{ hostS [(Reg.msixCtl 7, 0)] with evr := { due := [7] }, pcie := { busMaster := true, msixEn := true } }, 7, by decide⟩,
   ⟨{ hostS [(Reg.msixCtl 7, 0)] with evr := { pba := [7] }, pcie := { busMaster := true, msixEn := true } }, 7, by decide⟩,
   ⟨{ hostS [] with elg := { running := true } }, true, by decide⟩,
   ⟨hostS [], by decide⟩⟩

/-- States and operands that meet the hypotheses of `Obligations.MailboxesServeTheirOperations`. -/
theorem witness_MailboxesServeTheirOperations :
    (∃ s : State, ∃ c : Nat, s.hostOpen = true ∧ c < 8 ∧ s.mbHost c = true ∧ (s.mbChan c).st = .idle) ∧
    (∃ s : State, ∃ c : Nat, s.hostOpen = true ∧ c < 8 ∧ (s.mbHost c = false ∨ (s.mbChan c).st ≠ .idle)) ∧
    (∃ s : State, ∃ c : Nat, s.hostOpen = true ∧ c < 8 ∧ s.mbHost c = true ∧ (s.mbChan c).st = .acked) ∧
    (∃ s : State, ∃ c : Nat, c < 8 ∧ (s.mbChan c).st = .posted) ∧
    (∃ s : State, ∃ c : Nat, c < 4 ∧ s.mbServes c 1 = true) ∧
    (∃ s : State, ∃ c : Nat, c < 4 ∧ s.mbServes c 2 = true ∧ (s.glb.role = .lit ∨ s.glb.role = .alone) ∧ s.wks.taken.length < 1024) ∧
    (∃ s : State, ∃ c : Nat, c < 4 ∧ s.mbServes c 2 = true ∧ s.glb.role ≠ .lit ∧ s.glb.role ≠ .alone) ∧
    (∃ s : State, ∃ c : Nat, ∃ n : Nat, c < 4 ∧ s.mbServes c 3 = true ∧ n = leAt (s.mbBuf c) 4 1 ∧ 1 ≤ n ∧ n ≤ 60 ∧ (∀ k, k < n → s.sigRead (leAt (s.mbBuf c) (8 + 4 * k) 4) ≠ none)) ∧
    (∃ s : State, ∃ c : Nat, ∃ k : Nat, c < 4 ∧ s.mbServes c 3 = true ∧ k < leAt (s.mbBuf c) 4 1 ∧ s.sigRead (leAt (s.mbBuf c) (8 + 4 * k) 4) = none) ∧
    (∃ s : State, ∃ c : Nat, c < 4 ∧ s.mbServes c 4 = true) ∧
    (∃ s : State, s.mbServes 4 0x10 = true ∧ s.paired = true ∧ s.twu.link = true) ∧
    (∃ s : State, ∃ d : Nat, s.mbServes 5 0x11 = true ∧ d = leAt (s.mbBuf 5) 4 1 ∧ d < 64 ∧ leAt (s.mbBuf 5) 5 3 = 0 ∧ d ≠ s.glb.id ∧ s.fbr.known.contains d = true ∧ s.rdBit (Reg.fbrRoute d) 31 = true) ∧
    (∃ s : State, ∃ c : Nat, (c = 4 ∨ c = 5) ∧ (s.mbChan c).st = .busy ∧ (s.mbChan c).waitSend = true ∧ (s.mbChan c).sentAt + 100 * msU ≤ s.now) ∧
    (∃ s : State, ∃ f : Nat, s.fbr.links.any id = true ∧ s.glb.idValid = true ∧ f < 64 ∧ f ≠ s.glb.id) ∧
    (∃ s : State, s.svcFree) ∧
    (∃ s : State, ∃ n : Nat, s.svcFree ∧ s.mbx.logCur + n ≤ (s.rd Reg.elgWrIdx).toNat ∧ n ≤ 7) ∧
    (∃ s : State, s.svcFree ∧ s.svcFull = true) ∧
    (∃ s : State, ∃ tg : Nat, s.svcFree ∧ s.svcFull = true ∧ tg ≤ 2 ∧ s.cfl.flashOp = none) ∧
    (∃ s : State, s.svcFree ∧ s.svcFull = false) :=
  ⟨⟨mbS 3 {} [3], 3, by decide⟩,
   ⟨{ mbS 6 { st := .busy } [] with elg := { running := true } }, 6, by decide⟩,
   ⟨mbS 3 { st := .acked, ackValid := true } [], 3, by decide⟩,
   ⟨mbS 3 { st := .posted, op := 4 } [4], 3, by decide⟩,
   ⟨mbS 3 { st := .busy, op := 1 } [1, 0, 2, 0, 7, 8], 3, by decide⟩,
   ⟨mbS 3 { st := .busy, op := 2 } (leBytes 4 0x400002 ++ [20, 0, 9]), 3, by decide⟩,
   ⟨{ mbS 3 { st := .busy, op := 2 } [] with glb := { role := .pilot } }, 3, by decide⟩,
   ⟨{ mbS 3 { st := .busy, op := 3 } [3, 0, 8, 0, 1, 0, 0, 0, 7] with sigPrev := [(7, 0x55)] }, 3, 1, by decide, by decide, by decide, by decide, by decide, by intro k hk; interval_cases k; decide⟩,
   ⟨mbS 3 { st := .busy, op := 3 } ([3, 0, 8, 0, 1, 0, 0, 0] ++ leBytes 4 0x100000), 3, 0, by decide⟩,
   ⟨mbS 3 { st := .busy, op := 4 } [4], 3, by decide⟩,
   ⟨{ mbS 4 { st := .busy, op := 0x10 } [0x10, 0, 1, 0, 5] with twu := { link := true }, regs := regsOf [(Reg.twuCfg, 0x80000000), (Reg.mbxChBuf 4 0, 0x10010), (Reg.mbxChBuf 4 1, 5)] }, by decide⟩,
   ⟨{ mbS 5 { st := .busy, op := 0x11 } [0x11, 0, 5, 0, 9, 0, 0, 0, 3] with fbr := { known := [9] }, regs := regsOf [(Reg.fbrRoute 9, 0x80000000), (Reg.mbxChBuf 5 0, 0x50011), (Reg.mbxChBuf 5 1, 9), (Reg.mbxChBuf 5 2, 3)] }, 9, by decide⟩,
   ⟨mbS 5 { st := .busy, waitSend := true } [], 5, by decide⟩,
   ⟨{ mbS 5 { st := .busy, waitSend := true } [] with fbr := { links := [true, false] }, glb := { opened := true, st := .run, idValid := true } }, 5, by decide⟩,
   ⟨hostS [], by decide⟩,
   ⟨hostS [(Reg.elgWrIdx, 9)], 7, by decide⟩,
   ⟨{ hostS [] with fuses := { lc := 2 } }, by decide⟩,
   ⟨{ hostS [] with fuses := { lc := 2 } }, 1, by decide⟩,
   ⟨hostS [], by decide⟩⟩

/-- States and operands that meet the hypotheses of `Obligations.SafetyRequestsDoorbellsAndReports`. -/
theorem witness_SafetyRequestsDoorbellsAndReports :
    (∃ s : State, ∃ f : SfFunc, ∃ axes : List Nat, s.mbServes 6 1 = true ∧ s.safeMsg (s.mbBuf 6) = some (f, axes)) ∧
    (∃ s : State, s.mbServes 6 1 = true ∧ s.safeMsg (s.mbBuf 6) = none) ∧
    (∃ s : State, ∃ m : List Byte, ∃ f : SfFunc, ∃ axes : List Nat, s.safeSrc = 4 ∧ (s.mbChan 6).st = .idle ∧ (s.mbChan 6).waitItem = false ∧ (s.mbChan 6).waitSend = false ∧ m.length = 36 ∧ leAt m 0 1 = 1 ∧ s.safeMsg m = some (f, axes)) ∧
    (∃ s : State, ∃ f : SfFunc, ∃ axes : List Nat, s.mbServes 6 2 = true ∧ s.safeMsg (s.mbBuf 6) = some (f, axes)) ∧
    (∃ s : State, ∃ r : Nat, s.hostOpen = true ∧ r < 16) ∧
    (∃ s : State, s.hostOpen = true) ∧
    (∃ s : State, s.cyc.running = true ∧ s.cyc.n % 1024 = 0 ∧ s.hlm.reportAt ≠ some s.cyc.n) :=
  ⟨⟨{ mbS 6 { st := .busy, op := 1 } (reqB 1 1) with sfi := { st := .normal } }, .sto, [255], by decide +kernel⟩,
   ⟨mbS 6 { st := .busy, op := 1 } (reqB 1 9), by decide +kernel⟩,
   ⟨{ hostS [(Reg.mbxCfg, 4)] with sfi := { st := .normal } }, reqB 1 1, .sto, [255], by decide +kernel⟩,
   ⟨{ mbS 6 { st := .busy, op := 2 } (reqB 2 1) with sfi := { st := .normal, hostReq := [{ axis := 255, func := .sto, src := .host }] } }, .sto, [255], by decide +kernel⟩,
   ⟨hostS [], 15, by decide⟩,
   ⟨hostS [(Reg.mbxDbOut, 0xF0)], by decide⟩,
   ⟨{ hostS [] with cyc := { running := true, n := 2048, c0 := 0 } }, by decide⟩⟩

/-- States and operands that meet the hypotheses of `Obligations.RingsCarryWorkItems`. -/
theorem witness_RingsCarryWorkItems :
    (∃ s : State, ∃ r : Nat, s.hostOpen = true ∧ r < 16 ∧ s.ringRole r = 1) ∧
    (∃ s : State, ∃ r : Nat, s.hostOpen = true ∧ r < 16 ∧ 2 ≤ s.ringRole r) ∧
    (∃ s : State, ∃ r : Nat, r < 16 ∧ (∀ q, q < 16 → (s.ringRole q = 1 ↔ q = r)) ∧ (∀ q, q < 16 → s.ringRole q ≠ 2) ∧ s.wks.stalled = [] ∧ (s.glb.role = .lit ∨ s.glb.role = .alone) ∧ s.rdBit Reg.mbxDbIn (8 + r) = true ∧ s.ringFill r = 1 ∧ s.wks.taken.length < 1024 ∧ (∀ c, s.preparing c = none) ∧ s.injSlots 3 0 = [] ∧ s.injSlots 4 0 = [] ∧ s.hlm.badWords = []) ∧
    (∃ s : State, ∃ c : Nat, ∃ u : Taken, s.coresReady.contains c = true ∧ s.preparing c = none ∧ s.nextReady = some u ∧ s.injSlots 1 2 = [] ∧ s.injSlots 2 2 = []) ∧
    (∃ s : State, ∃ c : Nat, ∃ u : Taken, s.preparing c = some u ∧ u.item.prepare = none ∧ (u.item.opcode ≠ Opc.axisCreate ∨ s.desc? (hIdx u.item.handle) ≠ none)) ∧
    (∃ s : State, ∃ c : Nat, ∃ u : Taken, ∃ status : Nat, s.preparing c = some u ∧ u.item.prepare = some status) ∧
    (∃ s : State, ∃ e : WaitEntry, s.wks.waiting.find? s.entryReady = some e ∧ e.ring < 16) ∧
    (∃ s : State, ∃ e : WaitEntry, ∃ c : Nat, s.wks.waiting.find? s.entryReady = some e ∧ e.ring = 0x80 + c ∧ c < 4 ∧ (s.mbChan c).st = .busy) :=
  ⟨⟨{ wksS 2 {} with elg := { running := true } }, 2, by decide⟩,
   ⟨wksS 2 {}, 3, by decide⟩,
   ⟨{ wksS 1 {} with dram := [(0x5000000, 0x14)], regs := regsOf [(Reg.wksRingCfg 2, 0x22300000), (Reg.wksRingBaseLo 2, 0x5000000), (Reg.wksRingProd 2, 1), (Reg.mbxDbIn, 0x400)] }, 2, by decide, by decide, by decide, rfl, by decide, by decide, by decide, by decide, fun _ => rfl, by decide, by decide, rfl⟩,
   ⟨wksS 0 { taken := [tkn (.ready) (markI 0 0)] }, 1, tkn (.ready) (markI 0 0), by decide⟩,
   ⟨wksS 0 { taken := [tkn (.preparing 1 0) (markI 8 0)] }, 1, tkn (.preparing 1 0) (markI 8 0), by decide⟩,
   ⟨wksS 0 { taken := [tkn (.preparing 1 0) (itm 0x40 0 0 [])] }, 1, tkn (.preparing 1 0) (itm 0x40 0 0 []), Stat.badParam, by decide⟩,
   ⟨wksS 2 { waiting := [{ ring := 3, bytes := [9], seq := 5, status := 3 }] }, { ring := 3, bytes := [9], seq := 5, status := 3 }, by decide⟩,
   ⟨{ wksS 0 { waiting := [{ ring := 0x81, bytes := [9], seq := 5, status := 3 }] } with mbx := { chans := [(1, { st := .busy, waitItem := true })] } }, { ring := 0x81, bytes := [9], seq := 5, status := 3 }, 1, by decide⟩⟩

/-- States and operands that meet the hypotheses of `Obligations.SignalsMarksSparesAndForwardedItems`. -/
theorem witness_SignalsMarksSparesAndForwardedItems :
    (∃ s : State, ∃ it : Item, ItemTaken s Opc.signalWrite it ∧ (∀ k, k < it.u 20 1 → s.signalBad (itemPair it k).1 = none)) ∧
    (∃ s : State, ∃ it : Item, ∃ k : Nat, ItemTaken s Opc.signalWrite it ∧ k < it.u 20 1 ∧ s.signalBad (itemPair it k).1 ≠ none) ∧
    (∃ s : State, ∃ it : Item, ItemTaken s Opc.logMark it) ∧
    (∃ s : State, ∃ it : Item, ∃ kind : Nat, ∃ i : Nat, ItemTaken s Opc.spareTest it ∧ it.u 21 1 = kind ∧ it.u 22 1 = i ∧ (kind = 1 ∧ i < 18 ∨ kind = 2 ∧ i < 5) ∧ s.spareBusy kind = false ∧ (∀ b, b ∈ it.args.drop 3 → b = 0)) ∧
    (∃ s : State, TwPasses s ∧ s.cyc.running = true ∧ (s.glb.role = .pilot ∨ s.glb.role = .probation)) :=
  ⟨⟨ctlS { writers := [(7, .signalWrite)] }, sigI, by decide⟩,
   ⟨ctlS {}, sigI, 0, by decide⟩,
   ⟨{ ctlS {} with elg := { running := true } }, markI 0 0, by decide⟩,
   ⟨{ ctlS {} with cea := { engs := [(17, { st := .spare })] } }, { itm 0x15 0 0 [1, 1, 17, 0] with handle := 0 }, 1, 17, by decide +kernel⟩,
   ⟨{ twS .pilot {} with cfl := { applied := true, body := { ctrls := [{ writers := [(7, .signalWrite)] }] } } }, by decide⟩⟩

/-- States and operands that meet the hypotheses of `Obligations.RecorderAndHealthAct`. -/
theorem witness_RecorderAndHealthAct :
    (∃ s : State, ∃ e : Ev, ∃ rest : List Ev, s.elg.queue = e :: rest ∧ s.elg.running = true ∧ (∀ l, l ∈ s.elg.lims → l.code ≠ e.code) ∧ s.elg.full = false ∧ s.drainOpen (s.recordsFor e.cycle) = true ∧ s.elg.lastHi = some (e.cycle / 2 ^ 32) ∧ s.injSlots 0x21 0 = [] ∧ (s.rd Reg.elgWrIdx).toNat + 2 < s.logRecs ∧ s.logAddr (s.rd Reg.elgWrIdx).toNat + 32 ≤ s.dramSize ∧ e.args.length = 3) ∧
    (∃ s : State, ∃ e : Ev, ∃ rest : List Ev, s.elg.queue = e :: rest ∧ s.elg.running = true ∧ (∀ l, l ∈ s.elg.lims → l.code ≠ e.code) ∧ s.elg.full = true) ∧
    (∃ s : State, ∃ l : Nat, ∃ x : Lim, s.elg.lims[l]? = some x ∧ x.period ≤ x.age) ∧
    (∃ s : State, s.hostOpen = true) ∧
    (∃ s : State, s.hostOpen = true) ∧
    (∃ s : State, s.hostOpen = true) ∧
    (∃ s : State, ∃ kind : Nat, ∃ i : Nat, (kind = 1 ∨ kind = 2) ∧ s.unitSt kind i = .test) ∧
    (∃ s : State, ∃ i : Nat, s.rdFld Reg.hlmCfg2 13 0 ≠ 0 ∧ s.cyc.running = true ∧ s.hlm.lastRotate + s.rdFld Reg.hlmCfg2 13 0 * 3600 * secTicks ≤ s.now ∧ s.rotateFree 1 = true ∧ s.longest 1 = some i) ∧
    (∃ s : State, ∃ c : Nat, c < 5 ∧ (s.core c).st = .inService ∧ s.injSlots 9 c = []) ∧
    (∃ s : State, ∃ c : Nat, c < 5 ∧ (s.core c).st = .inService ∧ (s.core c).loading = true) ∧
    (∃ s : State, (∀ k, s.injSlots 1 k = []) ∧ (∀ k, s.injSlots 2 k = [])) ∧
    (∃ s : State, ∃ losses : List Nat, ∃ k : Nat, ∃ v : Nat, s.cyc.running = true ∧ s.cyc.n % 2 ^ 20 = 0 ∧ k < 24 ∧ losses[k]? = some v) ∧
    (∃ s : State, ∃ temps : List Int, ∃ k : Nat, ∃ x : Int, k < 8 ∧ temps[k]? = some x ∧ (∀ u, s.injSlots 0x1C u = [])) ∧
    (∃ s : State, ∃ i : Nat, s.hostOpen = true ∧ i < 8) :=
  ⟨⟨elgS { running := true, queue := [{ code := 0x0201, args := [1, 2, 3], cycle := 7, stamp := 4 }], lastHi := some 0 }, { code := 0x0201, args := [1, 2, 3], cycle := 7, stamp := 4 }, [], by decide⟩,
   ⟨elgS { running := true, full := true, queue := [{ code := 0x0201, args := [1, 2, 3], cycle := 7, stamp := 4 }] }, { code := 0x0201, args := [1, 2, 3], cycle := 7, stamp := 4 }, [], by decide⟩,
   ⟨elgS { lims := [{ code := 0x0201, burst := 4, period := 10, tokens := 1, age := 12 }] }, 0, { code := 0x0201, burst := 4, period := 10, tokens := 1, age := 12 }, by decide⟩,
   ⟨elgS {}, by decide⟩,
   ⟨elgS {}, by decide⟩,
   ⟨elgS {}, by decide⟩,
   ⟨{ elgS { running := true } with cea := { engs := [(17, { st := .test })] } }, 1, 17, by decide⟩,
   ⟨{ hlmS [(Reg.hlmCfg2, 1)] {} with cea := { engs := [(0, { st := .inService }), (17, { st := .spare })] }, ft := 10 ^ 18 * 2 ^ 32 }, 0, by decide⟩,
   ⟨hlmS [] {}, 1, by decide⟩,
   ⟨hlmS [] { cores := [(4, { loading := true })] }, 4, by decide⟩,
   ⟨elgS { running := true }, fun _ => rfl, fun _ => rfl⟩,
   ⟨hlmS [(Reg.hlmCfg, 0x30000)] {}, List.replicate 24 7, 2, 7, by decide⟩,
   ⟨hlmS [(Reg.hlmThermCfg, 20)] {}, List.replicate 8 25, 3, 25, by decide, by decide, fun _ => rfl⟩,
   ⟨{ hlmS [] {} with glb := { opened := true, st := .ready } }, 2, by decide⟩⟩

/-- States and operands that meet the hypotheses of `Obligations.AxisAndInputFrames`. -/
theorem witness_AxisAndInputFrames :
    ∀ c, c ∈ ([.feedbackLost 3, .cmdLost 3, .followingError 3, .keWindowFilled 3, .frameStage 3 1, .jobDispatch,
      .jobSkipped 3 1, .cycleOverrun 1, .engineReset 1, .urgentStop 1, .engineHalt 1, .jobWritebackEnd 1,
      .actuationInstant, .loadRestart, .slackRestart, .obsRestart, .cycleBoundary, .admitTimeout 3, .homeDone 3,
      .enableTimeout 3, .quadEdge 1 true true true, .indexEvent 1, .encSettle 1, .serialReadStart 1,
      .sincosConversion 1 1 1, .scSignal 1, .fitCompleted 1 1 1 1 1, .serialReadEnd 1 1 1 1, .reread 1,
      .bissRegisterRead 1 1 1, .bissRegisterWrite 1 1 1 1, .bissTransactionEnd 1 1 true, .probeArm 1 1,
      .probeAck 1 1, .standstillTimeout 1, .fastInputTransition 1 true, .inputStuck 1, .inputReleased 1,
      .chatterRelease 1, .dioOutSet 3, .dioOutClr 3, .outputEdgeDue 1, .rotorLost 3, .recatchDue 3,
      .retryWaitElapsed 3, .holdCurrentTimeout 3, .recatchEnd 3, .magTimeElapsed 3, .startTimeout 3, .alignStepEnd 3,
      .offsetFit 3, .segDone 3, .softLimit 3, .lauPost, .coastExpiry 1, .rejoinSlewEnd 1, .periodicEdgeMissing 1,
      .camCopyDone 1, .localSamplePost 1 1, .ulEnd 1, .captureDone 3, .captureForced 3] : List Instr) → ∃ t, exec c State.reset = .next t :=
  runs_of (by decide)

/-- States and operands that meet the hypotheses of `Obligations.WorkItemFrames`. -/
theorem witness_WorkItemFrames :
    ∀ c, c ∈ ([.axisCreate (itemN 0x01), .axisDestroy (itemN 0x02), .axisEnable (itemN 0x03), .axisDisable (itemN 0x04),
      .moveAbs (itemN 0x05), .moveRel (itemN 0x06), .moveVel (itemN 0x07), .stopItem (itemN 0x08),
      .homeItem (itemN 0x09), .coefWrite (itemN 0x0F), .coefSwap (itemN 0x10), .gearSet (itemN 0x0A),
      .gearChangeAt (itemN 0x0B), .camSet (itemN 0x0C), .compareArm (itemN 0x0D), .compareDisarm (itemN 0x0D),
      .captureArm (itemN 0x0E), .captureDisarm (itemN 0x0E), .signalWrite (itemN 0x11), .logMark (itemN 0x14),
      .epochStage (itemN 0x12), .epochCommit (itemN 0x13), .spareTestTest (itemN 0x15),
      .spareTestRotate (itemN 0x15), .spareTestReturn (itemN 0x15), .forwardedWorkItem (itemN 0x01)] : List Instr) → ∃ t, exec c State.reset = .next t :=
  runs_of (by decide)

/-- States and operands that meet the hypotheses of `Obligations.NetworkFrames`. -/
theorem witness_NetworkFrames :
    ∀ c, c ∈ ([.ulBundleFrame 1 [] true, .babble 1, .linkDown 1, .linkUp 1, .uplinkRecordLanded 1 1, .downlinkSlot 1,
      .joinReq 1 [], .safeFrame 1 [], .cplStat 1 [], .joinTimeout 1 true, .portFenced 1 true, .trimAlarm 1 true,
      .asymDisagree 1, .ptpSync 1 { domain := 0, sender := 9, seq := 4, twoStep := true, origin := 7, corr := 1 },
      .ptpFollowUp 1 { domain := 0, sender := 9, seq := 4, twoStep := true, origin := 7, corr := 1 },
      .ptpPdelayReq 1 1, .ptpPdelayResp 1 { domain := 0, seq := 0, turn := 9, tlv := none },
      .ptpAnnounce 1 { domain := 0, p1 := 1, cls := 6, acc := 3, var := 4, p2 := 5, id := 9, steps := 0, sender := 9 },
      .ptpManagement 1, .ptpSyncSend 1, .ptpAnnounceSend 1, .ptpPdelaySend 1, .pdelayTimeout 1, .timeSync,
      .timeUnsync, .holdoverEnter, .announceTimeout, .asymCheck, .ppsLost, .ppsOutEdge, .ppsInEdge true,
      .plantPtpExchange 1, .helloSend, .fabDataSend, .helloFrame 1 [], .idAssigned [], .fabData 1 [],
      .asyncFrameRelease 1, .memberLost 3, .signalStale 1, .epochOffer 1 1 true [] [], .cfgXfer 5 0 1 [1],
      .epochNeed 1 [], .stageDone {} [] true, .epochReadyReceived 1 1 none, .epochFail 1 1 1, .commitReceived,
      .epochAbort 1 1 [], .epochReadyTimeout, .epochOfferTimeout, .landMapSend, .landMap [], .dlCopy [],
      .selfTestStart, .selfTest true, .hb 1 1 1 1 1 1 true true, .stateChunk (.cutover 7), .twMsg true 1 [],
      .partnerActChange true true, .actRaise, .wickConflict, .startWait, .wickFault 2, .cycStall, .hbLost,
      .twinLink true 1 1, .handover, .handoverActDrop, .requalify, .twuAccept 3, .peerAccepted true,
      .imageAdopt [] {} [], .peerWrite true true true] : List Instr) → ∃ t, exec c State.reset = .next t :=
  runs_of (by decide)

/-- States and operands that meet the hypotheses of `Obligations.HostFrames`. -/
theorem witness_HostFrames :
    ∀ c, c ∈ ([.bar0BadAccess true 2 2, .rcCounterRead 28 1, .holdingRegisterRead 28, .perstN, .pcieLink true 1 1,
      .bar2Access 1 1 none none, .msixMessage 1, .postMsg 3, .releaseMsg 3, .mailboxTake 3, .echoOp 3, .signalRead 3,
      .infoOp 3, .workOp 3, .twinSend, .fabricSend, .fabricMsg 1 true 1 [], .demandReq none, .withdrawReq none,
      .diagRead 28 1, .logRead 1, .tokenCmd (List.replicate 208 0), .flashCmd 1 1 {}, .kickRing 1, .dbOutSet 3,
      .dbOutClr 3, .sourceArrival 1 true, .claimSrc 1, .claimByVector 1 1, .completeSrc 1 3, .maskSet 1 3,
      .maskClr 1 3, .pendClr 1 3, .pendSet 1 3, .prodWrite 1 3, .consWrite 1 3, .itemTake, .itemPrepare 3,
      .itemStage 3, .completionWrite, .eventRecordWrite, .limiterToken 1, .elgRestart, .cursorWrite 3, .windowRead,
      .pcieConfigWrite (.power true)] : List Instr) → ∃ t, exec c State.reset = .next t :=
  runs_of (by decide)

/-- States and operands that meet the hypotheses of `Obligations.SafetyPowerAndHealthFrames`. -/
theorem witness_SafetyPowerAndHealthFrames :
    ∀ c, c ∈ ([.islandStart 3 3 true, .sfiEvaluation, .posDisc 1, .inputDisc 1, .sfiCrossCompare true true true, .scaClock,
      .scbClock, .connLost 3, .ss1Timeout 3, .sbcEngage 3, .safeInputChange 1 true true, .outReadback 1 true,
      .outputTestPulse 1 true, .safeReset true true, .resetStuck, .powerOn 1 true 2, .dramTrainingDone true true,
      .dramWipeDone true 1, .imageReadDone, .imageVerifyDone {} [], .vinLow 1, .vinLowClear 1, .vinHigh 1,
      .encRampEnd 1, .encCut 1, .encRetryDue 1, .encOvervolt 1, .encTotal 1, .encRetry 3, .tokenTransition,
      .tokenKeyAdd, .tokenKeyRevoke, .imageAdopted {} [], .adoptTimeout, .flashProgramSlot true true {},
      .flashErasePeer true, .flashDone 1 [], .spareTestDone 1 3 true, .spareRotation, .coreWatchdog 3 true,
      .coreFirmwareLoaded 3, .scrubPass [], .wearMeasurement [], .thermalRead [], .healthReport, .injectionArm 1 3,
      .fabricLinkChange 1 true 1 1, .thermalResetRelease 2, .sfiSupplyTrip true, .adoptionRequest 1] : List Instr) → ∃ t, exec c State.reset = .next t :=
  runs_of (by decide)

/-- States and operands that meet the hypotheses of `Obligations.CommandsLeaveOtherObjectsAlone`. -/
theorem witness_CommandsLeaveOtherObjectsAlone :
    (∃ s e w t, EngineAt s e 0 w ∧ noMove w ∧ (s.eng e).urgPend = false ∧ (s.eng e).ovrPend = false ∧ exec (.mov e) s = .next t) ∧
    (∀ c, c ∈ ([.feedbackLost 3, .cmdLost 3, .followingError 3, .softLimit 3, .rotorLost 3, .recatchDue 3, .recatchEnd 3, .magTimeElapsed 3, .alignStepEnd 3,
      .startTimeout 3, .retryWaitElapsed 3, .keWindowFilled 3, .offsetFit 3, .holdCurrentTimeout 3] : List Instr) → ∃ t, exec c State.reset = .next t) ∧
    (∀ c, c ∈ ([.encSettle 3, .scSignal 3, .fitCompleted 3 1 2 3 4, .serialReadStart 3, .bissRegisterRead 3 1 2, .bissRegisterWrite 3 1 2 4,
      .bissTransactionEnd 3 1 true, .probeArm 3 1, .probeAck 3 1] : List Instr) → ∃ t, exec c State.reset = .next t) ∧
    (∀ c, c ∈ ([.inputStuck 3, .inputReleased 3, .chatterRelease 3, .outputEdgeDue 3] : List Instr) → ∃ t, exec c State.reset = .next t) ∧
    (∀ c, c ∈ ([.coastExpiry 3, .rejoinSlewEnd 3, .periodicEdgeMissing 3] : List Instr) → ∃ t, exec c State.reset = .next t) ∧
    (∀ c, c ∈ ([.joinTimeout 3 true, .portFenced 3 true, .trimAlarm 3 true, .asymDisagree 3] : List Instr) → ∃ t, exec c State.reset = .next t) ∧
    (∀ c, c ∈ ([.cycleOverrun 3, .urgentStop 3, .engineReset 3] : List Instr) → ∃ t, exec c State.reset = .next t) ∧
    (∀ c, c ∈ ([.postMsg 3, .releaseMsg 3, .mailboxTake 3, .echoOp 3, .signalRead 3, .infoOp 3] : List Instr) → ∃ t, exec c State.reset = .next t) :=
  ⟨⟨engS {} 0 17, 17, 0, _, by decide, by decide, rfl, rfl, rfl⟩,
   runs_of (by decide),
   runs_of (by decide),
   runs_of (by decide),
   runs_of (by decide),
   runs_of (by decide),
   runs_of (by decide),
   runs_of (by decide)⟩

/-- States and operands that meet the hypotheses of `Obligations.CompletionsEndClaims`. -/
theorem witness_CompletionsEndClaims :
    (∃ s : State, ∃ k, ∃ v : Word, s.hostOpen = true ∧ k < 4 ∧ fld v 9 0 ≤ 0x1FF ∧ (s.src (fld v 9 0)).active = true ∧ (s.src (fld v 9 0)).owner = k) ∧
    (∃ s : State, ∃ k, ∃ v : Word, s.hostOpen = true ∧ k < 4 ∧ fld v 9 0 ≠ 0x3FF ∧
      ¬ (fld v 9 0 ≤ 0x1FF ∧ (s.src (fld v 9 0)).active = true ∧ (s.src (fld v 9 0)).owner = k)) ∧
    (∃ s : State, ∃ k, ∃ v : Word, s.hostOpen = true ∧ k < 4 ∧ fld v 9 0 = 0x3FF) :=
  ⟨⟨srcS { active := true, owner := 1, sense := .level, input := true }, 1, 0x21, by decide⟩, ⟨srcS { active := true, owner := 1, sense := .level, input := true }, 3, 0x200, by decide⟩, ⟨srcS { active := true, owner := 1, sense := .level, input := true }, 3, 0x3FF, by decide⟩⟩

/-- States and operands that meet the hypotheses of `Obligations.SafetyRangeIsReadOnly`. -/
theorem witness_SafetyRangeIsReadOnly :
    (∃ a, 0x160000 ≤ a ∧ a < 0x170000 ∧ a % 4 = 0) ∧
    (∃ s : State, ∃ a, 0x160000 ≤ a ∧ a < 0x170000 ∧ a % 4 = 0 ∧ s.hostUp = true) ∧
    (∃ s : State, ∃ k, k < s.sfi.cnts.length) :=
  ⟨⟨0x16FFFC, by decide⟩,
   ⟨hostS [], 0x160000, by decide⟩,
   ⟨State.reset, 6, by decide⟩⟩

/-- States and operands that meet the hypotheses of `Obligations.StepTakesTheFrontCommand`. -/
theorem witness_StepTakesTheFrontCommand :
    (∃ s : State, ∃ c rest, s.pending = c :: rest) ∧
    (∃ s : State, s.pending = []) :=
  ⟨⟨{ pending := [.cycleBoundary, .babble 3] }, _, _, rfl⟩,
   ⟨State.reset, rfl⟩⟩

/-- States and operands that meet the hypotheses of `Obligations.StepsKeepCanonicalForm`. -/
theorem witness_StepsKeepCanonicalForm :
    ∃ s t : State, s.wf ∧ step s = .next t :=
  ⟨State.reset, _, ⟨rfl, rfl⟩, rfl⟩

/-- States and operands that meet the hypotheses of `Obligations.FusesOnlyAdvance`. -/
theorem witness_FusesOnlyAdvance :
    ∃ s t : State, step s = .next t ∧ t.fuses ≠ s.fuses :=
  ⟨{ tokS tokSvc with pending := [.tokenTransition] }, _, rfl, by decide +kernel⟩

/-! ### Operands out of range: one term for each check of WellFormed, and the sample commands of the witnesses pass -/

theorem test_engine_and_axis_operands_refused :
    ([.mov 18, .jobWritebackEnd 18, .urgentStop 18, .feedbackLost 256, .sbcEngage 256, .frameStage 256 0, .frameStage 0 2, .jobSkipped 256 0
      , .jobSkipped 0 2, .segDone 0x100, .segDone 0x7FFF, .segDone 0x8010, .standstillTimeout 8, .standstillTimeout 0x8100
      , .posDisc 64] : List Instr).all (fun c => !c.wf) = true := by decide +kernel

theorem test_input_and_output_operands_refused :
    ([.localSamplePost 8 0, .localSamplePost 0 2, .indexEvent 8, .encCut 8, .probeArm 8 0, .probeArm 0 2, .bissRegisterRead 8 0 0
      , .bissRegisterRead 0 8 0, .bissRegisterRead 0 0 128, .bissRegisterWrite 0 8 0 0, .bissRegisterWrite 0 0 128 0
      , .bissRegisterWrite 0 0 0 256, .inputStuck 16, .outputEdgeDue 16, .coastExpiry 16, .camCopyDone 256, .safeInputChange 8 true true
      , .outReadback 4 true, .captureDone 32] : List Instr).all (fun c => !c.wf) = true := by decide +kernel

theorem test_network_operands_refused :
    ([.babble 8, .linkUp 8, .downlinkSlot 1024, .joinTimeout 256 true, .ulEnd 3, .ptpSyncSend 3, .asyncFrameRelease 2, .memberLost 64
      , .adoptionRequest 64, .epochNeed 64 [], .epochFail (2 ^ 32) 0 0, .epochFail 0 64 0, .epochReadyReceived 0 64 none
      , .epochAbort (2 ^ 32) 0 [], .epochOffer (2 ^ 32) 0 true [] [], .epochOffer 0 64 true [] [], .cfgXfer 65 0 1 [], .cfgXfer 0 1 1 []
      , .connLost 512, .wickFault 0, .wickFault 4] : List Instr).all (fun c => !c.wf) = true := by decide +kernel

theorem test_power_and_host_operands_refused :
    ([.railReset 0, .railReset 4, .clockReset 4, .powerOn 0 true 4, .registerWrite 2 0, .registerWrite 0x400000 0, .rcCounterRead 1 1
      , .holdingRegisterRead 0x400000, .bar0BadAccess true 0x400000 4, .bar2Access (2 ^ 28) 4 none none, .postMsg 8, .echoOp 4, .kickRing 16
      , .consWrite 16 0, .sourceArrival 512 true, .claimSrc 4, .completeSrc 4 0, .claimByVector 4 0, .claimByVector 0 8, .maskSet 16 0
      , .msixMessage 32, .itemPrepare 5, .coreWatchdog 5 true, .limiterToken 64, .spareTestDone 1 18 true, .spareTestDone 2 5 true
      , .spareTestDone 3 0 true, .injectionArm 8 0, .thermalRead (List.replicate 9 0), .diagRead 0 256, .tokenCmd (List.replicate 207 0)
      , .flashCmd 2 0 {}, .flashCmd 0 3 {}, .flashDone 4 []] : List Instr).all (fun c => !c.wf) = true := by decide +kernel

theorem test_items_of_another_size_origin_or_opcode_refused :
    ([.moveAbs (itm 5 1 255 []), .moveAbs (itemN 6), .logMark { itemN 0x14 with origin := 16 }, .logMark { itemN 0x14 with due := 2 ^ 64 }
      , .forwardedWorkItem (itm 5 1 255 [])] : List Instr).all (fun c => !c.wf) = true := by decide +kernel

theorem test_commands_in_range_pass :
    ([.mov 17, .feedbackLost 255, .frameStage 255 1, .segDone 0x800F, .standstillTimeout 0x80FF, .localSamplePost 7 1, .bissRegisterWrite 7 7 127 255
      , .outputEdgeDue 15, .downlinkSlot 1023, .ulEnd 2, .cfgXfer 64 0 1 [], .epochAbort (2 ^ 32 - 1) 0 [], .wickFault 3, .railReset 3
      , .registerWrite 0x3FFFFC 0, .claimByVector 3 7, .spareTestDone 2 4 true, .tokenCmd (List.replicate 208 0), .flashDone 3 []
      , .moveAbs (itemN 5), .flashCmd 1 2 {}] : List Instr).all Instr.wf = true := by decide +kernel

/-- The command table gives no row any bits. -/
theorem test_no_word_spells_a_command : decodeTableWord 32 0 = none ∧ decodeTableWord 0 0 = none := by decide

/-! ### Worked examples of the spec -/

/-- Section 00: the handle of axis index 17 in its third generation. -/
theorem test_handle_of_section_00 :
    mkHandle 1 3 17 = 0x10030011 ∧ hType 0x10040011 = 1 ∧ hGen 0x10040011 = 4 ∧ hIdx 0x10040011 = 17 := by decide

/-- Section 09, a new target behind the axis at full speed: times in microseconds, positions in counts and speeds in counts a second,
each to the nearest. -/
theorem test_profile_of_section_09 :
    let rs : Ramp :=
      { vmax := 400000 * 2 ^ 24, vbrk := 200000 * 2 ^ 24, a1 := 8000000 * 2 ^ 16, d1 := 8000000 * 2 ^ 16, a2 := 4000000 * 2 ^ 16, d2 := 4000000 * 2 ^ 16 }
    let sg : Seg := { tag := 0, target := 990000 * 2 ^ 32, cruise := 400000 * 2 ^ 24, vstart := 0, vstop := 0, rset := 0 }
    (planSeg rs sg 0 (1000000 * 2 ^ 32) (400000 * 2 ^ 24) 0 true).phases.map (fun p =>
      ((p.t + 32768000) / 65536000, (p.p + 2 ^ 31) / 2 ^ 32, (p.v + 2 ^ 23) / 2 ^ 24)) =
      [(0, 1000000, 400000), (50000, 1015000, 200000), (75000, 1017500, 0), (100000, 1015000, -200000), (140139, 1003750, -360555),
       (180278, 992500, -200000), (205278, 990000, 0)] := by decide +kernel

/-- Section 10, the glue valve: the crossing lies 9,999.680 ns after S, and 44/64 ns is the next point of the grid. -/
theorem test_compare_of_section_10 :
    (solveModel { th := 1204999950 * 2 ^ 32 / 1000000, v := 5 * 2 ^ 24, a := 32 * 2 ^ 16 } 0 (1205 * 2 ^ 32) (400 * 64) (16025 * 64)).map
      (fun t => (t / 64, t % 64)) = some (9999, 44) := by decide +kernel

/-- Section 12, controller 5: the learned term is 2.75 ns, and the Sync shows an offset of 0.75 ns. -/
theorem test_offset_of_section_12 :
    let ns : Nat := 65536
    learned (36 * ns + ns / 2) (30 * ns) (35 * ns) (31 * ns + ns / 4) = 2 * ns + 3 * ns / 4 ∧
      syncOffset (500000111 * ns + ns / 2) (500000000 * ns) 0 (110 * ns + 3 * ns / 4) = 3 * ns / 4 := by decide

/-! ### Published check values, and an image signed outside Lean -/

theorem test_crc32c_check_value : crc32c [0x31, 0x32, 0x33, 0x34, 0x35, 0x36, 0x37, 0x38, 0x39] = 0xE3069283 := by decide +kernel

theorem test_sha256_of_abc : beNat (sha256 [0x61, 0x62, 0x63]) =
    0xba7816bf8f01cfea414140de5dae2223b00361a396177a9cb410ff61f20015ad := by decide +kernel

/-- R424: the signed image passes; with another build stamp its signature fails, and with another section digest that digest does. -/
theorem test_image_checks :
    imageChecks imgFuses false img imgBody.firm = none ∧
      (imageChecks imgFuses false (img.set 16 1) imgBody.firm).map (·.code) = some 3 ∧
      (imageChecks imgFuses false (img.set 152 1) imgBody.firm).map (·.code) = some 2 := by decide +kernel

/-- R404, R405: the signed token passes, and fails in RUN and with another nonce. -/
theorem test_token_checks :
    (tokS tokSvc).tokenCheck (tokS tokSvc).token = 0 ∧ (powS .run {}).tokenCheck tokSvc = 2 ∧
      (tokS (tokSvc.set 16 1)).tokenCheck (tokS (tokSvc.set 16 1)).token = 4 := by decide +kernel

end Sys2Proof.Tests
end

/-! SUPPORT. The SFI range of BAR0 as the host meets it (R389). No address of the range is one that the bus
decodes to an effect or a view of its own, so a write goes by access codes alone and a read shows the register file. -/

namespace Sys2Proof.Machine

/-! ### Addresses of the SFI range -/

/-- The SFI range of BAR0 (the BAR0 map of chapter 01). -/
def InSfiRange (a : Nat) : Prop := 0x160000 ≤ a ∧ a < 0x170000

/-- Registers that all lie below `a`, or all above it, have none at `a`. -/
theorem regIdx_eq_none {a base stride n : Nat} (h0 : 0 < stride) (h : base + stride * n ≤ a ∨ a < base) :
    regIdx a base stride n = none := by
  refine if_neg fun ⟨hle, _, hlt⟩ => ?_
  have hub : a - base < n * stride := (Nat.div_lt_iff_lt_mul h0).1 hlt
  rw [Nat.mul_comm] at hub
  omega

section
variable {a : Nat} (ha : InSfiRange a)
include ha

theorem InSfiRange.ne {k : Nat} (hk : k < 0x160000 ∨ 0x170000 ≤ k) : a ≠ k := by
  obtain ⟨hlo, hhi⟩ := ha
  omega

theorem InSfiRange.regIdx_eq {base stride n : Nat} (h : 0 < stride ∧ (base + stride * n ≤ 0x160000 ∨ 0x170000 ≤ base)) :
    regIdx a base stride n = none := by
  obtain ⟨hlo, hhi⟩ := ha
  exact regIdx_eq_none h.1 (by omega)

theorem InSfiRange.windowOf_eq : windowOf a = none := by
  obtain ⟨hlo, hhi⟩ := ha
  exact if_neg (by omega)

/-- The range opens with DISCOVER (R26). -/
theorem InSfiRange.reach_eq (s : State) : s.reach a = (s.hostUp && s.glb.opened) := by
  obtain ⟨hlo, hhi⟩ := ha
  have hearly : earlyRange a = false := by
    simp only [earlyRange, Bool.or_eq_false_iff, Bool.and_eq_false_iff, decide_eq_false_iff_not]
    omega
  rw [State.reach, hearly, Bool.or_false]

theorem InSfiRange.banksAt_eq : banksAt a = banksSfi := by
  obtain ⟨hlo, hhi⟩ := ha
  have hpage : a / 0x10000 = 0x16 := by omega
  simp only [banksAt, hpage]

end

/-! ### Registers of the SFI range -/

/-- Every register of the SFI range is RO in all its bits (the register descriptions of chapter 15). -/
theorem banksSfi_readOnly :
    ∀ b ∈ banksSfi, b.rw = 0 ∧ b.w1c = 0 ∧ b.w1s = 0 ∧ b.wo = 0 ∧ b.rc = 0 := by decide

theorem InSfiRange.readOnly {a : Nat} (ha : InSfiRange a) {b : Bank} (hb : bankOf a = some b) :
    b.rw = 0 ∧ b.w1c = 0 ∧ b.w1s = 0 ∧ b.wo = 0 ∧ b.rc = 0 := by
  rw [bankOf, ha.banksAt_eq] at hb
  exact banksSfi_readOnly b (List.mem_of_find?_eq_some hb)

theorem and_not_ofNat_zero (x : Word) : x &&& ~~~BitVec.ofNat 32 0 = x := by
  rw [BitVec.not_zero, BitVec.and_allOnes]

/-- A write by access codes changes no bit of a register that is RO throughout. -/
theorem Bank.put_readOnly {b : Bank} (hrw : b.rw = 0) (hw1c : b.w1c = 0) (hw1s : b.w1s = 0) (hwo : b.wo = 0) (old v : Word) :
    b.put old v = old := by
  simp only [Bank.put, hrw, hw1c, hw1s, hwo, and_not_ofNat_zero, BitVec.and_zero, BitVec.or_zero]

theorem State.plainWrite_sfi (s : State) (a : Nat) (v : Word) : (s.plainWrite a v).sfi = s.sfi := by
  unfold State.plainWrite
  split
  · exact State.wr_sfi ..
  · rfl

/-- TWU_PEER_LO, at 0x150010, is the last LO word of a pair. -/
theorem holdLo_eq_false {a : Nat} (hlo : 0x150014 ≤ a) : holdLo a = false := by
  have heiu : ¬ (0x80000 ≤ a ∧ a < 0x88000) := by omega
  have hne : ∀ k < 0x150014, a ≠ k := by omega
  have hreg : ∀ base stride n, 0 < stride ∧ base + stride * n ≤ 0x150014 → regIdx a base stride n = none :=
    fun base stride n h => regIdx_eq_none h.1 (.inl (h.2.trans hlo))
  simp (disch := decide) [holdLo, heiu, hne, hreg]

section
variable {a : Nat} (ha : InSfiRange a) (s : State)
include ha

/-! ### Writes -/

theorem InSfiRange.writeUnit_eq (v : Word) : s.writeUnit a v = none := by
  simp (disch := decide) only [State.writeUnit, ha.ne, ha.regIdx_eq, if_false]

theorem InSfiRange.writeMbx_eq (v : Word) : s.writeMbx a v = none := by
  have hbuf : ¬ (Reg.mbxChBuf 0 0 ≤ a ∧ a < Reg.mbxChBuf 8 0) := fun h => absurd (ha.2.trans_le (by decide)) h.1.not_gt
  simp (disch := decide) [State.writeMbx, ha.ne, ha.regIdx_eq, hbuf]

theorem InSfiRange.writeEvr_eq (v : Word) : s.writeEvr a v = none :=
  if_pos (.inl (ha.2.trans_le (by decide)))

/-- A write by access codes leaves every register of the block as it reads. -/
theorem InSfiRange.plainWrite_rd (v : Word) (r : Nat) : (s.plainWrite a v).rd r = s.rd r := by
  unfold State.plainWrite
  cases hb : bankOf a with
  | none => rfl
  | some b =>
    obtain ⟨hrw, hw1c, hw1s, hwo, -⟩ := ha.readOnly hb
    simp only [hwo, if_true, Bank.put_readOnly hrw hw1c hw1s hwo, State.rd_wr]
    split
    · next h => rw [h]
    · rfl

/-- A write of the host in the range either is not reached or goes by access codes alone. -/
theorem InSfiRange.bar0Write_eq (v : Word) :
    s.bar0Write a v = if s.reach a = false then s else s.plainWrite a v := by
  simp only [State.bar0Write, ha.writeUnit_eq, ha.writeMbx_eq, ha.writeEvr_eq]
  rfl

theorem InSfiRange.bar0Write_rd (v : Word) (r : Nat) : (s.bar0Write a v).rd r = s.rd r := by
  rw [ha.bar0Write_eq]
  split
  · rfl
  · exact ha.plainWrite_rd s v r

theorem InSfiRange.bar0Write_sfi (v : Word) : (s.bar0Write a v).sfi = s.sfi := by
  rw [ha.bar0Write_eq]
  split
  · rfl
  · exact s.plainWrite_sfi a v

/-! ### Reads -/

theorem InSfiRange.views_eq :
    s.viewGlb a = none ∧ s.viewCyc a = none ∧ s.viewHost a = none ∧ s.viewEvr a = none ∧ s.viewEiu a = none := by
  refine ⟨?glb, ?cyc, ?host, ?evr, ?eiu⟩
  case glb => simp (disch := decide) only [State.viewGlb, ha.ne, if_false]
  case cyc => simp (disch := decide) only [State.viewCyc, ha.ne, ha.regIdx_eq, if_false]
  case host => simp (disch := decide) only [State.viewHost, ha.ne, ha.regIdx_eq, or_self, if_false]
  case evr => exact if_pos (.inl (ha.2.trans_le (by decide)))
  case eiu => simp (disch := decide) only [State.viewEiu, ha.regIdx_eq, Option.map_none]

/-- A register of the range shows the word of the register file; an offset that none occupies shows 0 (R7). -/
theorem InSfiRange.peek_eq : s.peek a = if bankOf a ≠ none then s.rd a else 0 := by
  obtain ⟨hglb, hcyc, hhost, hevr, heiu⟩ := ha.views_eq s
  simp only [State.peek, ha.windowOf_eq, hglb, hcyc, hhost, hevr, heiu]
  cases hb : bankOf a with
  | none => rfl
  | some b =>
    obtain ⟨-, -, -, hwo, -⟩ := ha.readOnly hb
    simpa [hwo] using and_not_ofNat_zero (s.rd a)

theorem InSfiRange.claimRead_eq : s.claimRead a = none :=
  if_pos (.inl (ha.2.trans_le (by decide)))

/-- No register of the range is cleared by a read. -/
theorem InSfiRange.rcRead_eq (inc : Nat) : s.rcRead a inc = none := by
  simp (disch := decide) only [State.rcRead, ha.regIdx_eq]
  cases hb : bankOf a with
  | none => rfl
  | some b =>
    obtain ⟨-, -, -, -, hrc⟩ := ha.readOnly hb
    exact if_pos hrc

/-- No word of the range is held for another, nor holds one. -/
theorem InSfiRange.holdRead_eq : s.holdRead a = none := by
  have hself : holdLo a = false := holdLo_eq_false (le_trans (by decide) ha.1)
  have hbelow : holdLo (a - 4) = false := holdLo_eq_false (Nat.le_sub_of_add_le (le_trans (by decide) ha.1))
  simp (disch := decide) [State.holdRead, ha.ne, hself, hbelow]

/-- A read in the range returns the register, or 0 where it is not reached, and has no effect. -/
theorem InSfiRange.bar0Read_eq (inc : Nat) : s.bar0Read a inc = (if s.reach a = true then s.peek a else 0, s) := by
  cases hr : s.reach a with
  | false => simp [State.bar0Read, hr]
  | true =>
    simp (disch := decide) [State.bar0Read, hr, ha.claimRead_eq, ha.rcRead_eq, ha.holdRead_eq, ha.ne]

end

/-! ### The island's counters -/

theorem State.sfiCount_cnts_getD (s : State) {k : Nat} (hk : k < s.sfi.cnts.length) :
    (s.sfiCount k).sfi.cnts.getD k 0 = min 0xFFFFFFFF (s.sfi.cnts.getD k 0 + 1) := by
  simp [State.sfiCount, hk]

/-! ### R389 -/

theorem InSfiRange.not_misplaced {a : Nat} (ha : InSfiRange a) (h4 : a % 4 = 0) : ¬ (a % 4 ≠ 0 ∨ 0x400000 ≤ a) := by
  obtain ⟨hlo, hhi⟩ := ha
  omega

theorem InSfiRange.exec_registerWrite {a : Nat} (ha : InSfiRange a) (h4 : a % 4 = 0) (s : State) (v : Word) :
    exec (.registerWrite a v) s = .next (s.bar0Write a v) :=
  if_neg (ha.not_misplaced h4)

/-- The host is answered with the register from DISCOVER on, with 0 before, and nothing else of the block changes. -/
theorem InSfiRange.exec_holdingRegisterRead {a : Nat} (ha : InSfiRange a) (h4 : a % 4 = 0) {s : State} (hup : s.hostUp = true) :
    exec (.holdingRegisterRead a) s =
      .next (s.send (.bar0 a (if s.glb.opened = true ∧ bankOf a ≠ none then s.rd a else 0))) := by
  have hreach : ¬ (a % 4 ≠ 0 ∨ 0x400000 ≤ a ∨ s.hostUp = false) := by
    simpa [hup] using ha.not_misplaced h4
  have hvalue : (if s.reach a = true then s.peek a else 0) =
      if s.glb.opened = true ∧ bankOf a ≠ none then s.rd a else 0 := by
    rw [ha.reach_eq, hup, Bool.true_and, ha.peek_eq, ite_and]
  change Host.Outcome.next (s.hostRead a 0) = _
  rw [State.hostRead, if_neg hreach, ha.bar0Read_eq, hvalue]

/-- Settles O56: a write in the range goes by access codes that give the host no bit of it; a read is of no read-clear, held or
claimed word, so it only answers; the counters are capped where they are counted. -/
theorem safetyRangeIsReadOnly : Obligations.SafetyRangeIsReadOnly := by
  refine ⟨fun s a v hlo hhi h4 => ?write, fun s a hlo hhi h4 hup => ?read, fun s k hk => s.sfiCount_cnts_getD hk⟩
  case write =>
    have ha : InSfiRange a := ⟨hlo, hhi⟩
    exact .of_eq (ha.exec_registerWrite h4 s v) ⟨ha.bar0Write_rd s v, ha.bar0Write_sfi s v⟩
  case read =>
    have ha : InSfiRange a := ⟨hlo, hhi⟩
    exact .of_eq (ha.exec_holdingRegisterRead h4 hup) ⟨State.send_regs .., State.send_sfi .., State.send_wire ..⟩

end Sys2Proof.Machine

/-! SUPPORT. Completions at the event router as the host meets them (R452): what the router's own messages leave alone, what the
raising of an event keeps (the claims, and what the event recorder has queued), and the two outcomes of a completion. -/

namespace Sys2Proof.Machine

/-! ### Sources and messages (R442, R449) -/

theorem State.src_setSrc_ne (s : State) {n m : Nat} (x : Src) (h : m ≠ n) : (s.setSrc n x).src m = s.src m := by
  rw [State.src, State.setSrc_evr]
  exact Tab.get_set_other _ _ _ _ h

/-- From `s` to `t` only the router's messages change: which vectors are asserted, and which messages are due or pending. -/
def MessagesOnly (s t : State) : Prop := ∃ e : Evr, e.srcs = s.evr.srcs ∧ t = { s with evr := e }

theorem MessagesOnly.of_srcs (s : State) {e : Evr} (h : e.srcs = s.evr.srcs) : MessagesOnly s { s with evr := e } := ⟨e, h, rfl⟩

theorem MessagesOnly.refl (s : State) : MessagesOnly s s := .of_srcs s rfl

theorem MessagesOnly.trans {s t u : State} (h1 : MessagesOnly s t) (h2 : MessagesOnly t u) : MessagesOnly s u := by
  obtain ⟨e, he, rfl⟩ := h1
  obtain ⟨e', he', rfl⟩ := h2
  exact ⟨e', he'.trans he, rfl⟩

theorem MessagesOnly.foldl {α : Type} {f : State → α → State} (h : ∀ s x, MessagesOnly s (f s x)) (l : List α) (s : State) :
    MessagesOnly s (l.foldl f s) := by
  induction l generalizing s with
  | nil => exact .refl s
  | cons x l ih => exact (h s x).trans (ih (f s x))

section
variable {s t : State} (h : MessagesOnly s t)
include h

theorem MessagesOnly.src (n : Nat) : t.src n = s.src n := by
  obtain ⟨e, he, rfl⟩ := h
  exact congrArg (Tab.get (Src.reset n) · n) he

theorem MessagesOnly.regs : t.regs = s.regs := by
  obtain ⟨e, -, rfl⟩ := h
  rfl

theorem MessagesOnly.elg : t.elg = s.elg := by
  obtain ⟨e, -, rfl⟩ := h
  rfl

end

theorem messagesOnly_msixDue (s : State) (v : Nat) : MessagesOnly s (s.msixDue v) := by
  unfold State.msixDue
  split
  · exact .of_srcs s rfl
  · exact .of_srcs s rfl

theorem messagesOnly_evrUpdate (s : State) : MessagesOnly s s.evrUpdate := by
  unfold State.evrUpdate
  extract_lets _ rose _ _ _ s1 s2
  have hmarked : MessagesOnly s s1 := .of_srcs s rfl
  have hdue : MessagesOnly s1 s2 := .foldl messagesOnly_msixDue rose s1
  exact (hmarked.trans hdue).trans (.of_srcs s2 rfl)

/-! ### Claims (R451) -/

/-- From `s` to `t` no claim begins or ends and no mask changes: every source keeps ACTIVE, OWNER and its mask. -/
def ClaimsStand (s t : State) : Prop :=
  ∀ m, (t.src m).active = (s.src m).active ∧ (t.src m).owner = (s.src m).owner ∧ (t.src m).masked = (s.src m).masked

theorem ClaimsStand.refl (s : State) : ClaimsStand s s := fun _ => ⟨rfl, rfl, rfl⟩

theorem ClaimsStand.trans {s t u : State} (h1 : ClaimsStand s t) (h2 : ClaimsStand t u) : ClaimsStand s u := fun m => by
  obtain ⟨ha, ho, hm⟩ := h1 m
  obtain ⟨ha', ho', hm'⟩ := h2 m
  exact ⟨ha'.trans ha, ho'.trans ho, hm'.trans hm⟩

theorem ClaimsStand.of_src {s t : State} (h : ∀ m, t.src m = s.src m) : ClaimsStand s t := fun m => by
  rw [h m]
  exact ⟨rfl, rfl, rfl⟩

theorem ClaimsStand.of_evr {s t : State} (h : t.evr = s.evr) : ClaimsStand s t :=
  .of_src fun _ => by rw [State.src, State.src, h]

theorem ClaimsStand.setSrc (s : State) {n : Nat} {x : Src} (ha : x.active = (s.src n).active) (ho : x.owner = (s.src n).owner)
    (hm : x.masked = (s.src n).masked) : ClaimsStand s (s.setSrc n x) := fun m => by
  by_cases h : m = n
  · subst h
    rw [State.src_setSrc_self]
    exact ⟨ha, ho, hm⟩
  · rw [State.src_setSrc_ne s x h]
    exact ⟨rfl, rfl, rfl⟩

/-- A level on its input changes no more of a source than INPUT, PENDING and ARRIVALS. -/
theorem Src.drive_claim (x : Src) (lvl : Bool) :
    (x.drive lvl).1.active = x.active ∧ (x.drive lvl).1.owner = x.owner ∧ (x.drive lvl).1.masked = x.masked := by
  unfold Src.drive
  dsimp only
  split_ifs <;> exact ⟨rfl, rfl, rfl⟩

theorem claimsStand_driveSrc (s : State) (n : Nat) (lvl : Bool) : ClaimsStand s (s.driveSrc n lvl).1 := by
  unfold State.driveSrc
  split
  · exact .refl s
  · obtain ⟨ha, ho, hm⟩ := (s.src n).drive_claim lvl
    exact (ClaimsStand.setSrc s ha ho hm).trans (.of_src (messagesOnly_evrUpdate _).src)

theorem claimsStand_pulseSrc (s : State) (n : Nat) : ClaimsStand s (s.pulseSrc n).1 :=
  (claimsStand_driveSrc s n true).trans (claimsStand_driveSrc _ n false)

theorem State.driveSrc_elg (s : State) (n : Nat) (lvl : Bool) : (s.driveSrc n lvl).1.elg = s.elg := by
  unfold State.driveSrc
  split
  · rfl
  · exact (messagesOnly_evrUpdate _).elg.trans (State.setSrc_elg ..)

theorem State.pulseSrc_elg (s : State) (n : Nat) : (s.pulseSrc n).1.elg = s.elg :=
  (State.driveSrc_elg _ n false).trans (s.driveSrc_elg n true)

/-! ### Triggers of captures reach neither the event router nor the event recorder -/

theorem touches_setCapCh (s : State) (c : Nat) (x : CapChan) : Touches [.cap] recorderRegs s (s.setCapCh c x) := by
  have put : ∀ (u : State) (v : Word) {a : Nat}, a ∈ recorderRegs → Touches [.cap] recorderRegs u (u.wr a v) :=
    fun u v _ ha => (touches_wr u v ha).mono (by simp) (fun _ => id)
  unfold State.setCapCh
  split
  · exact .refl ..
  · next hc =>
    exact (touches_cap s _).trans ((put _ _ (by simp [recorderRegs])).trans
      ((put _ _ (by simp [recorderRegs])).trans (put _ _ (capChStat_recorder hc))))

theorem touches_capTrig1 (s : State) (c : Nat) (grp forced : Bool) (at_ : Nat × Nat) :
    Touches [.cap] recorderRegs s (s.capTrig1 c grp forced at_).1 := by
  have missed : Touches [.cap] recorderRegs s (s.count Reg.capMissedCnt) :=
    (touches_count s (by simp [recorderRegs])).mono (by simp) (fun _ => id)
  unfold State.capTrig1
  dsimp only
  split
  case h_1 =>
    split
    · exact missed
    · exact touches_setCapCh ..
  case h_2 => exact missed
  case h_3 =>
    split
    · exact missed
    · exact .refl ..
  case h_4 => exact .refl ..

theorem touches_capTrigger (f : Nat) (l : List (Nat × Bool)) (at_ : Nat × Nat) (s : State) :
    Touches [.cap] recorderRegs s (State.capTrigger f l at_ s).1 := by
  induction f generalizing l s with
  | zero => exact .refl ..
  | succ f ih =>
    cases l with
    | nil => exact .refl ..
    | cons c t => exact (touches_capTrig1 s c.1 c.2 false at_).trans (ih _ _)

/-! ### What the raising of events keeps (R486 to R488) -/

/-- A relation that composes and that holds across each thing the raising of an event does: the recorder takes the event, a pulse
reaches the event's source, and captures are triggered. -/
structure KeptByRaising (R : State → State → Prop) : Prop where
  refl    : ∀ s, R s s
  trans   : ∀ {s t u}, R s t → R t u → R s u
  record  : ∀ s q, R s (s.enqueueEv q)
  pulse   : ∀ s n, R s (s.pulseSrc n).1
  trigger : ∀ {s t}, Touches [.cap] recorderRegs s t → R s t

namespace KeptByRaising
variable {R : State → State → Prop} (h : KeptByRaising R)
include h

/-- After the recorder has taken the first event, its pulse, the captures it triggers and the events that follow keep `R`. -/
theorem raiseAll_cons {f : Nat} (rest : ∀ l u, R u (State.raiseAll f l u)) (q : EvReq) (t : List EvReq) (s : State) :
    R (s.enqueueEv q) (State.raiseAll (f + 1) (q :: t) s) := by
  unfold State.raiseAll
  refine h.trans ?source (h.trans (h.trigger (touches_capTrigger ..)) (rest _ _))
  case source =>
    split
    · exact h.pulse ..
    · exact h.refl _

theorem raiseAll (f : Nat) (l : List EvReq) (s : State) : R s (State.raiseAll f l s) := by
  induction f generalizing l s with
  | zero => exact h.refl s
  | succ f ih =>
    cases l with
    | nil => exact h.refl s
    | cons q t => exact h.trans (h.record s q) (h.raiseAll_cons ih q t s)

theorem event (s : State) (code : Nat) (args : List EvArg) : R s (s.event code args) := h.raiseAll ..

theorem event_of_recorded (s : State) (code : Nat) (args : List EvArg) :
    R (s.enqueueEv { code := code, args := args }) (s.event code args) := h.raiseAll_cons (h.raiseAll 47) _ _ s

end KeptByRaising

theorem State.enqueueEv_evr (s : State) (q : EvReq) : (s.enqueueEv q).evr = s.evr := by
  unfold State.enqueueEv
  dsimp only
  split_ifs
  · rfl
  · exact State.count_evr ..
  · rfl
  · exact State.count_evr ..

theorem keptByRaising_claimsStand : KeptByRaising ClaimsStand where
  refl := .refl
  trans := .trans
  record s q := .of_evr (s.enqueueEv_evr q)
  pulse := claimsStand_pulseSrc
  trigger h := .of_evr (h.same .evr (by simp))

/-! ### The queue of the event recorder (R486) -/

theorem mem_insertEv {e x : Ev} {l : List Ev} : x ∈ insertEv e l ↔ x = e ∨ x ∈ l := by
  induction l with
  | nil => exact List.mem_cons
  | cons y l ih =>
    unfold insertEv
    split
    · exact List.mem_cons
    · rw [List.mem_cons, List.mem_cons, ih, or_left_comm]

theorem queue_subset_of_elg {s t : State} (h : t.elg = s.elg) : s.elg.queue ⊆ t.elg.queue := by
  rw [h]
  exact List.Subset.refl _

theorem State.queue_subset_enqueueEv (s : State) (q : EvReq) : s.elg.queue ⊆ (s.enqueueEv q).elg.queue := by
  unfold State.enqueueEv
  dsimp only
  split_ifs
  · exact fun _ he => mem_insertEv.2 (.inr he)
  · rw [State.count_elg]
    exact List.Subset.refl _
  · exact List.Subset.refl _
  · exact queue_subset_of_elg (State.count_elg ..)

theorem keptByRaising_queue_subset : KeptByRaising (fun s t => s.elg.queue ⊆ t.elg.queue) where
  refl _ := List.Subset.refl _
  trans := List.Subset.trans
  record := State.queue_subset_enqueueEv
  pulse s n := queue_subset_of_elg (s.pulseSrc_elg n)
  trigger h := queue_subset_of_elg (h.same .elg (by simp))

/-- An event stands in a running recorder's queue that had a place for it. -/
theorem State.mem_queue_enqueueEv {s : State} (hrun : s.elg.running = true) (hroom : s.elg.queue.length < 1024) (q : EvReq) :
    ∃ e ∈ (s.enqueueEv q).elg.queue, e.code = q.code ∧ e.args = packArgs q.args := by
  unfold State.enqueueEv
  rw [if_pos hrun, if_pos hroom]
  exact ⟨_, mem_insertEv.2 (.inl rfl), rfl, rfl⟩

/-- A raised event is logged: what it sets off takes nothing from the queue. -/
theorem State.logged_event (s : State) (code : Nat) (args : List EvArg) : s.logged code args (s.event code args) := by
  intro hrun hroom
  obtain ⟨e, he, hcode⟩ := s.mem_queue_enqueueEv hrun hroom { code := code, args := args }
  exact List.any_eq_true.2 ⟨e, keptByRaising_queue_subset.event_of_recorded s code args he, decide_eq_true hcode⟩

/-! ### Completions (R452) -/

theorem fld_lt (w : Word) (hi lo : Nat) : fld w hi lo < 2 ^ (hi + 1 - lo) := Nat.mod_lt _ (Nat.two_pow_pos _)

theorem State.completeBad_eq_none {s : State} {k n : Nat} (hn : n ≤ 0x1FF) (hact : (s.src n).active = true)
    (hown : (s.src n).owner = k) : s.completeBad k n = none := by
  simp [State.completeBad, hn.not_gt, hact, hown]

/-- A completion that ends no claim has a CAUSE: no source has the number, another target owns the claim, or there is none. -/
theorem State.completeBad_eq_some {s : State} {k n : Nat}
    (h : ¬ (n ≤ 0x1FF ∧ (s.src n).active = true ∧ (s.src n).owner = k)) :
    s.completeBad k n = some (if 0x1FF < n then 3 else if (s.src n).active = true then 2 else 1) := by
  unfold State.completeBad
  by_cases hn : 0x1FF < n
  · rw [if_pos hn, if_pos hn]
  rw [if_neg hn, if_neg hn]
  cases hact : (s.src n).active with
  | false => rfl
  | true =>
    have hown : (s.src n).owner ≠ k := fun ho => h ⟨not_lt.1 hn, hact, ho⟩
    simp [hown]

/-- The completed source: no longer ACTIVE, and of a LEVEL source PENDING follows the input. -/
def Src.completed (x : Src) : Src :=
  { x with active := false, pending := if x.sense = .level then x.input else x.pending }

/-- A valid completion puts the completed source; all else it does is messages. -/
theorem State.evrComplete_valid {s : State} {k n : Nat} (hne : n ≠ 0x3FF) (h : s.completeBad k n = none) :
    MessagesOnly (s.setSrc n (s.src n).completed) (s.evrComplete k n) := by
  have hdue : ∀ (u : State) v (c : Bool), MessagesOnly u (if c then u.msixDue v else u) := fun u v c => by
    cases c with
    | false => exact .refl u
    | true => exact messagesOnly_msixDue u v
  rw [State.evrComplete, if_neg hne, h]
  exact (messagesOnly_evrUpdate _).trans (hdue ..)

/-- An ignored completion is counted, shown in EVR_LAST_BAD_COMPLETE and raised as an event, and does nothing else. -/
theorem State.evrComplete_ignored {s : State} {k n cause : Nat} (hne : n ≠ 0x3FF) (h : s.completeBad k n = some cause) :
    s.evrComplete k n =
      ((s.count Reg.evrBadCompleteCnt).wr Reg.evrLastBadComplete (w32 (cause * 2 ^ 30 + k % 4 * 2 ^ 28 + n % 1024))).event 0x1301
        [.h k, .h n, .h cause] := by
  rw [State.evrComplete, if_neg hne, h]

theorem exec_completeSrc {s : State} {k : Nat} (hopen : s.hostOpen = true) (hk : k < 4) (v : Word) :
    exec (.completeSrc k v) s = .next (s.evrComplete k (fld v 9 0)) := if_pos ⟨hopen, hk⟩

/-- Neither register of ignored completions is one of the recorder's. -/
theorem badComplete_not_recorder : Reg.evrBadCompleteCnt ∉ recorderRegs ∧ Reg.evrLastBadComplete ∉ recorderRegs := by
  decide

/-- Settles O55: by CAUSE of the completion. A valid one changes its source and the router's messages; an ignored one is counted and
shown, and its event ends no claim and stays in the recorder's queue. -/
theorem completionsEndClaims : Obligations.CompletionsEndClaims := by
  intro s k v hopen hk n
  have hexec : exec (.completeSrc k v) s = .next (s.evrComplete k n) := exec_completeSrc hopen hk v
  refine ⟨fun hn hact hown => ?valid, ?ignored, fun hnone => ?noSource⟩
  case valid =>
    have hmsg := State.evrComplete_valid (by omega) (State.completeBad_eq_none hn hact hown)
    refine .of_eq hexec ⟨?_, fun m hm => ?_, ?_, ?_⟩
    · exact (hmsg.src n).trans (s.src_setSrc_self n _)
    · exact (hmsg.src m).trans (s.src_setSrc_ne _ hm)
    · exact hmsg.regs.trans (State.setSrc_regs ..)
    · exact hmsg.elg.trans (State.setSrc_elg ..)
  case ignored =>
    intro hne hbad cause
    have hn : n < 1024 := fld_lt v 9 0
    obtain ⟨hcnt, hlast⟩ := badComplete_not_recorder
    rw [State.evrComplete_ignored hne (State.completeBad_eq_some hbad), Nat.mod_eq_of_lt hk, Nat.mod_eq_of_lt hn] at hexec
    refine .of_eq hexec ⟨?_, ?_, ?_, ?_⟩
    · refine ClaimsStand.trans (.of_evr ?_) (keptByRaising_claimsStand.event _ _ _)
      rw [State.wr_evr, State.count_evr]
    · rw [State.rd_event _ _ _ hcnt, State.rd_wr_ne _ _ (by decide), State.count, State.countBy, State.rd_wr_self]
    · rw [State.rd_event _ _ _ hlast, State.rd_wr_self]
    · have hlogged := State.logged_event ((s.count Reg.evrBadCompleteCnt).wr Reg.evrLastBadComplete
        (w32 (cause * 2 ^ 30 + k * 2 ^ 28 + n))) 0x1301 [.h k, .h n, .h cause]
      rwa [State.logged, State.wr_elg, State.count_elg] at hlogged
  case noSource =>
    exact .of_eq hexec (if_pos hnone)

end Sys2Proof.Machine
